-- ==== Sys2Proof/Word.lean ====
section
/-! DEFINITION. The words of the VLM-1864 and the shapes of its sparse arrays (R3, R4). -/

namespace Sys2Proof

/-- A byte. -/
abbrev Byte := BitVec 8
/-- A 32-bit register (R8). -/
abbrev Reg32 := BitVec 32
/-- A 64-bit register (R8). -/
abbrev Reg64 := BitVec 64
/-- A 64 B line, byte `j` at bits `8j+7..8j` (R3, R4). -/
abbrev Line := BitVec 512
/-- A 64 B Barfin command packet, byte `j` at bits `8j+7..8j` (R244). -/
abbrev Packet := BitVec 512
/-- A 32 B completion entry (R246). -/
abbrev Completion := BitVec 256
/-- A 64 B event entry (R254). -/
abbrev EventEntry := BitVec 512
/-- A value of the Common Count (R27). -/
abbrev Count := Nat
/-- An array kept as its entries that differ from the default, by strictly rising index. -/
abbrev Sparse (α : Type) := List (Nat × α)

end Sys2Proof
end

