-- ==== Sys2Proof/Syntax.lean ====
section
/-! DEFINITION. The commands of the block: one constructor of `Instr` per row of the opcode table.
Every constructor's first operand `t` is the Common Count at which the command arrives or the event
occurs: its stamp (R11, R12). Physical facts that the hardware measures (errors met by a read, a
sensor value, the outcome of a training) are operands of the event that meets them. -/

namespace Sys2Proof

/-- Symbol errors met by one read of a data-space line (R287, R289). -/
structure LineFault where
  /-- Data-space line address `F × 1024 + l` (R109). -/
  line : Nat
  /-- Errors by stored symbol position 0–71. -/
  errs : List (Nat × Byte)
  /-- Difference of the address hash the line was stored with (R288). -/
  hash : BitVec 16
  deriving DecidableEq, Repr

/-- What a read of an on-die SRAM word met (R302): the index asked for, the index of the word that the array
delivered, that word's bytes, and the bits that changed, as byte and bit, 8 being the byte's parity bit. -/
structure SramRead where
  asked : Nat
  got : Nat
  data : List Byte
  flips : List (Nat × Nat)
  deriving DecidableEq, Repr

/-- A faulty read of an on-die SRAM word (R302, R303, R312): structure (0 check-line cache clean, 1 dirty,
2 merge buffer clean, 3 dirty, 4 length map, 5 map cache, 6 operand buffers, 7 read data, 8 write data,
9 sprig stores, 10 directory, 11 extent table, 12 key slots, 13 remap tables, 14 allotment state, 15 key
slots whose reload fails too), its index (check line 128 × frame + offset, merge entry and length-map
entry 64 × frame + block, frame, extent, slot or allotment), the read that meets it, and the re-read or
the read of the duplicate. -/
structure ParityFault where
  kind : Nat
  index : Nat
  once : SramRead
  again : SramRead
  deriving DecidableEq, Repr

/-- What the reads of one command meet: on a first read, and on the second read of R295. -/
structure ReadEnv where
  first : List LineFault
  second : List LineFault
  /-- Sealed line indices whose GMAC tag fails on the first and on the second read (R411). -/
  tag1 : List Nat
  tag2 : List Nat
  /-- GDDR7 link-check failures met by reads and by writes: channel and how many (R118). -/
  linkFails : List (Nat × Nat)
  writeFails : List (Nat × Nat)
  parity : List ParityFault
  /-- Flash codewords that R132 cannot recover, met by reads for internal accesses: extent, page, codeword. -/
  flashBad : List (Nat × Nat × Nat)
  /-- Engines whose next array job meets a residue error (R199). -/
  residue : List Nat
  deriving DecidableEq, Repr

/-- What the exit from low power meets: the retraining pause of a channel (its worst margin in 1/256 UI, and whether it is
hot), and what reads meet (R362). -/
structure ExitEnv where
  pauses : List (Nat × Nat × Bool)
  reads : ReadEnv
  deriving DecidableEq, Repr

/-- Why a whole-part reset or shutdown starts (R149, R319, R419, R420, R451). -/
inductive ResetCause where
  | powerUp | modRst | fltReset | watchdog | therm | input | aux | d3cold
  deriving DecidableEq, Repr

/-- The plan inputs that measurement gives (R39, R40, R422): pace-derived rates of the nine
resources at the floor of each level P0–P3 for the whole hardware (MATRIX: one engine), and, for each
level, the pace predicted for each domain at the level's lowest voltage and 105 °C. -/
structure PlanInput where
  rates : List (List Nat)
  paces : List (List (BitVec 16))
  deriving DecidableEq, Repr

/-- A Tamian message as it stands on the wire, in clear (R372). -/
structure TamMsg where
  type : Nat
  flags : Nat
  cls : Nat
  hops : Nat
  src : Nat
  dst : Nat
  status : Nat
  tag : Nat
  addr : Nat
  /-- Body fields by message type: versions, counts, results. -/
  nums : List Nat
  /-- Stored lines of a page or mirrored lines: index, poison mask value, bytes (R379, R383). -/
  lines : List (Nat × Nat × Line)
  /-- Length-map record of a page (R160). -/
  lens : BitVec 256
  deriving DecidableEq, Repr

/-- One offered or released dynamic-capacity extent: DPA base and length (R349). -/
structure DcdExtent where
  dpa : Nat
  len : Nat
  deriving DecidableEq, Repr

/-- A programmed HDM decoder (R70): base and size of the HPA window, ways, granularity, DPA skip. -/
structure HdmDecoder where
  base : Nat
  size : Nat
  ways : Nat
  gran : Nat
  skip : Nat
  /-- DPA at which the decoder's window starts; set at commit. -/
  dpaBase : Nat
  deriving DecidableEq, Repr

/-- The image or record bytes that a verification reads, with nothing but bytes in it. -/
abbrev Bytes := List (BitVec 8)

/-- The commands. -/
inductive Instr where
  -- loads, stores and peers
  | load (t port ld hpa : Nat) (env : ReadEnv)
  | store (t port ld hpa : Nat) (data : Line) (be : BitVec 64) (poison : Bool) (env : ReadEnv)
  | peerRead (t port ld off len : Nat) (req : BitVec 16) (env : ReadEnv)
  | peerWrite (t port ld off len : Nat) (req : BitVec 16) (data : List Line) (poison : Bool) (env : ReadEnv)
  | meterRelease (t : Nat) (env : ReadEnv)
  | urgencyRaise (t id : Nat)
  | mergeBufferFill (t frame span : Nat) (env : ReadEnv)
  | mergeFlushAge (t frame span : Nat) (env : ReadEnv)
  | fillComplete (t ext page ver : Nat) (lost : List Nat) (env : ReadEnv)
  | writeBack (t frame : Nat) (env : ReadEnv)
  | flashReadDone (t ext page cw step : Nat)
  | flashProgramDone (t id outcome : Nat)
  | rebuildImage (t die : Nat)
  | relocation (t die block n : Nat)
  | shadowCopy (t frame n : Nat) (env : ReadEnv)
  | synthJobDone (t id eng : Nat) (residue : Bool) (env : ReadEnv)
  | sprigBatchAck (t core cmd : Nat) (error : Bool) (env : ReadEnv)
  | sprigCoreTimeout (t core : Nat)
  | stationReport (t cmd station : Nat) (env : ReadEnv)
  | pacedRelease (t cmd : Nat)
  | heldCompletionWrite (t q : Nat)
  | completionWriteError (t q : Nat)
  | eventWrite (t n : Nat)
  | pageWipe (t : Nat)
  | scrubPassStart (t : Nat)
  | scrubFrame (t : Nat) (env : ReadEnv)
  | bucketLeak (t : Nat)
  | refreshDue (t ch : Nat) (busy : Bool)
  | pullInRefresh (t ch n : Nat) (busy : Bool)
  | retrainingPause (t ch margin : Nat) (hot : Bool)
  | sweepSlice (t ch margin : Nat)
  | evacuationChunkCopy (t ch w : Nat)
  | chunkSwitch (t ch : Nat)
  | holdupMeasure (t us : Nat)
  | shutdownSequence (t : Nat) (cause : ResetCause) (finished : Bool)
  | inputLow (t mv10 : Nat)
  | inputHigh (t mv10 : Nat)
  | inputDisconnect (t mv10 : Nat) (finished : Bool)
  | auxLoss (t : Nat) (finished : Bool)
  | junctionSample (t : Nat) (temps : List Nat)
  | powerGovernorSample (t mv10 watts inlet outlet flow : Nat)
  | paceSample (t : Nat) (paces : List (BitVec 16))
  | replanPeriod (t : Nat)
  | replanMeasureDone (t : Nat) (meas : PlanInput) (refs raises : List Nat)
  | planEffective (t : Nat)
  | reservationEffective (t n cls : Nat)
  | launchCountReached (t cmd : Nat) (env : ReadEnv)
  | waitCountReached (t cmd : Nat)
  | countRefLoss (t : Nat)
  | countRefReturn (t : Nat)
  | tickLoopLock (t : Nat) (toRef : Bool)
  | countSyncEdge (t : Nat) (falling : Bool)
  | powerUp (addr : BitVec 3)
  | mainConversionStart (t : Nat)
  | pwrGood (t : Nat)
  | modRst (t low : Nat) (finished : Bool)
  | watchdogExpiry (t : Nat) (finished : Bool)
  | bootRom (t : Nat) (puf : Bool)
  | dramTrainingDone (t : Nat) (failed limpFailed : List Nat)
  | restoreDone (t : Nat)
  | ready (t : Nat) (meas : PlanInput)
  | startupLate (t : Nat)
  | mapLoading (t pages : Nat)
  | perstAssert (t port : Nat)
  | perstDeassert (t port : Nat)
  | linkDown (t port : Nat)
  | linkDegraded (t port rate width : Nat)
  | linkTrainingRetry (t port rate width : Nat)
  | hdmDecoderCommit (t port ld k : Nat) (dec : HdmDecoder)
  | functionLevelReset (t port ld : Nat)
  | quiesce (t n : Nat)
  | busMasterClear (t port ld : Nat)
  | busMasterSet (t port ld : Nat)
  | d3hotEntry (t port ld : Nat)
  | d0Entry (t port ld : Nat)
  | partLowPowerEntry (t : Nat) (env : ReadEnv)
  | lowPowerExitDone (t : Nat) (env : ExitEnv)
  | memorySpaceEnable (t port ld : Nat) (on : Bool)
  | msixVectorUnmask (t port ld vec : Nat)
  | ideKm (t port ld stream : Nat) (ok : Bool)
  -- mailbox and FM API
  | identify (t port ld : Nat)
  | getEventRecords (t port ld log : Nat)
  | clearEventRecords (t port ld log : Nat) (handles : List Nat)
  | getEventInterruptPolicy (t port ld : Nat)
  | setEventInterruptPolicy (t port ld log vec : Nat)
  | getTimestamp (t port ld : Nat)
  | getSupportedLogs (t port ld : Nat)
  | getLog (t port ld off len : Nat)
  | identifyMemoryDevice (t port ld : Nat)
  | getDynamicCapacityConfiguration (t port ld : Nat)
  | getDynamicCapacityExtentList (t port ld : Nat)
  | addDynamicCapacityResponse (t port ld : Nat) (exts : List DcdExtent)
  | releaseDynamicCapacity (t port ld : Nat) (exts : List DcdExtent)
  | getLdInfo (t port : Nat)
  | getLdAllocations (t port : Nat)
  | getQosControl (t port : Nat)
  | getQosStatus (t port ld : Nat)
  -- SPDM
  | getCertificate (t port ld off len : Nat)
  | challenge (t port ld : Nat) (tbs : Bytes)
  | getMeasurements (t port ld : Nat) (tbs : Bytes)
  | keyExchange (t port ld : Nat) (tbs : Bytes)
  | getPqChain (t port ld off len : Nat)
  | getPqSig (t port ld off : Nat)
  | keyDeliver (t port ld : Nat) (session : Option Nat) (key : BitVec 256)
  | keyForget (t port ld : Nat) (session : Option Nat) (handle : Nat)
  | handleExpiry (t port ld handle : Nat)
  -- management bus
  | getState (t : Nat)
  | cfgRecord (t off : Nat) (data : Bytes) (last : Bool)
  | powerLevel (t level : Nat)
  | wake (t port ld : Nat)
  | pldmSensorRead (t sensor : Nat)
  -- Tamian
  | hello (t port peer : Nat) (lead auth : Bool) (fw : Reg32) (width : Nat)
  | tamianLinkDown (t port width : Nat)
  | tamianTrainingRetry (t port width : Nat)
  | echo (t port : Nat) (m : TamMsg)
  | echoReply (t port : Nat) (m : TamMsg)
  | rttMeasure (t : Nat)
  | sync (t port : Nat) (m : TamMsg)
  | pageRead (t port : Nat) (m : TamMsg) (env : ReadEnv)
  | pageData (t port : Nat) (m : TamMsg)
  | pageWrite (t port : Nat) (m : TamMsg)
  | openRemote (t port : Nat) (m : TamMsg)
  | openReply (t port : Nat) (m : TamMsg)
  | publishRemote (t port : Nat) (m : TamMsg)
  | publishReply (t port : Nat) (m : TamMsg)
  | closeRemote (t port : Nat) (m : TamMsg)
  | revoked (t port : Nat) (m : TamMsg)
  | mirror (t : Nat) (m : TamMsg)
  | mirrorAck (t : Nat) (m : TamMsg)
  | pairOp (t : Nat) (m : TamMsg)
  | heartbeat (t : Nat) (m : TamMsg)
  | heartbeatSend (t : Nat)
  | partnerLoss (t : Nat)
  | resilverPage (t : Nat) (m : TamMsg)
  | tamianRequestTimeout (t tag : Nat)
  | closeRemoteResend (t ext : Nat)
  | pageWriteDiscard (t src ext : Nat)
  -- versions, extents, keys, records
  | publishCommit (t cmd : Nat)
  | bisnpResponse (t port ld : Nat) (lines : List Nat)
  | revokeComplete (t cmd : Nat)
  | resizeMoveComplete (t ext : Nat) (env : ReadEnv)
  | snapshotRelease (t cmd : Nat)
  | keyEraseFlashDone (t : Nat)
  | lifeRecordSummary (t : Nat)
  | hashWindowClose (t n : Nat)
  | replayBufferDrain (t bytes : Nat)
  | replayInject (t : Nat) (env : ReadEnv)
  | logCopyDone (t : Nat)
  -- fetching and the Barfin packets
  | packetFetch (t q n : Nat) (delivered : List Packet) (env : ReadEnv)
  | fetchError (t q : Nat)
  | fill (t q : Nat) (p : Packet) (env : ReadEnv)
  | copy (t q : Nat) (p : Packet) (env : ReadEnv)
  | compare (t q : Nat) (p : Packet) (env : ReadEnv)
  | reduce (t q : Nat) (p : Packet) (env : ReadEnv)
  | scatterAdd (t q : Nat) (p : Packet) (env : ReadEnv)
  | gather (t q : Nat) (p : Packet) (env : ReadEnv)
  | recipe (t q : Nat) (p : Packet) (env : ReadEnv)
  | matmul (t q : Nat) (p : Packet) (env : ReadEnv)
  | synth (t q : Nat) (p : Packet) (env : ReadEnv)
  | hint (t q : Nat) (p : Packet) (env : ReadEnv)
  | pin (t q : Nat) (p : Packet) (env : ReadEnv)
  | unpin (t q : Nat) (p : Packet) (env : ReadEnv)
  | pageIn (t q : Nat) (p : Packet) (env : ReadEnv)
  | pageOut (t q : Nat) (p : Packet) (env : ReadEnv)
  | open_ (t q : Nat) (p : Packet) (env : ReadEnv)
  | publish (t q : Nat) (p : Packet) (env : ReadEnv)
  | close (t q : Nat) (p : Packet) (env : ReadEnv)
  | snapshot (t q : Nat) (p : Packet) (env : ReadEnv)
  | drain (t q : Nat) (p : Packet) (env : ReadEnv)
  | restore (t q : Nat) (p : Packet) (env : ReadEnv)
  | grant (t q : Nat) (p : Packet) (env : ReadEnv)
  | revoke (t q : Nat) (p : Packet) (env : ReadEnv)
  | resize (t q : Nat) (p : Packet) (env : ReadEnv)
  | query (t q : Nat) (p : Packet) (env : ReadEnv)
  | reserve (t q : Nat) (p : Packet) (env : ReadEnv)
  | release (t q : Nat) (p : Packet) (env : ReadEnv)
  | fence (t q : Nat) (p : Packet) (env : ReadEnv)
  | waitCount (t q : Nat) (p : Packet) (env : ReadEnv)
  | mark (t q : Nat) (p : Packet) (env : ReadEnv)
  | keyLoad (t q : Nat) (p : Packet) (env : ReadEnv)
  | keyDrop (t q : Nat) (p : Packet) (env : ReadEnv)
  | planSet (t q : Nat) (p : Packet) (env : ReadEnv)
  | powerSet (t q : Nat) (p : Packet) (env : ReadEnv)
  | replan (t q : Nat) (p : Packet) (env : ReadEnv)
  | altReset (t q : Nat) (p : Packet) (env : ReadEnv)
  | calendarSet (t q : Nat) (p : Packet) (env : ReadEnv)
  | testOpen (t q : Nat) (p : Packet) (env : ReadEnv)
  | replay (t q : Nat) (p : Packet) (env : ReadEnv)
  | fwStage (t q : Nat) (p : Packet) (env : ReadEnv)
  -- doorbells and register writes with behaviour
  | doorbell (t n off width : Nat) (v : Reg64)
  | evtHead (t by_ n : Nat) (v : Reg32)
  | evtEnable (t by_ n : Nat) (v : Reg32)
  | queEnable (t by_ q : Nat) (v : Reg32)
  | queRestart (t by_ q : Nat) (v : Reg32)
  | queOwner (t q : Nat) (v : Reg32)
  | altBind (t n : Nat) (v : Reg32)
  | altCtrl (t n : Nat) (v : Reg32)
  | winCommit (t by_ n : Nat) (v : Reg64)
  | winCommitCountReached (t n : Nat)
  | dirCtrl (t : Nat) (v : Reg32)
  | dirEntrySel (t : Nat) (v : Reg32)
  | pubSel (t : Nat) (v : Reg32)
  | codExtSel (t : Nat) (v : Reg32)
  | mxeEngSel (t : Nat) (v : Reg32)
  | mxeCompSel (t : Nat) (v : Reg32)
  | sprCoreSel (t : Nat) (v : Reg32)
  | colResSel (t : Nat) (v : Reg32)
  | drmChSel (t : Nat) (v : Reg32)
  | flsDieSel (t : Nat) (v : Reg32)
  | intChSel (t : Nat) (v : Reg32)
  | epPortSel (t : Nat) (v : Reg32)
  | epLdSel (t : Nat) (v : Reg32)
  | tamPortSel (t : Nat) (v : Reg32)
  | secSlotSel (t : Nat) (v : Reg32)
  | pwrDomSel (t : Nat) (v : Reg32)
  | ageDomSel (t : Nat) (v : Reg32)
  | tableLoad (t : Nat) (v : Reg32)
  | codGrantTable (t : Nat) (v : Reg32)
  | codExtTable (t : Nat) (v : Reg32)
  | recipeLoad (t : Nat) (v : Reg32)
  | recipeClear (t : Nat) (v : Reg32)
  | missEngines (t : Nat) (v : Reg32)
  | lsShare (t : Nat) (v : Reg32)
  | colBudget (t idx : Nat) (v : Reg32)
  | colClass (t c : Nat) (v : Reg32)
  | syncArm (t : Nat) (v : Reg32)
  | syncSend (t : Nat) (v : Reg32)
  | takeover (t : Nat) (v : Reg32)
  | rejoin (t : Nat) (v : Reg32)
  | fltReset (t : Nat) (v : Reg32) (finished : Bool)
  | cfgCommit (t : Nat) (v : Reg32)
  | secSlotAssign (t : Nat) (v : Reg64)
  | slotErase (t : Nat) (v : Reg32)
  | recoveryLoad (t : Nat) (v : Reg32) (finished : Bool)
  | detCtrl (t : Nat) (v : Reg32)
  | logCopy (t : Nat) (v : Reg32)
  | testClose (t : Nat) (v : Reg32)
  | prtGateDelay (t lane : Nat) (v : Reg32)
  | prtStage (t idx : Nat) (v : Reg32)
  | prtRetrain (t : Nat) (v : Reg32)
  | symbolInject (t : Nat) (v : Reg32)
  | prtLink (t : Nat) (v : Reg32)
  | prtCodec (t : Nat) (v : Reg64)
  | registerWrite (t by_ off width : Nat) (v : Reg64)
  | eventWriteError (t n : Nat)
  | linkUp (t port rate width : Nat)
  | slewComplete (t : Nat)
  | flitReplayRequest (t port seq : Nat)
  | reservedMessageType (t port : Nat) (m : TamMsg)
  | endSession (t port ld session : Nat)
  | modRstRelease (t : Nat)
  deriving DecidableEq, Repr

end Sys2Proof
end

