-- ==== Sys2Proof/Config.lean ====
section
/-! DEFINITION. What one implementation fixes, and the free values the spec leaves open. -/

namespace Sys2Proof.Config

/-- A fresh value wherever the spec states no value; the state's own counter indexes it
(assumption 5). -/
opaque freeValue : Nat → BitVec 512

/-- Silicon and boot-ROM revision bits 31:16 of GEN_ID (R467). -/
opaque siliconRev : BitVec 16

/-- The part's serial number, 16 B (R353, R355). -/
opaque serial : BitVec 128

/-- The plan's rate of a resource when PRT_STAGE entries are in force: entries, resource, rate without them
(R433 states no figure). -/
opaque stageRate : List (Nat × BitVec 32) → Nat → Nat → Nat

/-- The planned flash rate left by a measured retry rate and by retired dies (R133, R135, R421
state no figure): resource, retired dies, pace-derived rate. -/
opaque flashRate : Nat → Nat → Nat → Nat

/-- The planned flash program rate that a measured hold-up allows (R150 states no figure): microseconds, rate without
the limit. -/
opaque holdupRate : Nat → Nat → Nat

/-- A domain's measured pace referred through its model to 0.72 V and 85 °C (R421): domain, measured pace. -/
opaque refPace : Nat → BitVec 16 → Nat

/-- The SHA-384 digest of a byte string (FIPS 180-4 primitive, R429, R399). -/
opaque sha384 : List (BitVec 8) → BitVec 384

/-- The SHA-256 digest of a byte string (FIPS 180-4 primitive, R337). -/
opaque sha256 : List (BitVec 8) → BitVec 256

/-- HKDF with SHA-384 (RFC 5869): input key, salt, info string, bytes wanted (R396, R408). -/
opaque hkdfSha384 : List (BitVec 8) → List (BitVec 8) → List (BitVec 8) → Nat → List (BitVec 8)

/-- AES-256-XTS on one data unit of 64 B: data key, tweak key and tweak give a permutation of the unit's values, whose
inverse is decryption (R408). -/
opaque aesXts : BitVec 256 → BitVec 256 → Nat → Equiv (BitVec 512) (BitVec 512)

/-- AES-256-CMAC of a byte string: key, bytes (R410). -/
opaque aesCmac : BitVec 256 → List (BitVec 8) → BitVec 128

/-- AES-256-GMAC: key, 96-bit IV, additional data (R410). -/
opaque aesGmac : BitVec 256 → BitVec 96 → List (BitVec 8) → BitVec 128

/-- The wrapping process of AES-256 key wrap (RFC 3394) on a 64-bit check value and a 256-bit key, as one permutation of
320-bit strings: wrapping key (R396). -/
opaque aesWrap : BitVec 256 → Equiv (BitVec 320) (BitVec 320)

/-- Byte `i` of the key stream that AES-256-GCM adds to its plaintext: key, 96-bit IV, byte index (R396). -/
opaque aesGcmStream : BitVec 256 → BitVec 96 → Nat → BitVec 8

/-- The device secret that the PUF reconstructs (R395). -/
opaque deviceSecret : BitVec 256

/-- Whether the two signatures of a byte string verify under the Prinas keys (R391). -/
opaque firmwareSigs : List (BitVec 8) → Bool × Bool

/-- Whether the two signatures of a configuration record verify under its owner keys (R403). -/
opaque recordSigs : List (BitVec 8) → Bool × Bool

/-- The signature of a byte string by the RSA-3072 identity key pair that a 384 B seed generates (R396, R400). -/
opaque rsaSign : List (BitVec 8) → List (BitVec 8) → List (BitVec 8)

/-- The signature of a byte string by the SLH-DSA-SHA2-192s identity key pair of a 72 B seed (R396, R400). -/
opaque slhSign : List (BitVec 8) → List (BitVec 8) → List (BitVec 8)

/-- The certificate chains of manufacture, by algorithm (R397). -/
opaque certChain : Nat → List (BitVec 8)

/-- The public key of the identity key pair that a seed generates: algorithm (0 RSA-3072, 1 SLH-DSA), seed (R355,
R396). -/
opaque identityPublic : Nat → List (BitVec 8) → List (BitVec 8)

/-- Bank and row of a byte address of a GDDR7 channel (R111 names them, no rule states the layout). -/
opaque bankRow : Nat → Nat × Nat

/-- Pages of a flash block (R128, R130 state no figure). -/
opaque blockPages : Nat

/-- Bytes programmed for one entry of the map journal, for one map page and for one summary of the life record (R139
counts them and states no figure): 0, 1 and 2. -/
opaque systemBytes : Nat → Nat

/-- Concurrent programs that a measured hold-up can complete (R150 states no figure): microseconds. -/
opaque holdupPrograms : Nat → Nat

/-- The boot ROM image's SHA-384 (R399 block 1). -/
opaque romDigest : BitVec 384

/-- Where a new extent is placed among the ranges in use, each a base and a size, for a size in bytes
(R57 states bounds and alignment only). -/
opaque placement : List (Nat × Nat) → Nat → Nat

end Sys2Proof.Config
end

