-- ==== Sys2Proof/Machine/State.lean ====
section
/-! DEFINITION. The state of the VLM-1864 as plain data, and its value right after reset: every
register at its reset value (R468), from which POWER_UP starts (R27, R461). Each field's docstring
gives its width, the rule that names it, its reset value, and the log entry of a value that the spec
does not state. `0` and `[]` are the register-map resets (R468) unless a docstring says otherwise. -/

namespace Sys2Proof.Machine

open Sys2Proof

/-- The block has no processor faults (a command's refusal is a status in its completion). The one
constructor is raised by no meaning; it stands for a state outside the model's invariant and is safe. -/
inductive Fault where
  /-- Never raised by `exec`; safe. -/
  | outsideInvariant
  deriving DecidableEq, Repr

/-- Why a command is not modelled. -/
inductive Refusal where
  /-- Raised by a dispatch arm whose meaning is not written; safe (the machine stops). -/
  | notModelled (mnemonic : String)
  /-- Raised by MOD_RST for a pulse of 100 to 999 CC, whose effect R453 calls undefined; safe. -/
  | undefinedPulse
  deriving DecidableEq, Repr

/-! ### Stored lines -/

/-- One stored line, or a poison marker (R17, R296). -/
inductive Cell where
  /-- 64 B of the extent's codec form, encrypted (R17, R152, R408); in a merge-buffer entry the plain bytes
  (R166). -/
  | data (v : Line)
  /-- A marker: its reason and the count at which it was formed (R296). -/
  | marker (reason : Nat) (cc : Count)
  deriving DecidableEq, Repr

/-- A GDDR7 frame and its directory entry (R76, R78, R86, R108). Frames not listed are FREE. -/
structure Frame where
  /-- directory entry, 16 × set + way, R76. -/
  entry : Nat
  /-- 16; extent number of the page held, R86. -/
  ext : Nat
  /-- 32; stored page index within the extent (PAGE_TAG less the base's), R76, R86. -/
  page : Nat
  /-- 4; STATE of R78. -/
  st : Nat
  /-- 2; hint level, R80. -/
  hint : Nat
  /-- 1; flash copy stale, R78. -/
  dirty : Bool
  /-- 32; version of R86. -/
  ver : Nat
  /-- 6; allotment owning a SHADOW, R90. -/
  writer : Nat
  /-- the use counter at the last hit; AGE is its rank, R81, R86. -/
  used : Nat
  /-- 1,024; copied bits of a SHADOW, R90. -/
  copied : List Nat
  /-- 1; charged against DIR_PINNED_LIMIT, R77, R186. -/
  charged : Bool
  /-- page locked by PIN, R82. -/
  pinned : Bool
  /-- wipe-pending: the order in which it became pending, R299. -/
  wipe : Option Nat
  /-- the wipe is promoted, R300. -/
  promoted : Bool
  /-- stored lines 0–1,023; unlisted lines are unwritten, R299. -/
  lines : Sparse Cell
  /-- stored symbol errors by line: position and value, R287, R434. -/
  errs : Sparse (List (Nat × Byte))
  /-- 256; length-map record, GDDR7 copy as nibbles by block, R160. -/
  lens : Sparse Nat
  /-- 4 per block; difference of the on-die length-map copy from the GDDR7 copy, R160, R437. -/
  lenDie : Sparse Nat
  /-- tag of a SYNTH entry (versions of U, V, B), R181. -/
  tag : Nat × Nat × Nat
  /-- version fetched by a FILLING frame, R376; version that a published SHADOW gets at its commit, R94. -/
  fillVer : Nat
  /-- wiping or marker writing of an empty flash entry in progress (R299): reads poison at once. -/
  fillEmpty : Bool
  /-- codewords 0–15 of a FILLING page that have been decoded, R26. -/
  decoded : List Nat
  /-- the shadow set that a SHADOW belongs to, R90, R94. -/
  set : Nat
  /-- the write-back under way whose image is still the frame's content, R79. -/
  cleaning : Option Nat
  deriving DecidableEq, Repr

/-- A merge-buffer entry of 1 KiB (R166). -/
structure MergeEntry where
  frame : Nat
  span : Nat
  /-- lines 0–15 of the entry. -/
  lines : Sparse Cell
  /-- byte mask of the stores since it was loaded: line and its 64-bit mask. -/
  mask : Sparse (BitVec 64)
  /-- the stored form has been read in. -/
  loaded : Bool
  dirty : Bool
  /-- count at which it first became dirty, R167. -/
  since : Count
  used : Nat
  deriving DecidableEq, Repr

/-- A page image in flash and its map entry (R130, R131). -/
structure Image where
  ext : Nat
  page : Nat
  ver : Nat
  /-- die, 0–511, and the stripe row of its group, which is a block and a page index on that die, R127, R128. -/
  die : Nat
  row : Nat
  /-- the model's own: order in which the content of images was fixed, R131. -/
  seq : Nat
  /-- stored lines; mask 1 is an UNWRITTEN marker and mask 2 any other, R298. -/
  lines : Sparse Cell
  lens : Sparse Nat
  /-- marked lost, R136. -/
  lost : Bool
  /-- superseded copy kept for R101. -/
  retained : Bool
  deriving DecidableEq, Repr

/-- A stripe row of a die parity group (R128). -/
structure Stripe where
  /-- 5; parity group, R127. -/
  group : Nat
  /-- the row's number: block and page index on every member. -/
  row : Nat
  /-- dies of the group that worked when the row was formed. -/
  members : List Nat
  /-- members whose place has been given to a page image. -/
  used : List Nat
  /-- the parity image is programmed. -/
  closed : Bool
  /-- its lines: the bytewise exclusive or of the row's page images. -/
  parity : Sparse Line
  deriving DecidableEq, Repr

/-- A page program issued and not yet durable (R131, R148). -/
structure Program where
  id : Nat
  img : Image
  /-- the frame being written back, when any. -/
  frame : Option Nat
  /-- counts as host-caused, R139. -/
  host : Bool
  /-- the command that waits for it. -/
  cmd : Option Nat
  /-- times that reads have suspended it, R133. -/
  suspends : Nat
  /-- the die has it; a program beyond those that the hold-up can complete waits, R150. -/
  issued : Bool
  deriving DecidableEq, Repr

/-! ### Extents -/

/-- A composite descriptor, as its 64 bytes (R177). -/
abbrev CompDesc := BitVec 512

/-- An allotment's view of a shared extent (R88). -/
structure View where
  allot : Nat
  /-- 32; open version. -/
  ver : Nat
  /-- SPOILED, R91. -/
  spoiled : Bool
  /-- the shadow set that its writes go to, R90, R94. -/
  set : Nat
  deriving DecidableEq, Repr

/-- A pending publish (R94, R95). -/
structure PendPub where
  cmd : Nat
  allot : Nat
  cut : Count
  ver : Nat
  pages : List Nat
  /-- view version of the publisher at K; 2^32 before K (R94). -/
  base : Nat
  /-- the shadow set that is published (R94). -/
  set : Nat
  /-- remote publisher's expander ID and the tag of its message, when remote (R376). -/
  src : Option (Nat × Nat)
  /-- a write stamped before K found no shadow frame: the set is SPOILED (R91, R95 check 4). -/
  bad : Bool
  deriving DecidableEq, Repr

/-- A page set of one of the last 16 versions (R95). -/
structure PageSet where
  ver : Nat
  pages : List Nat
  deriving DecidableEq, Repr

/-- A write lock of SNAPSHOT (R143): command, byte range of the extent, first count, and the release count once the
last source line has been read. -/
structure WriteLock where
  cmd : Nat
  lo : Nat
  hi : Nat
  since : Count
  til : Option Count
  deriving DecidableEq, Repr

/-- A page received by PAGE_WRITE for a coming publish (R376, R378). -/
structure InPage where
  src : Nat
  page : Nat
  lines : Sparse Cell
  lens : Sparse Nat
  at_ : Count
  deriving DecidableEq, Repr

/-- An extent-table entry (R59 to R62). -/
structure Extent where
  /-- 48; local base, R57. -/
  base : Nat
  /-- size in bytes, R59. -/
  size : Nat
  /-- 32; applied attribute word, R59. -/
  attr : BitVec 32
  /-- 6; owner, R62. -/
  owner : Nat
  /-- members and their write right, R62. -/
  members : List (Nat × Bool)
  /-- 17; salt of R76. -/
  salt : Nat
  /-- 256; nonce of R408. -/
  nonce : BitVec 256
  /-- 10; code-table slot of an EXP extent, R156. -/
  slot : Nat
  /-- stamp of the last rebinding, and the slot before it, R156. -/
  rebound : Option (Count × Nat)
  /-- stamp of the first write, R156, R175. -/
  written : Option Count
  /-- descriptor of a composite, R176. -/
  desc : CompDesc
  /-- 56; pool address of a REMOTE proxy, R58, R375. -/
  pool : Option Nat
  /-- 32; current version, R87. -/
  ver : Nat
  /-- frozen SHARED_READONLY, R102. -/
  frozen : Bool
  views : List View
  /-- views ended by a REVOKE, R95 check 1: allotment, and the shadow set that writes stamped before still use, R67. -/
  endedViews : List (Nat × Nat)
  /-- admitted PUBLISHes that have not committed, R95. -/
  pubs : List PendPub
  /-- page sets of recent versions, R95 check 5, R104. -/
  history : List PageSet
  /-- publish ledger horizon, R97. -/
  pubHorizon : Count
  /-- recent versions with their commit counts, the current one first, R93. -/
  commits : List (Nat × Count)
  /-- count at which an OPEN last took effect, R93. -/
  openedAt : Option Count
  /-- next shadow set, R90. -/
  nextSet : Nat
  /-- write locks of snapshots, R143. -/
  locks : List WriteLock
  /-- revoke count of the extent, R67. -/
  revoke : Option Count
  /-- revoke counts of memberships, R69: allotment and count. -/
  memRevoke : List (Nat × Count)
  /-- shrink: first removed byte and revoke count, R65. -/
  shrink : Option (Nat × Count)
  /-- plane move in progress: old size and first count, R66. -/
  moving : Option (Nat × Count)
  /-- remote views registered by other parts: expander, proxy tag, version, R376. -/
  remoteViews : List (Nat × Nat)
  /-- pages received by PAGE_WRITE: source expander, page, lines, lengths, count, R376. -/
  inPages : List InPage
  /-- proxy closed by REVOKED from its home at this count, R377. -/
  homeRevoked : Option Count
  deriving DecidableEq, Repr

/-- A composite's finished tile served from the engine's output buffer only lives inside one command;
this is a synthesis job (R182). -/
structure SynthJob where
  id : Nat
  ext : Nat
  tile : Nat
  tag : Nat × Nat × Nat
  /-- runs on a COMMAND engine (R191, R192). -/
  command : Bool
  /-- restarted once already, R199. -/
  restarted : Bool
  /-- hint level of the entry, or pinned. -/
  level : Nat
  pin : Bool
  /-- command that asked for it, and commands whose reads wait for it, R182. -/
  cmd : Option Nat
  readers : List Nat
  /-- effective priority and stamp of the load behind it; promise of COMMAND work, R191, R192. -/
  eff : Nat
  stamp : Count
  promise : Count
  /-- asked for by EXT_HINT.AHEAD, R189. -/
  ahead : Bool
  /-- commands that asked for the tile while the job was there, R182, R197. -/
  joined : List Nat
  /-- the engine that runs it, and one on which it met a residue error, R199. -/
  eng : Option Nat
  avoid : Option Nat
  deriving DecidableEq, Repr

/-- A tile in an engine's output buffer for a command whose reads wait (R182, R183): its lines, or poison and whether a
damaged block gave it. -/
structure OutTile where
  cmd : Nat
  ext : Nat
  tile : Nat
  tag : Nat × Nat × Nat
  lines : List (Bool ⊕ Line)
  deriving DecidableEq, Repr

/-- An entry of an engine's operand buffer: frame, 1 KiB span, the frame's state when it was filled, and its lines
(R193). -/
structure OpEntry where
  frame : Nat
  span : Nat
  st : Nat
  lines : Nat
  deriving DecidableEq, Repr

/-! ### Requests and commands in flight -/

/-- Why a host request waits. -/
inductive Wait where
  | gate | meter | order | fill | wipe | synth | move | exit | remote | arbiter | filter
  deriving DecidableEq, Repr

/-- A load, store or peer request that has not been answered (R14, R26, R227). -/
structure HostReq where
  id : Nat
  /-- 0 load, 1 store, 2 peer read, 3 peer write (R337). -/
  kind : Nat
  lane : Nat
  allot : Nat
  /-- address as received, R325. -/
  addr : Nat
  /-- local address, R57. -/
  laddr : Nat
  cls : Nat
  /-- effective priority, R223. -/
  eff : Nat
  demoted : Bool
  inBudget : Bool
  stamp : Count
  /-- urgency 0–3, R112. -/
  urgency : Nat
  /-- waited at the meter, R366. -/
  metered : Bool
  data : Line
  poison : Bool
  ext : Nat
  /-- view version at the stamp; 2^32 without a view, R88. -/
  ver : Nat
  /-- shadow set of the view at the stamp, R90, R94. -/
  set : Nat
  /-- tag of a composite at the stamp, R181. -/
  tag : Option (Nat × Nat × Nat)
  /-- kind and priority of its class and LS_BUDGET at the stamp, R224. -/
  kd : Nat
  pr : Nat
  budget : Nat
  /-- stamped while ORDERED was 1, R328. -/
  ordered : Bool
  /-- commands admitted before it arrived, which decides between equal stamps, R13. -/
  after : Nat
  /-- a store already acknowledged from the fill buffer, R18, R19. -/
  acked : Bool
  /-- row hits that have passed it, R111. -/
  passed : Nat
  /-- what it waits for. -/
  wait : Wait
  /-- key of what it waits for: frame, job. -/
  on : Nat
  deriving DecidableEq, Repr

/-- Where an admitted command stands. -/
inductive CmdPhase where
  /-- a GRANT REMOTE whose home has been asked and has not answered: not admitted yet, R375. -/
  | asking
  /-- held for its launch count, R36. -/
  | held
  /-- its work runs. -/
  | running
  /-- work done, held for paced release, R45. -/
  | paced
  deriving DecidableEq, Repr

/-- An admitted, incomplete command (R43, R44). -/
structure Cmd where
  id : Nat
  allot : Nat
  queue : Nat
  /-- N of the sequencing key, R326. -/
  n : Nat
  pkt : Packet
  stamp : Count
  /-- launch count, or the stamp: E of R326. -/
  eff : Count
  promise : Count
  /-- plan version of the promise, R51. -/
  plan : Nat
  cls : Nat
  prio : Nat
  inBudget : Bool
  /-- ordered work, R327; and ORDERED was 1 at its stamp, R328. -/
  ordered : Bool
  keyed : Bool
  /-- paced release, R218; an interrupt is asked for, R244. -/
  paced : Bool
  intr : Bool
  /-- where the command stands between its admission and its completion. -/
  phase : CmdPhase
  /-- status of its completion, and whether poison or a damaged block was met, R246, R262. -/
  status : Nat
  poison : Bool
  damaged : Bool
  /-- result bytes 20–31. -/
  result : BitVec 96
  /-- local address ranges read and written, R209. -/
  reads : List (Nat × Nat)
  writes : List (Nat × Nat)
  /-- extents named, R276. -/
  exts : List Nat
  /-- versions at which shared extents are read, R92. -/
  vers : List (Nat × Nat)
  /-- shadow sets that shared extents are written through, R92. -/
  sets : List (Nat × Nat)
  /-- units of work still to do: sheaves, rows, tiles or pages by index, R208, R321. -/
  left : List Nat
  /-- stations still to report, R217. -/
  stations : List Nat
  /-- accumulators combined so far in free mode; ordered partials by sheaf, or the source lines and indices that a
  SCATTER_ADD has read, by unit, R211, R212. -/
  accs : List (BitVec 32)
  partials : Sparse (List (BitVec 32))
  /-- accumulators that received poison, R215; source lines that are poison, R213. -/
  accPoison : List Nat
  /-- the 256 B argument block, with the image of a loaded recipe after it, or the source list, read at the stamp, R205,
  R472. -/
  args : List Line
  /-- counts kept for the result (tiles, out-of-range indices, pages), R213, R272. -/
  cnt : List Nat
  /-- what admission reserved: extent number, base, salt, version, effective count (R477). -/
  aux : List Nat
  /-- commands covered by a FENCE still to post, R279. -/
  covers : List Nat
  injected : Bool
  /-- page programs still to become durable. -/
  programs : Nat
  deriving DecidableEq, Repr

/-- A queue pair (R238, R258). -/
structure Queue where
  /-- 64; QUE_SQ_BASE; reset 0. -/
  sqBase : Reg64
  /-- 64; QUE_CQ_BASE; reset 0. -/
  cqBase : Reg64
  /-- 32; QUE_CTRL; reset 0. -/
  ctrl : Reg32
  /-- 32; QUE_OWNER; reset 0. -/
  owner : Reg32
  /-- 3; STATE of R250; reset DISABLED. -/
  state : Nat
  fetchErr : Bool
  postErr : Bool
  cfgErr : Bool
  assignErr : Bool
  /-- 1; PHASE, R247. -/
  phase : Bool
  /-- 16; SQ_HEAD. -/
  sqHead : Nat
  /-- 16; CQ_TAIL. -/
  cqTail : Nat
  /-- 16; submission tail of the doorbell, R241. -/
  sqTail : Nat
  /-- 16; completion head of the doorbell, R241. -/
  cqHead : Nat
  /-- 16; expected sequence number, R245. -/
  seq : Nat
  /-- packets fetched since it was enabled, N of R326. -/
  fetched : Nat
  /-- 7; INFLIGHT, R243. -/
  inflight : Nat
  /-- entries of the outstanding fetch read, R243. -/
  fetching : Nat
  /-- that read's completion is to be discarded, R252. -/
  fetchDrop : Bool
  /-- holding area: entry, PROMISE, interrupt, in-budget count to leave, R249. -/
  held : List (Completion × Count × Bool × Option Nat)
  /-- ring slots whose entry was written with INTERRUPT and lies at or after the head, R358. -/
  intrSlots : List Nat
  /-- ENABLE cleared in STOPPED or ERROR: return to DISABLED pending, R251. -/
  disabling : Bool
  /-- cause of the entry to STOPPED or ERROR, R255. -/
  cause : Nat
  /-- fetching stopped by a replay, R340. -/
  replaying : Bool
  /-- the latest entry written, whose write may still fail: entry, PROMISE, interrupt, R251. -/
  written : Option (Completion × Count × Bool)
  deriving DecidableEq, Repr

/-- A queue as reset leaves it (R258). -/
def Queue.init : Queue :=
  { sqBase := 0, cqBase := 0, ctrl := 0, owner := 0, state := 0, fetchErr := false, postErr := false,
    cfgErr := false, assignErr := false, phase := false, sqHead := 0, cqTail := 0, sqTail := 0,
    cqHead := 0, seq := 0, fetched := 0, inflight := 0, fetching := 0, fetchDrop := false, held := [],
    intrSlots := [], disabling := false, cause := 0, replaying := false, written := none }

/-- An entry of FLT_PLOG and FLT_ALOG (R317, R325). -/
structure LogEntry where
  code : Nat
  source : Nat
  count : Nat
  unit : Nat
  ext : Nat
  stamp : Count
  addr : Nat
  detail : Nat
  deriving DecidableEq, Repr

/-- A window of the peer aperture: the four registers of R85. -/
structure Window where
  /-- 64; WIN_APT. -/
  apt : Reg64
  /-- 64; WIN_TARGET. -/
  target : Reg64
  /-- 32; WIN_SIZE. -/
  size : Reg32
  /-- 32; WIN_CTRL. -/
  ctrl : Reg32
  deriving DecidableEq, Repr

/-- A window as reset leaves it (R85). -/
def Window.init : Window := { apt := 0, target := 0, size := 0, ctrl := 0 }

/-- An allotment's own state (R54, R84, R85, R259, R315, R337). -/
structure Allot where
  /-- 32; ALT_BIND, R84; reset 0, allotment 0: 0x100. -/
  bind : Reg32
  /-- 2; STATE of ALT_STATE; reset 0, allotment 0: 1. -/
  state : Nat
  /-- 1; BIND_ERR. -/
  bindErr : Bool
  /-- 32; ALT_CTRL. -/
  ctrl : Reg32
  /-- 64; ALT_EVT_BASE, R259. -/
  evtBase : Reg64
  /-- 32; ALT_EVT_CTRL. -/
  evtCtrl : Reg32
  evtPostErr : Bool
  evtCfgErr : Bool
  /-- an event write failed: events are held until ENABLE is written again, R259. -/
  evtHold : Bool
  /-- 1; PHASE of the event ring. -/
  evtPhase : Bool
  /-- 16; HEAD and TAIL of ALT_EVT_POS. -/
  evtHead : Nat
  evtTail : Nat
  /-- 16; event sequence number, R254. -/
  evtSeq : Nat
  /-- 32; ALT_EVT_LOST, and the FAULT events among them, R255. -/
  evtLost : Nat
  evtLostFault : Nat
  /-- holding area of 64 events, R256. -/
  evtHeld : List EventEntry
  /-- kept entries: group whose writing has begun, and newest group waiting, R256. -/
  evtGroup : List EventEntry
  evtNext : List EventEntry
  /-- shadow and live window sets by window number, R73. -/
  shadow : Sparse Window
  live : Sparse Window
  /-- 64; WIN_LIVE_COUNT. -/
  winLive : Reg64
  /-- pending commit: its count and set, R73. -/
  winPend : Option (Count × Sparse Window)
  /-- COMMIT_ERR, BAD_WINDOW and STALE of WIN_STATUS. -/
  winErr : Bool
  winBad : Nat
  winStale : BitVec 16
  /-- live windows that met R75: no request passes them until a commit replaces them. -/
  winDead : BitVec 16
  /-- error log: the last 16 entries, newest first, and the running total, R315. -/
  log : List LogEntry
  logTotal : Nat
  /-- 32; FLT_ALOG_CAUSE. -/
  cause : Reg32
  /-- reset count T and commands and queues abandoned, R320, R322. -/
  resetAt : Option (Count × Nat × Nat)
  /-- the reset that runs is an allotment reset of this command. -/
  resetCmd : Option Nat
  /-- hash window: start, sum, count, R337. -/
  hashOpen : Bool
  hashStart : Count
  hashSum : BitVec 128
  hashCount : Nat
  /-- windows past their end with requests that still wait: start, end, sum, count, R12, R337. -/
  hashLate : List (Count × Count × BitVec 128 × Nat)
  deriving DecidableEq, Repr

/-- An allotment as reset leaves it. -/
def Allot.init : Allot :=
  { bind := 0, state := 0, bindErr := false, ctrl := 0, evtBase := 0, evtCtrl := 0, evtPostErr := false,
    evtCfgErr := false, evtHold := false, evtPhase := false, evtHead := 0, evtTail := 0, evtSeq := 0, evtLost := 0,
    evtLostFault := 0, evtHeld := [], evtGroup := [], evtNext := [], shadow := [], live := [],
    winLive := 0, winPend := none, winErr := false, winBad := 0, winStale := 0, winDead := 0, log := [],
    logTotal := 0, cause := 0, resetAt := none, resetCmd := none,
    hashOpen := false, hashStart := 0, hashSum := 0, hashCount := 0, hashLate := [] }

/-- A logical device (R347 to R364). -/
structure Ld where
  /-- 2; D-state 0 or 3, R361. -/
  dstate : Nat
  /-- 1; bus-master enable, R359. -/
  bme : Bool
  /-- 1; Memory Space Enable, R352. -/
  mse : Bool
  /-- 1; Mem_Enable, R347. -/
  memEn : Bool
  /-- 1; MSI-X Enable; 1; function mask, R357. -/
  msix : Bool
  fmask : Bool
  /-- 1; Interrupt Disable, R358. -/
  intxDis : Bool
  /-- 1; INTA asserted, R358. -/
  intx : Bool
  /-- 1; HDM-DB enabled, R104. -/
  hdmDb : Bool
  /-- 1; PME_En; 1; PME_Status, R364. -/
  pmeEn : Bool
  pme : Bool
  /-- 6; APERTURE_LOG2 in force, R351. -/
  aperture : Nat
  /-- vectors masked, R357; a vector not listed is unmasked. -/
  masked : List Nat
  /-- 128; pending bits, R357. -/
  pend : List Nat
  /-- MSI-X table words written: index, value, R357. -/
  table : Sparse (BitVec 32)
  /-- 4 HDM decoders; committed ones, R70. -/
  decoders : Sparse HdmDecoder
  /-- commit errors by decoder, R70. -/
  decErr : List Nat
  /-- capacity accepted: DPA range and first stamp, R349. -/
  accepted : List (Nat × Nat × Count)
  /-- capacity offered and not yet answered: DPA range, R349. -/
  offered : List (Nat × Nat)
  /-- dynamic-capacity and informational event logs: handle, kind, extent, R348. -/
  dcdLog : List (Nat × Nat × Nat)
  infoLog : List (Nat × Nat × Nat)
  logHandle : Nat
  /-- MSI-X vector of each event log, R348. -/
  logVec : Sparse Nat
  /-- lines whose back-invalidation is outstanding, R104. -/
  bisnp : List Nat
  /-- 4 × 16; EP_DEVLOAD counts, and the last value sent, R366. -/
  devload : List Nat
  lastLoad : Nat
  /-- key handles: handle, key, session, delivery count, R406. -/
  handles : List (Nat × BitVec 256 × Nat × Count)
  /-- SPDM: signed bytes that a GET_PQ_SIG may follow, R400. -/
  lastSigned : Option Bytes
  /-- open SPDM sessions, R400. -/
  sessions : List Nat
  /-- configuration requests answer Request Retry Status until Q, R360. -/
  crs : Bool
  /-- Memory_Info_Valid and Memory_Active, R464. -/
  memInfo : Bool
  memActive : Bool
  deriving DecidableEq, Repr

/-- A logical device with PCIe reset values (R360). -/
def Ld.init : Ld :=
  { dstate := 0, bme := false, mse := false, memEn := false, msix := false, fmask := false,
    intxDis := false, intx := false, hdmDb := false, pmeEn := false, pme := false, aperture := 0,
    masked := List.range 128, pend := [], table := [], decoders := [], decErr := [], accepted := [], offered := [],
    dcdLog := [], infoLog := [], logHandle := 1, logVec := [], bisnp := [],
    devload := [0, 0, 0, 0], lastLoad := 0, handles := [], lastSigned := none, sessions := [],
    crs := false, memInfo := false, memActive := false }

/-- A host port (R310, R345, R367). -/
structure HostPort where
  /-- 0 down, 1 32 GT/s, 2 64 GT/s. -/
  rate : Nat
  width : Nat
  perst : Bool
  training : Bool
  replays : Nat
  /-- count from which the training of a link that is held down is tried again, R345; reset none. -/
  held : Option Count
  /-- IDE streams Secure: 0 CXL.cachemem, 1 CXL.io link, 2–9 selective, R365. -/
  ide : List Nat
  /-- flits still to corrupt, R436. -/
  corrupt : Nat
  /-- snoop-filter entries: LD-ID and line number, newest first, R104. -/
  snoop : List (Nat × Nat)
  deriving DecidableEq, Repr

/-- A port before its first training. -/
def HostPort.init : HostPort :=
  { rate := 0, width := 0, perst := true, training := false, replays := 0, held := none, ide := [], corrupt := 0,
    snoop := [] }

/-- A Tamian port (R368 to R371, R389). -/
structure TamPort where
  up : Bool
  /-- 0 down, 1 x4, 2 x8. -/
  width : Nat
  retired : Bool
  peer : Nat
  retrains : Nat
  replays : Nat
  /-- count at which the port went down or its training was last tried, R368; reset 0. -/
  tried : Count
  /-- starts of retrainings within 24 h, R369. -/
  starts : List Count
  /-- last 16 round-trip measurements, R381. -/
  rtts : List Nat
  /-- RTT in force, 16 bits, R389. -/
  rtt : Nat
  /-- flits kept: sequence numbers sent, R369. -/
  sent : Nat
  corrupt : Nat
  deriving DecidableEq, Repr

/-- A Tamian port before training. -/
def TamPort.init : TamPort :=
  { up := false, width := 0, retired := false, peer := 0, retrains := 0, replays := 0, tried := 0, starts := [],
    rtts := [], rtt := 0, sent := 0, corrupt := 0 }

/-! ### Outputs -/

/-- What a command sends on a link, ring or pin (R16, R18, R247, R357, R372, R450). -/
inductive Out where
  /-- data response of request `id`: poison, line, DevLoad. -/
  | readData (id : Nat) (poison : Bool) (data : List Line) (devload : Nat)
  /-- write completion of request `id`. -/
  | writeDone (id : Nat) (devload : Nat)
  /-- peer or BAR request completed with Unsupported Request, R352. -/
  | unsupported (n : Nat)
  /-- CXL.io memory write of a completion or event entry. -/
  | ringWrite (allot : Nat) (addr : Nat) (bytes : Nat) (v : BitVec 512)
  /-- CXL.io read of submission entries. -/
  | ringRead (q addr n : Nat)
  | msix (ld vec : Nat)
  | intx (ld : Nat) (on : Bool)
  | pme (ld : Nat)
  | biSnp (ld line : Nat)
  | tam (port : Nat) (m : TamMsg)
  /-- mailbox, FM API, SPDM, MCTP or PLDM response: return code, numbers, bytes. -/
  | reply (code : Nat) (nums : List Nat) (bytes : Bytes)
  | addCapacity (ld ext base size : Nat)
  | releaseCapacity (ld base size : Nat)
  deriving DecidableEq, Repr

/-! ### The blocks -/

/-- CC block (R27 to R33, R53). -/
structure CcBlk where
  /-- 64; CC_NOW, R27; reset 0. -/
  now : Count
  /-- the tick loop has locked: the count runs, R27, R458; reset false. -/
  running : Bool
  /-- the loop is locked to COUNT_REF; otherwise to the holdover oscillator, R29. -/
  onRef : Bool
  /-- 64; CC_SYNC_VALUE; reset 0. -/
  syncValue : Reg64
  /-- 32; CC_CTRL; reset 0. -/
  ctrl : Reg32
  /-- 32; CC_STATUS; reset 0. -/
  status : Reg32
  /-- 64; CC_LAST_SYNC; reset 0. -/
  lastSync : Reg64
  /-- 32; CC_SYNC_OFFSET; reset 0. -/
  syncOffset : Reg32
  /-- ticks still to hold (negative) or skip (positive) by a slew, R33; reset 0. -/
  slew : Int
  /-- ticks since the last held or skipped one, R33; reset 0. -/
  slewTick : Nat
  /-- 16 each; MEASURED of CC_PACE[0–63]; reset 0. -/
  measured : Sparse Nat
  deriving DecidableEq, Repr

/-- A plan version (R40, R225). -/
structure Plan where
  /-- 16; version, 0 when no plan is in force. -/
  ver : Nat
  cause : Nat
  effective : Count
  level : Nat
  /-- PLAN_SET limits in thousandths, R283. -/
  limits : List Nat
  lsShare : Nat
  miss : Nat
  /-- PRT_STAGE entries, R433. -/
  stages : Sparse Nat
  /-- planned rates of the nine resources in the units of R230. -/
  rates : List Nat
  /-- command capacities, R225. -/
  caps : List Nat
  /-- load/store allowance in 1/16 B per CC. -/
  allow : Nat
  /-- planned pace of each domain. -/
  paces : List (BitVec 16)
  /-- planned Ladle drain, completions in each 9,000 CC; bounds of R25; t_path, t_ladle and the flash allowance of R42. -/
  ladle : Nat
  bounds : List Nat
  terms : List Nat
  deriving DecidableEq, Repr

/-- No plan in force (R47). -/
def Plan.none : Plan :=
  { ver := 0, cause := 0, effective := 0, level := 0, limits := List.replicate 9 1000, lsShare := 250,
    miss := 8, stages := [], rates := List.replicate 9 0, caps := List.replicate 9 0, allow := 0,
    paces := [], ladle := 0, bounds := [], terms := [] }

/-- The plan in force, the pending plan and what they are computed from (R39 to R50, R476). -/
structure PlanBlk where
  /-- plan in force, R47; reset version 0. -/
  cur : Plan
  /-- pending plan, R476; reset none. -/
  pend : Option Plan
  /-- last version issued, R47; from the life record. -/
  last : Nat
  /-- measured inputs of R39; reset none measured. -/
  meas : PlanInput
  /-- counts at which the reservation cuts of retirements apply, in order, R50. -/
  cutAt : List Count
  /-- versions kept by the life record: version, effective count, cause, withdrawn, R47, R424. -/
  versions : List (Nat × Count × Nat × Bool)
  /-- level held for the first plan, R460. -/
  heldLevel : Option Nat
  /-- the pending change is an automatic thermal step, R419. -/
  stepping : Bool
  /-- measured hold-up limits programs: microseconds, R150. -/
  holdup : Nat
  deriving DecidableEq, Repr

/-- A reservation (R230 to R235). -/
structure Reservation where
  allot : Nat
  cls : Nat
  /-- rates in force for the nine resources. -/
  rates : List Nat
  /-- ledger horizons of the shares. -/
  horizons : List Count
  /-- changes waiting for their counts, R234: resource, new rate, count for new promises of the share,
  count at which the pool's rate changes. -/
  next : List (Nat × Nat × Count × Count)
  deriving DecidableEq, Repr

/-- COL block (R220 to R237). -/
structure ColBlk where
  /-- 32; COL_CTRL; reset 0xFA. -/
  ctrl : Reg32
  /-- BUDGET_ERR, CLASS_ERR and CUT_DONE of COL_STATUS; reset clear. -/
  budgetErr : Bool
  classErr : Bool
  cutDone : Bool
  /-- 32; COL_REFUSED_LATE; reset 0. -/
  refusedLate : Nat
  /-- 32; COL_DEMOTED; reset 0. -/
  demoted : Nat
  /-- meter M in 1/16 B, R227; reset 0. -/
  meter : Int
  /-- 32 each; COL_CLASS[0–15]; reset 0. -/
  cls : Sparse Reg32
  /-- 32 each; COL_LDCLASS[0–63]; reset 0x000F0000. -/
  ldClass : Sparse Reg32
  /-- 32 each; COL_BUDGET[0–1023]; reset 0. -/
  budget : Sparse Reg32
  /-- in-budget counts LS and CMD of R223 by 16n + c; reset 0. -/
  ls : Sparse Nat
  cmd : Sparse Nat
  /-- 32; COL_RES_SEL and its snapshots of rates and horizons, R237; reset 0. -/
  resSel : Reg32
  resRate : List Nat
  resHorizon : List Count
  /-- 64 each; COL_POOL_HORIZON[0–8], R237; reset 0. -/
  pool : List Count
  /-- reservations held; reset none. -/
  res : List Reservation
  deriving DecidableEq, Repr

/-- DIR block and the merge buffer (R76 to R86, R166). -/
structure DirBlk where
  /-- 32; DIR_CTRL; reset 8. -/
  ctrl : Reg32
  /-- 32; DIR_STATUS; reset 0. -/
  status : Reg32
  /-- 32; DIR_ENTRY_SEL and its snapshot of 128 bits; reset 0. -/
  sel : Reg32
  entry : BitVec 128
  /-- the directory and its frames by frame number; reset all FREE. -/
  frames : Sparse Frame
  /-- announced frames taken out of service, R125; reset none. -/
  gone : List Nat
  /-- group from which the next free frame is taken, R110; reset 0. -/
  rr : Nat
  /-- STAGING frames in order of use, oldest first, R79; reset none. -/
  staging : List Nat
  /-- merge buffer, R166; reset empty. -/
  merge : List MergeEntry
  /-- use counter behind recency, R81; reset 0. -/
  clock : Nat
  /-- order counter of wipe-pending pages, R299; reset 0. -/
  wipes : Nat
  /-- 32 each; EXT_HINT[0–65535], R86; reset 1. -/
  hint : Sparse Reg32
  deriving DecidableEq, Repr

/-- PUB block and the extent table (R57 to R69, R87 to R106). -/
structure ExtBlk where
  /-- the extent table by number; reset empty (R324 restores it). -/
  tbl : Sparse Extent
  /-- 32; PUB_CTRL; reset 0x401. -/
  ctrl : Reg32
  /-- 32; PUB_STATUS; reset 0. -/
  status : Reg32
  /-- 32; PUB_SEL and its snapshots; reset 0. -/
  sel : Reg32
  extent : Reg64
  view : Reg64
  oldest : Reg32
  /-- RETAINED frames exceeded RETAIN_WARN at the last test, R101. -/
  retainHigh : Bool
  deriving DecidableEq, Repr

/-- COD block (R153 to R175). -/
structure CodBlk where
  /-- 32; COD_CTRL; reset 0x3E8. -/
  ctrl : Reg32
  /-- 32; COD_STATUS; reset 0. -/
  status : Reg32
  /-- 32; COD_GRANT_TABLE; reset 0. -/
  grantTable : Reg32
  /-- 32; COD_DAMAGED, COD_REREAD_SKIPPED, COD_FXR_NAN; reset 0. -/
  damaged : Nat
  skipped : Nat
  fxrNan : Nat
  /-- 32; COD_TBL_SEL; reset 0. -/
  tblSel : Reg32
  /-- ELEM of COD_TBL_CTRL; reset 0. -/
  elem : Bool
  /-- load buffer of COD_TBL_LEN: exponent to length, R175; reset 0. -/
  buf : Sparse Nat
  /-- loaded slots 2–1023: element type fp32, lengths by exponent, R153; reset none. -/
  slots : Sparse (Bool × Sparse Nat)
  /-- 32; COD_EXT_SEL and its snapshots; reset 0. -/
  extSel : Reg32
  extTable : Reg32
  extBlocks : Reg64
  extLines : Reg64
  /-- block re-reads made in the interval that starts at the count, R164; reset 0. -/
  rereads : Count × Nat
  deriving DecidableEq, Repr

/-- MXE block (R176 to R200). -/
structure MxeBlk where
  /-- 32; MXE_CTRL; reset 8. -/
  ctrl : Reg32
  /-- ENGINE_RETIRED_NEW, MISS_WAIT, RETRY_LIMIT of MXE_STATUS; reset clear. -/
  retiredNew : Bool
  missWait : Bool
  retryLimit : Bool
  /-- 32; MXE_MISS_WAITS, MXE_RETRIES, MXE_UNCACHED; reset 0. -/
  missWaits : Nat
  retries : Nat
  uncached : Nat
  /-- 64; MXE_SYNTH_TILES, MXE_SYNTH_HITS; reset 0. -/
  tiles : Nat
  hits : Nat
  /-- 32; MXE_ENG_SEL, MXE_COMP_SEL and their snapshots; reset 0. -/
  engSel : Reg32
  engStatus : Reg64
  compSel : Reg32
  compTiles : Reg64
  /-- 64 each; MXE_DESC by word index 0–127; reset 0. -/
  desc : Sparse Reg64
  /-- retired engines in order, from the life record, and how many they were at start-up, R190. -/
  retired : List Nat
  boot : Nat
  /-- operand buffers by engine, last used first, R193. -/
  bufs : Sparse (List OpEntry)
  /-- tiles in output buffers, R183; the model's own: tiles that the reads of the present step found missing. -/
  outs : List OutTile
  want : List (Nat × Nat × (Nat × Nat × Nat))
  /-- residue errors by engine, R200; jobs by engine; first error within 1 s, R199. -/
  errors : Sparse Nat
  jobsDone : Sparse Nat
  firstErr : Sparse Nat
  /-- restarts in the interval starting at the count, R199. -/
  restarts : Count × Nat
  /-- jobs in progress, R182. -/
  jobs : List SynthJob
  /-- tiles whose pinned entry became stale, extent and tile: the next entry at the newest tag is pinned
  in its place, R189. -/
  repin : List (Nat × Nat)
  deriving DecidableEq, Repr

/-- SPR block and the Ladle (R201 to R219). -/
structure SprBlk where
  /-- CORE_RETIRED_NEW, RETRY_LIMIT, RCP_ERR, PACED_FULL of SPR_STATUS; reset clear. -/
  retiredNew : Bool
  retryLimit : Bool
  rcpErr : Bool
  pacedFull : Bool
  /-- 32; SPR_RETRIES; reset 0. -/
  retries : Nat
  /-- 32; SPR_CORE_SEL and its snapshot; reset 0. -/
  coreSel : Reg32
  coreStatus : Reg64
  /-- 32; SPR_RCP_SEL; reset 0. -/
  rcpSel : Reg32
  /-- load buffer of SPR_RCP_IMAGE by word; reset 0. -/
  buf : Sparse Reg32
  /-- loaded slots 16–63: image words, R203; reset none. -/
  slots : Sparse (Sparse Reg32)
  /-- 64 each; SPR_RCP_ALLOW by slot; reset all ones. -/
  allow : Sparse Reg64
  /-- retired physical cores in order, from the life record, and how many they were at start-up, R202. -/
  retired : List Nat
  boot : Nat
  /-- errors by core, R219; first error within 1 s, R216. -/
  errors : Sparse Nat
  firstErr : Sparse Nat
  restarts : Count × Nat
  /-- cores whose batch is being restarted, R216. -/
  restarting : List Nat
  deriving DecidableEq, Repr

/-- A GDDR7 channel (R107 to R126, R292). -/
structure Chan where
  /-- STATE and SWEEP of DRM_CH_STATUS. -/
  st : Nat
  sweep : Nat
  /-- slices run in the current step, R119. -/
  slices : Nat
  owed : Nat
  ahead : Nat
  hot : Bool
  margin : Nat
  escalations : Nat
  retrains : Nat
  linkRetries : Nat
  forced : Nat
  lastChange : Count
  /-- counts at which escalations of the last 24 h started, oldest first, R120. -/
  escStarts : List Count
  /-- link-check failures in the interval that starts at the count, R119. -/
  linkWindow : Count × Nat
  /-- start of the last retraining pause or sweep slice, and of the last forced train, R116. -/
  lastMaint : Count
  lastTrain : Count
  /-- chunk positions still to be copied to their slots, rising, R121. -/
  todo : List Nat
  /-- count at which the next refresh falls due, R114. -/
  due : Count
  /-- start of the last sweep slice, R119. -/
  lastSlice : Count
  /-- open row by bank, R111. -/
  rows : Sparse Nat
  /-- chunk copied whose switch count is fixed: position, count, R121. -/
  copied : Option (Nat × Count)
  /-- chunks switched, R121. -/
  switched : Nat
  /-- failed reads in the interval while EVACUATING, R122. -/
  readFails : Count × Nat
  /-- LEVEL, OVERFLOWS, HARD of INT_CH_BUCKET, R292; hard lines of the pass under way, R306. -/
  bucket : Nat
  overflows : Nat
  hard : Nat
  hardNow : Nat
  /-- filter of the 64 most recent corrections: line, positions, R292. -/
  filter : List (Nat × List Nat)
  deriving DecidableEq, Repr

/-- A channel in NORMAL with nothing counted. -/
def Chan.init : Chan :=
  { st := 0, sweep := 0, slices := 0, owed := 0, ahead := 0, hot := false, margin := 0,
    escalations := 0, retrains := 0, linkRetries := 0, forced := 0, lastChange := 0,
    escStarts := [], linkWindow := (0, 0), lastMaint := 0, lastTrain := 0, todo := [], due := 0, lastSlice := 0, rows := [],
    copied := none, switched := 0, readFails := (0, 0), bucket := 0, overflows := 0, hard := 0,
    hardNow := 0, filter := [] }

/-- DRM block (R107 to R126). -/
structure DrmBlk where
  /-- 32; DRM_CTRL; reset 0x1088. -/
  ctrl : Reg32
  /-- RETIRED_NEW, RESERVE_EMPTY, DATA_LOST of DRM_STATUS; reset clear. -/
  retiredNew : Bool
  reserveEmpty : Bool
  dataLost : Bool
  /-- channels retired, in order; those among them that the life record holds, R121, R123. -/
  retired : List Nat
  recorded : List Nat
  /-- check-line cache: check line 128 × frame + offset and whether it is to be written back, last used first, R110. -/
  checks : List (Nat × Bool)
  /-- 32; DRM_CH_SEL and its snapshots; reset 0. -/
  chSel : Reg32
  chStatus : Reg64
  chCounts : Reg64
  chLast : Reg64
  /-- 32 each; DRM_PORT_TARGET[0–11]; reset 0x3E8. -/
  target : Sparse Reg32
  /-- 32 each; DRM_PORT_LATE[0–11]; reset 0. -/
  late : Sparse Nat
  /-- channels by number; reset NORMAL. -/
  chans : Sparse Chan
  deriving DecidableEq, Repr

/-- A flash die (R127, R134). -/
structure Die where
  /-- 0 NORMAL, 1 REBUILDING, 2 RETIRED. -/
  st : Nat
  badBlocks : Nat
  recon : Nat
  /-- counts of the block retirements of the last 24 h and of the reconstructions of the last second, R134. -/
  blockTimes : List Count
  reconTimes : List Count
  /-- retired blocks, R134; from the life record. -/
  bad : List Nat
  deriving DecidableEq, Repr

/-- A die in NORMAL. -/
def Die.init : Die :=
  { st := 0, badBlocks := 0, recon := 0, blockTimes := [], reconTimes := [], bad := [] }

/-- FLS block (R127 to R151). -/
structure FlsBlk where
  /-- 32; FLS_CTRL; reset 0x1320. -/
  ctrl : Reg32
  /-- DIE_RETIRED_NEW, DATA_LOST, ENDURANCE_WARN, HOLDUP_LOW, UNCLEAN_SHUTDOWN; reset clear. -/
  retiredNew : Bool
  dataLost : Bool
  warn : Bool
  holdupLow : Bool
  unclean : Bool
  /-- 64; FLS_HOST_PROGRAMMED, FLS_NAND_PROGRAMMED, from the life record; DESIGN CHOICE 0 (8). -/
  hostProg : Nat
  nandProg : Nat
  /-- 32; FLS_HOLDUP; reset 0. -/
  holdup : Nat
  /-- 32; FLS_DIE_SEL and its snapshot; reset 0. -/
  dieSel : Reg32
  dieStatus : Reg64
  /-- dies by number; retired ones from the life record. -/
  dies : Sparse Die
  /-- page images and map entries; reset none (8). -/
  images : List Image
  programs : List Program
  nextProg : Nat
  /-- stripe rows in use, R128; reset none. -/
  stripes : List Stripe
  /-- next row of each group, R128; reset 0. -/
  rowNext : Sparse Nat
  /-- switches programmed into the map journal whose map pages are not programmed yet, extent and page, R131. -/
  journal : List (Nat × Nat)
  /-- map pages in the on-die map cache, extent and page of 1,024 entries, last used first, R130; reset none. -/
  mapCache : List (Nat × Nat)
  /-- map pages loaded at start-up, R466; map loading in progress. -/
  mapCached : Nat
  mapLoading : Bool
  deriving DecidableEq, Repr

/-- INT block and the Gleaner (R287 to R306). -/
structure IntBlk where
  /-- 32; INT_CTRL; reset 0x003C0040. -/
  ctrl : Reg32
  /-- bits 8:2 of INT_STATUS; reset 0. -/
  status : Reg32
  /-- 32; INT_SCRUB; reset 0x18. -/
  scrub : Reg32
  /-- frame and passes of INT_SCRUB_POS; reset 0. -/
  pos : Nat
  passes : Nat
  inPass : Bool
  /-- 64; INT_PASS_START; period of the current pass in hours, R304; reset 0. -/
  passStart : Count
  passPeriod : Nat
  /-- SCRUB_LATE has been set for the current pass, R304. -/
  passLate : Bool
  /-- 64; INT_CE_TOTAL, INT_UE_TOTAL; reset 0. -/
  ce : Nat
  ue : Nat
  /-- 32; INT_HARD_LINES, INT_ADDR_FAULTS, INT_PARITY (two halves), INT_PARTIAL_WRITES; reset 0. -/
  hard : Nat
  addrFaults : Nat
  parityReread : Nat
  parityPoison : Nat
  partials : Nat
  /-- 32; INT_REREAD_SKIPPED; reset 0. -/
  skipped : Nat
  /-- 32; INT_CH_SEL and its snapshot; reset 0. -/
  chSel : Reg32
  chBucket : Reg64
  /-- 64; INT_LAST_UE, INT_LAST_UE_CC; reset 0. -/
  lastUe : Reg64
  lastUeCc : Count
  /-- second reads in the interval, R295. -/
  rereads : Count × Nat
  /-- last leak count, R292. -/
  lastLeak : Count
  deriving DecidableEq, Repr

/-- FLT block (R307 to R325). -/
structure FltBlk where
  /-- 32; FLT_CTRL; reset 3. -/
  ctrl : Reg32
  /-- LAST_RESET; reset: the cause. -/
  lastReset : Nat
  /-- SRAM_HARD, STATE_LOST, ALLOT_FAULTED, PLOG_WRAPPED; reset clear. -/
  sramHard : Bool
  stateLost : Bool
  allotFaulted : Bool
  plogWrapped : Bool
  /-- part fault log: the last 64 entries, newest first, and the total, R314; reset empty. -/
  plog : List LogEntry
  plogTotal : Nat
  /-- SRAM parity errors by structure and index: the counts of the last 24 h, R311. -/
  sram : List (Nat × Nat × List Count)
  deriving DecidableEq, Repr

/-- A record of the replay log: its bytes in units of 32 B (R336). -/
structure LogRec where
  off : Nat
  type : Nat
  flags : Nat
  allot : Nat
  queue : Nat
  stamp : Count
  seq : Nat
  detail : BitVec 64
  pkt : Packet
  /-- units of 32 B. -/
  len : Nat
  /-- N of the recorded command. -/
  n : Nat
  deriving DecidableEq, Repr

/-- DET block (R326 to R341). -/
structure DetBlk where
  /-- 32; DET_CTRL; reset 0x1800. -/
  ctrl : Reg32
  /-- OVERRUN, LOG_WRAPPED, LOG_FULL, REPLAY_SKIPPED, UNSYNCED_LAUNCH, COPY_DONE, COPY_ERR. -/
  overrun : Bool
  wrapped : Bool
  full : Bool
  skippedBit : Bool
  unsynced : Bool
  copyDone : Bool
  copyErr : Bool
  /-- 64; DET_REC_MASK; reset all ones. -/
  mask : Reg64
  /-- 64; DET_CONFIG_DIGEST; reset 0. -/
  digest : Reg64
  /-- 64; DET_LOG_HEAD, DET_LOG_TAIL, DET_LOG_RECORDS, from the life record; DESIGN CHOICE 0 (8). -/
  head : Nat
  tail : Nat
  records : Nat
  /-- 32; DET_GAPS, DET_REPLAY_SKIPPED; reset 0. -/
  gaps : Nat
  skipped : Nat
  /-- records discarded since the last GAP record. -/
  gapOpen : Nat
  /-- 64; DET_REPLAY_POS; reset 0. -/
  replayPos : Count
  /-- 64; DET_COPY_SRC, DET_COPY_DST; 32; DET_COPY_LEN; reset 0. -/
  copySrc : Reg64
  copyDst : Reg64
  copyLen : Reg32
  /-- a copy in progress: source, destination, length in bytes. -/
  copying : Option (Nat × Nat × Nat)
  /-- the log's records and the bytes still in the on-die buffer, R335. -/
  log : List LogRec
  buffered : Nat
  /-- armed replay: records left and shift; R339, R340. -/
  replay : Option (List LogRec × Nat)
  deriving DecidableEq, Repr

/-- EP block (R342 to R367). -/
structure EpBlk where
  /-- 32; EP_CTRL; reset 1. -/
  ctrl : Reg32
  /-- PART_LOW_POWER, IDE_FAIL, LINK_CHANGE of EP_STATUS; reset clear. -/
  lowPower : Bool
  ideFail : Bool
  linkChange : Bool
  /-- 32; EP_PORT_MODE, from the configuration record. -/
  portMode : Reg32
  /-- 32; EP_PORT_SEL, EP_LD_SEL and their snapshots; reset 0. -/
  portSel : Reg32
  portStatus : Reg64
  ldSel : Reg32
  ldStatus : Reg64
  devload : Reg64
  /-- host ports by number. -/
  ports : Sparse HostPort
  /-- logical devices by 16 × port + LD-ID. -/
  lds : Sparse Ld
  /-- leaving the low-power state, R362. -/
  exiting : Bool
  deriving DecidableEq, Repr

/-- A Tamian request sent and waiting for its reply (R373). -/
structure TamWait where
  tag : Nat
  type : Nat
  dst : Nat
  ext : Nat
  page : Nat
  cmd : Option Nat
  at_ : Count
  deriving DecidableEq, Repr

/-- TAM block (R368 to R389). -/
structure TamBlk where
  /-- 32; TAM_CTRL; reset 0x000F0100. -/
  ctrl : Reg32
  /-- 32; TAM_STATUS; reset 0. -/
  status : Reg32
  /-- 32; TAM_ID, from the configuration record. -/
  id : Reg32
  /-- STATE of TAM_PAIR; reset 0. -/
  pair : Nat
  /-- 32; TAM_PORT_SEL and its snapshot; reset 0. -/
  portSel : Reg32
  portStatus : Reg64
  /-- 32 + 32; TAM_RESILVER: pages sent and remaining; reset 0. -/
  resSent : Nat
  resLeft : List Nat
  /-- 64; TAM_PAGES_IN, TAM_WIRE_IN; reset 0. -/
  pagesIn : Nat
  wireIn : Nat
  /-- 32 each; TAM_ROUTE[0–63]; 64 each; TAM_EXPORT[0–255]; reset 0. -/
  route : Sparse Reg32
  export_ : Sparse Reg64
  ports : Sparse TamPort
  /-- requests without a reply, R373. -/
  waits : List TamWait
  nextTag : Nat
  /-- PAGE_READs that wait for one of the 256 places of their port, R380; reset none. -/
  held : List TamMsg
  /-- unanswered CLOSE_REMOTEs: proxy extent, R378. -/
  closing : List Nat
  /-- count of the last HEARTBEAT received, R385. -/
  lastBeat : Count
  /-- counts at which HEARTBEAT was last sent (R385) and ECHO on every port (R381); reset 0. -/
  beatAt : Count
  echoAt : Count
  /-- mirrored writes not yet confirmed: tag and waiting request, R383. -/
  mirrors : List (Nat × Nat)
  /-- pages written to flash while SOLO, R387. -/
  bitmap : List (Nat × Nat)
  /-- rates of the partner's latest plan, R441; reset none. -/
  peerRates : List Nat
  deriving DecidableEq, Repr

/-- A key slot (R405). -/
structure KeySlot where
  loaded : Bool
  assign : Reg64
  key : BitVec 256
  deriving DecidableEq, Repr

/-- SEC block (R390 to R412). -/
structure SecBlk where
  /-- bits of SEC_STATUS set by boot; reset 0. -/
  recovery : Bool
  pufOk : Bool
  owned : Bool
  cfgValid : Bool
  fwRejected : Bool
  erasePending : Bool
  slotErr : Bool
  /-- 32; SEC_FW_VERSION, SEC_FW_SVN, SEC_ROM_REV is silicon. -/
  fwVersion : Reg32
  svn : Reg32
  /-- flash boot region: image and candidate bytes, R392, R394. -/
  image : Bytes
  candidate : Bytes
  /-- 64; SEC_CFG_SEQ; record in force and record accepted for the next reset, R403. -/
  cfgSeq : Reg64
  record : Bytes
  nextRecord : Bytes
  /-- highest sequence accepted and enrolled owner hashes, R403. -/
  ownerRsa : BitVec 384
  ownerSlh : BitVec 384
  /-- CFG_ACCEPTED and CFG_REASON; reset 0. -/
  cfgAccepted : Bool
  cfgReason : Nat
  /-- SEC_CFG_BUF and pieces over the management bus: bytes; reset 0. -/
  cfgBuf : Sparse Byte
  busBuf : Sparse Byte
  /-- 32; SEC_SLOT_SEL and its snapshots; reset 0. -/
  slotSel : Reg32
  slotAssign : Reg64
  slotStatus : Reg32
  /-- key slots by number, from the system area. -/
  slots : Sparse KeySlot
  /-- wrapped copies in the system area: slot keys by slot and nonces by extent, R396, R408. -/
  wrapped : Sparse (BitVec 320)
  nonces : Sparse (BitVec 320)
  /-- 32; SEC_RCV_LEN; SEC_RCV_STATUS; recovery window bytes; reset 0. -/
  rcvLen : Reg32
  rcvStatus : Nat
  window : Sparse Byte
  /-- next handle, R406. -/
  nextHandle : Nat
  /-- bytes 0–191 of the signed device record, formed at start-up, R355; reset none. -/
  device : Bytes
  deriving DecidableEq, Repr

/-- A power domain (R413, R426, R427). -/
structure Domain where
  setpoint : Nat
  junction : Nat
  peak : Nat
  /-- DRIFT, RAISE, REF_PACE of AGE_DOM_STATUS, from the life record. -/
  drift : BitVec 16
  raise : Nat
  refPace : Nat
  deriving DecidableEq, Repr

/-- A domain without power. -/
def Domain.init : Domain :=
  { setpoint := 0, junction := 0, peak := 0, drift := 0, raise := 0, refPace := 4096 }

/-- PWR, AGE and the life record (R413 to R427). -/
structure PwrBlk where
  /-- 32; PWR_CTRL; reset 0x00645F01. -/
  ctrl : Reg32
  /-- THERM_WARN, THERM_TRIPPED, INPUT_LOW, INPUT_HIGH, CAP_NEAR; reset clear. -/
  thermWarn : Bool
  tripped : Bool
  inputLow : Bool
  inputHigh : Bool
  capNear : Bool
  /-- the hottest domain was at or above WARN_C at the last sample, R419. -/
  warm : Bool
  /-- 32; PWR_INPUT, PWR_COOLANT; reset 0. -/
  input : Reg32
  coolant : Reg32
  /-- 32; PWR_DOM_SEL and its snapshot; reset 0. -/
  domSel : Reg32
  domStatus : Reg64
  domains : Sparse Domain
  /-- level in force, from the life record, R417. -/
  level : Nat
  /-- 32; AGE_CTRL; reset 0x141E. -/
  ageCtrl : Reg32
  /-- REPLANNING, REPLAN_DONE, VMAX_REACHED, CAL_VALID, CAL_LOST; reset clear. -/
  replanning : Bool
  replanDone : Bool
  vmax : Bool
  calValid : Bool
  calLost : Bool
  /-- commands that a running re-plan completes. -/
  replanCmds : List Nat
  /-- 32; AGE_DOM_SEL and its snapshot; reset 0. -/
  ageSel : Reg32
  ageStatus : Reg64
  /-- 64; AGE_LAST_REPLAN, LIFE_POWER_ON (seconds and CC of a second), LIFE_STARTUPS; life record. -/
  lastReplan : Nat
  powerOnBase : Nat
  powerOnSince : Option Count
  startups : Nat
  /-- calendar: value, and the count at which it was set or, without CAL_VALID, the power-on second from which it
  goes on, R425. -/
  calendar : Nat
  calendarAt : Count
  /-- the calendar in the last summary, R424, R425. -/
  calSaved : Nat
  /-- summaries written, and the power-on second of the last one, R424; main power present. -/
  summaries : Nat
  summaryAt : Nat
  main : Bool
  deriving DecidableEq, Repr

/-- An injection armed with STORED = 0 (R434, R437). -/
structure Armed where
  /-- 0 symbols of a line, 1 length of a block. -/
  kind : Nat
  line : Nat
  first : Nat
  count : Nat
  hash : Bool
  deriving DecidableEq, Repr

/-- PRT block (R428 to R438). -/
structure PrtBlk where
  /-- OPEN of PRT_CTRL; reset 0. -/
  isOpen : Bool
  /-- INJECT_DONE, SET_ERR of PRT_STATUS; reset clear. -/
  injectDone : Bool
  setErr : Bool
  /-- 32; PRT_CHANGES; two halves of PRT_INJECTED; reset 0. -/
  changes : Nat
  symInj : Nat
  codInj : Nat
  /-- 384; PRT_DIGEST, R429; reset 0. -/
  digest : BitVec 384
  /-- 32 each; PRT_GATE_DELAY[0–11], PRT_STAGE[0–31]; reset 0. -/
  gate : Sparse Reg32
  stage : Sparse Reg32
  /-- 32; PRT_SYM_LINE, PRT_SYM_CTRL; reset 0. -/
  symLine : Reg32
  symCtrl : Reg32
  armed : List Armed
  /-- retraining pauses added by PRT_RETRAIN, R435. -/
  pauses : List Nat
  deriving DecidableEq, Repr

/-- GEN block and the pins (R450 to R467). -/
structure GenBlk where
  /-- 3; PHASE of GEN_STATUS, R461, R467; reset 1 (BOOT_ROM). -/
  phase : Nat
  late : Bool
  /-- 3; MGMT_ADDR, strap; DESIGN CHOICE 0 (7). -/
  addr : BitVec 3
  /-- 64; GEN_PWRGOOD_CC, GEN_READY_CC; reset 0. -/
  pwrGoodCc : Count
  readyCc : Count
  /-- pins: PWR_GOOD, WAKE#, THERM_TRIP#, MOD_RST# (R450); reset low, and inactive. -/
  pwrGood : Bool
  wake : Bool
  thermTrip : Bool
  modRst : Bool
  /-- the always-on island has power, R27; the main conversion stage runs, R451. -/
  aux : Bool
  conv : Bool
  /-- a whole-part reset waits for its release: cause, R419, R453. -/
  held : Option Nat
  deriving DecidableEq, Repr

/-- Registers and tables whose values govern requests and commands as they stood before the writes stamped at the
present count (R472). -/
structure Governed where
  /-- COL_CLASS, COL_LDCLASS and COL_BUDGET, R220, R224. -/
  cls : Sparse Reg32
  ldClass : Sparse Reg32
  budget : Sparse Reg32
  /-- DET_CTRL, R327, R328; DET_REC_MASK, R334. -/
  det : Reg32
  mask : Reg64
  /-- COD_GRANT_TABLE and the loaded code tables, R153, R156. -/
  grantTable : Reg32
  tables : Sparse (Bool × Sparse Nat)
  /-- MXE_DESC, R177. -/
  desc : Sparse Reg64
  /-- recipe slots and SPR_RCP_ALLOW, R203, R205. -/
  recipes : Sparse (Sparse Reg32)
  allow : Sparse Reg64
  /-- DIR_CTRL, R77; EXT_HINT, R80. -/
  floor : Reg32
  hint : Sparse Reg32
  /-- RW1C bits that are set, by the register's offset in management BAR0. -/
  flags : Sparse Reg32
  deriving DecidableEq, Repr

/-- What arrived with a stamp that other requests may share while ORDERED is 1 (R328, R329). -/
inductive Arrival where
  /-- a load, store or peer request, translated. -/
  | host (r : HostReq)
  /-- a packet of a queue, with whether its SEQ was the expected one. -/
  | packet (p : Packet) (seqOk : Bool)
  /-- a publish of another part, which ranks after the local ones of its stamp (R376); `quiet` where the LEAD answers. -/
  | publish (m : TamMsg) (quiet : Bool)
  deriving DecidableEq, Repr

/-- A request of an ordered tie, which waits for requests of the same stamp (R326, R329). -/
structure Tie where
  /-- the sequencing key: E, A, Q and N. -/
  stamp : Count
  allot : Nat
  lane : Nat
  n : Nat
  what : Arrival
  env : ReadEnv
  /-- what governs it, R472. -/
  gov : Governed
  deriving DecidableEq, Repr

/-- The machine. -/
structure State where
  /-- commands that wait, first in, first out. -/
  pending : List Instr
  /-- outputs of the latest command. -/
  out : List Out
  cc : CcBlk
  plan : PlanBlk
  col : ColBlk
  dir : DirBlk
  ext : ExtBlk
  cod : CodBlk
  mxe : MxeBlk
  spr : SprBlk
  drm : DrmBlk
  fls : FlsBlk
  int : IntBlk
  flt : FltBlk
  det : DetBlk
  ep : EpBlk
  tam : TamBlk
  sec : SecBlk
  pwr : PwrBlk
  prt : PrtBlk
  gen : GenBlk
  /-- 4,096 queue pairs, R238. -/
  queues : Sparse Queue
  /-- 64 allotments, R54. -/
  allots : Sparse Allot
  /-- admitted, incomplete commands in order of admission. -/
  cmds : List Cmd
  nextCmd : Nat
  /-- requests that wait, in stamp order. -/
  waiting : List HostReq
  nextReq : Nat
  /-- requests of ordered ties, R329. -/
  ties : List Tie
  /-- what governs requests of the present count, R472. -/
  old : Governed
  /-- what reads of low halves have latched of RO 64-bit registers, R53, R471, and of log entries, R471: by allotment
  whose BAR0 was read, times 2^32, plus the offset in management BAR0. -/
  readHigh : Sparse Reg32
  readLog : Sparse (BitVec 256)
  /-- pending low halves of 64-bit registers: offset and value, R9. -/
  lowHalf : Sparse Reg32
  /-- low half last written of each WO 64-bit register, R9; reset 0. -/
  woLow : Sparse Reg32
  /-- the model's own: index of the next free value (5). -/
  free : Nat
  deriving DecidableEq, Repr

/-- Reset values of the blocks, block by block (R468, R470). -/
def CcBlk.init : CcBlk :=
  { now := 0, running := false, onRef := false, syncValue := 0, ctrl := 0, status := 0, lastSync := 0,
    syncOffset := 0, slew := 0, slewTick := 0, measured := [] }

@[inherit_doc CcBlk.init] def PlanBlk.init : PlanBlk :=
  { cur := Plan.none, pend := none, last := 0, meas := ⟨[], []⟩, cutAt := [],
    versions := [], heldLevel := none, stepping := false, holdup := 0 }

@[inherit_doc CcBlk.init] def ColBlk.init : ColBlk :=
  { ctrl := 0xFA, budgetErr := false, classErr := false, cutDone := false, refusedLate := 0,
    demoted := 0, meter := 0, cls := [], ldClass := [], budget := [], ls := [], cmd := [],
    resSel := 0, resRate := List.replicate 9 0, resHorizon := List.replicate 9 0,
    pool := List.replicate 9 0, res := [] }

@[inherit_doc CcBlk.init] def DirBlk.init : DirBlk :=
  { ctrl := 8, status := 0, sel := 0, entry := 0, frames := [], gone := [], rr := 0, staging := [], merge := [],
    clock := 0, wipes := 0, hint := [] }

@[inherit_doc CcBlk.init] def ExtBlk.init : ExtBlk :=
  { tbl := [], ctrl := 0x401, status := 0, sel := 0, extent := 0, view := 0, oldest := 0,
    retainHigh := false }

@[inherit_doc CcBlk.init] def CodBlk.init : CodBlk :=
  { ctrl := 0x3E8, status := 0, grantTable := 0, damaged := 0, skipped := 0, fxrNan := 0, tblSel := 0,
    elem := false, buf := [], slots := [], extSel := 0, extTable := 0, extBlocks := 0, extLines := 0,
    rereads := (0, 0) }

@[inherit_doc CcBlk.init] def MxeBlk.init : MxeBlk :=
  { ctrl := 8, retiredNew := false, missWait := false, retryLimit := false, missWaits := 0,
    retries := 0, uncached := 0, tiles := 0, hits := 0, engSel := 0, engStatus := 0, compSel := 0,
    compTiles := 0, desc := [], retired := [], boot := 0, bufs := [], outs := [], want := [], errors := [], jobsDone := [], firstErr := [],
    restarts := (0, 0), jobs := [], repin := [] }

@[inherit_doc CcBlk.init] def SprBlk.init : SprBlk :=
  { retiredNew := false, retryLimit := false, rcpErr := false, pacedFull := false, retries := 0,
    coreSel := 0, coreStatus := 0, rcpSel := 0, buf := [], slots := [], allow := [], retired := [], boot := 0,
    errors := [], firstErr := [], restarts := (0, 0), restarting := [] }

@[inherit_doc CcBlk.init] def DrmBlk.init : DrmBlk :=
  { ctrl := 0x1088, retiredNew := false, reserveEmpty := false, dataLost := false, retired := [], recorded := [], checks := [],
    chSel := 0, chStatus := 0, chCounts := 0, chLast := 0, target := [], late := [], chans := [] }

@[inherit_doc CcBlk.init] def FlsBlk.init : FlsBlk :=
  { ctrl := 0x1320, retiredNew := false, dataLost := false, warn := false, holdupLow := false,
    unclean := false, hostProg := 0, nandProg := 0, holdup := 0, dieSel := 0, dieStatus := 0,
    dies := [], images := [], programs := [], nextProg := 0, stripes := [], rowNext := [], journal := [], mapCache := [], mapCached := 0,
    mapLoading := false }

@[inherit_doc CcBlk.init] def IntBlk.init : IntBlk :=
  { ctrl := 0x003C0040, status := 0, scrub := 0x18, pos := 0, passes := 0, inPass := false,
    passStart := 0, passPeriod := 24, passLate := false, ce := 0, ue := 0, hard := 0, addrFaults := 0,
    parityReread := 0, parityPoison := 0, partials := 0, skipped := 0, chSel := 0, chBucket := 0,
    lastUe := 0, lastUeCc := 0, rereads := (0, 0), lastLeak := 0 }

@[inherit_doc CcBlk.init] def FltBlk.init : FltBlk :=
  { ctrl := 3, lastReset := 0, sramHard := false, stateLost := false, allotFaulted := false,
    plogWrapped := false, plog := [], plogTotal := 0, sram := [] }

@[inherit_doc CcBlk.init] def DetBlk.init : DetBlk :=
  { ctrl := 0x1800, overrun := false, wrapped := false, full := false, skippedBit := false,
    unsynced := false, copyDone := false, copyErr := false, mask := BitVec.allOnes 64, digest := 0,
    head := 0, tail := 0, records := 0, gaps := 0, skipped := 0, gapOpen := 0, replayPos := 0,
    copySrc := 0, copyDst := 0, copyLen := 0, copying := none, log := [], buffered := 0,
    replay := none }

@[inherit_doc CcBlk.init] def EpBlk.init : EpBlk :=
  { ctrl := 1, lowPower := false, ideFail := false, linkChange := false, portMode := 0, portSel := 0,
    portStatus := 0, ldSel := 0, ldStatus := 0, devload := 0, ports := [], lds := [],
    exiting := false }

@[inherit_doc CcBlk.init] def TamBlk.init : TamBlk :=
  { ctrl := 0x000F0100, status := 0, id := 0, pair := 0, portSel := 0, portStatus := 0, resSent := 0,
    resLeft := [], pagesIn := 0, wireIn := 0, route := [], export_ := [], ports := [], waits := [],
    nextTag := 0, held := [], closing := [], lastBeat := 0, beatAt := 0, echoAt := 0, mirrors := [], bitmap := [], peerRates := [] }

@[inherit_doc CcBlk.init] def SecBlk.init : SecBlk :=
  { recovery := false, pufOk := false, owned := false, cfgValid := false, fwRejected := false,
    erasePending := false, slotErr := false, fwVersion := 0, svn := 0, image := [], candidate := [],
    cfgSeq := 0, record := [], nextRecord := [], ownerRsa := 0, ownerSlh := 0, cfgAccepted := false,
    cfgReason := 0, cfgBuf := [], busBuf := [], slotSel := 0, slotAssign := 0, slotStatus := 0,
    slots := [], wrapped := [], nonces := [], rcvLen := 0, rcvStatus := 0, window := [], nextHandle := 1, device := [] }

@[inherit_doc CcBlk.init] def PwrBlk.init : PwrBlk :=
  { ctrl := 0x00645F01, thermWarn := false, tripped := false, inputLow := false, inputHigh := false,
    capNear := false, warm := false, input := 0, coolant := 0, domSel := 0, domStatus := 0,
    domains := [], level := 0, ageCtrl := 0x141E, replanning := false, replanDone := false,
    vmax := false, calValid := false, calLost := false, replanCmds := [], ageSel := 0,
    ageStatus := 0, lastReplan := 0, powerOnBase := 0, powerOnSince := none, startups := 0,
    calendar := 0, calendarAt := 0, calSaved := 0, summaries := 0, summaryAt := 0, main := false }

@[inherit_doc CcBlk.init] def PrtBlk.init : PrtBlk :=
  { isOpen := false, injectDone := false, setErr := false, changes := 0, symInj := 0, codInj := 0,
    digest := 0, gate := [], stage := [], symLine := 0, symCtrl := 0, armed := [], pauses := [] }

@[inherit_doc CcBlk.init] def GenBlk.init : GenBlk :=
  { phase := 1, late := false, addr := 0, pwrGoodCc := 0, readyCc := 0, pwrGood := false,
    wake := false, thermTrip := false, modRst := false, aux := false, conv := false, held := none }

@[inherit_doc CcBlk.init] def Governed.init : Governed :=
  { cls := [], ldClass := [], budget := [], det := 0x1800, mask := BitVec.allOnes 64, grantTable := 0, tables := [],
    desc := [], recipes := [], allow := [], floor := 8, hint := [], flags := [] }

/-- Allotment 0 as reset leaves it: bound to function 0 of H0 and ACTIVE (R55, R84). -/
def Allot.init0 : Allot := { Allot.init with bind := 0x100, state := 1 }

/-- The machine right after reset: every register at its reset value, nothing powered, nothing
queued. -/
def State.reset : State :=
  { pending := [], out := [], cc := .init, plan := .init, col := .init, dir := .init, ext := .init,
    cod := .init, mxe := .init, spr := .init, drm := .init, fls := .init, int := .init, flt := .init,
    det := .init, ep := .init, tam := .init, sec := .init, pwr := .init, prt := .init, gen := .init,
    queues := [], allots := [(0, Allot.init0)], cmds := [], nextCmd := 0, waiting := [], nextReq := 0,
    ties := [], old := .init, readHigh := [], readLog := [], lowHalf := [], woLow := [], free := 0 }

end Sys2Proof.Machine
end

