-- ==== Sys2Proof/Machine/Ops.lean ====
section
/-! DEFINITION. The named operations every meaning uses: sparse arrays, bit fields, the count, the
logs, events, interrupts and the accessors of the state's tables. -/

namespace Sys2Proof.Machine

open Sys2Proof

/-! ### Sparse arrays in canonical form -/

/-- Entry `k`, or the default. -/
def sget {α : Type} (d : α) : Sparse α → Nat → α
  | [], _ => d
  | (i, v) :: m, k => if i = k then v else if k < i then d else sget d m k

/-- Set entry `k`; an entry equal to the default is not listed. -/
def sput {α : Type} [DecidableEq α] (d : α) : Sparse α → Nat → α → Sparse α
  | [], k, v => if v = d then [] else [(k, v)]
  | (i, w) :: m, k, v =>
    if k < i then (if v = d then (i, w) :: m else (k, v) :: (i, w) :: m)
    else if k = i then (if v = d then m else (i, v) :: m)
    else (i, w) :: sput d m k v

/-- An optional entry. -/
def sfind {α : Type} : Sparse α → Nat → Option α
  | [], _ => none
  | (i, v) :: m, k => if i = k then some v else if k < i then none else sfind m k

/-- Insert or replace an entry. -/
def sins {α : Type} : Sparse α → Nat → α → Sparse α
  | [], k, v => [(k, v)]
  | (i, w) :: m, k, v =>
    if k < i then (k, v) :: (i, w) :: m else if k = i then (i, v) :: m else (i, w) :: sins m k v

/-- Remove an entry. -/
def sdel {α : Type} : Sparse α → Nat → Sparse α
  | [], _ => []
  | (i, v) :: m, k => if i = k then m else if k < i then (i, v) :: m else (i, v) :: sdel m k

/-- The canonical form: keys strictly rise. -/
def swf {α : Type} : Sparse α → Bool
  | [] => true
  | [_] => true
  | (i, _) :: (j, w) :: m => decide (i < j) && swf ((j, w) :: m)

/-- Element `i` of a list of numbers, 0 beyond its end. -/
def nth (l : List Nat) (i : Nat) : Nat := l.getD i 0

/-- Replace element `i` of a list. -/
def setNth {α : Type} : List α → Nat → α → List α
  | [], _, _ => []
  | _ :: l, 0, v => v :: l
  | x :: l, i + 1, v => x :: setNth l i v

/-- Sum of a list of numbers. -/
def sumN (l : List Nat) : Nat := l.foldl (· + ·) 0

/-- Largest of a list of numbers, at least `a`. -/
def maxN (a : Nat) (l : List Nat) : Nat := l.foldl Nat.max a

/-- Division rounded up (0 for a zero divisor). -/
def ceilDiv (a b : Nat) : Nat := if b = 0 then 0 else (a + b - 1) / b

/-! ### Bit fields (R3, R4) -/

/-- Field of `n` bits from bit `lo`. -/
def fld {w : Nat} (v : BitVec w) (lo n : Nat) : Nat := (v.toNat >>> lo) % 2 ^ n

/-- One bit. -/
def bitOf {w : Nat} (v : BitVec w) (i : Nat) : Bool := v.getLsbD i

/-- A field of a number under construction. -/
def at_ (lo n v : Nat) : Nat := (v % 2 ^ n) <<< lo

/-- A bit of a number under construction. -/
def atB (lo : Nat) (b : Bool) : Nat := if b then 1 <<< lo else 0

/-- Replace the field of `n` bits at `lo`. -/
def setFld {w : Nat} (v : BitVec w) (lo n x : Nat) : BitVec w :=
  let m := BitVec.ofNat w ((2 ^ n - 1) <<< lo)
  (v &&& ~~~m) ||| BitVec.ofNat w (at_ lo n x)

/-- Set or clear one bit. -/
def setBit {w : Nat} (v : BitVec w) (i : Nat) (b : Bool) : BitVec w := setFld v i 1 (cond b 1 0)

/-- A two's-complement number in `w` bits. -/
def sint (w : Nat) (x : Int) : BitVec w := BitVec.ofInt w x

/-- Add with saturation at `2^w - 1`. -/
def satAdd (w a b : Nat) : Nat := Nat.min (a + b) (2 ^ w - 1)

/-- Byte `i` of a bit vector. -/
def byteOf {w : Nat} (v : BitVec w) (i : Nat) : Byte := BitVec.ofNat 8 (v.toNat >>> (8 * i))

/-- `n` bytes from byte `i`, little-endian. -/
def bytesN {w : Nat} (v : BitVec w) (i n : Nat) : Nat := fld v (8 * i) (8 * n)

/-- The number as `n` little-endian bytes. -/
def leBytes : Nat → Nat → Bytes
  | 0, _ => []
  | n + 1, v => BitVec.ofNat 8 v :: leBytes n (v / 256)

/-- Little-endian number of a byte list. -/
def leNat : Bytes → Nat
  | [] => 0
  | b :: l => b.toNat + 256 * leNat l

/-- Bytes `i` to `i + n - 1` of a byte list as a number. -/
def leAt (l : Bytes) (i n : Nat) : Nat := leNat ((l.drop i).take n)

/-- A sparse byte array as a list of its first `n` bytes. -/
def sbytes (m : Sparse Byte) (n : Nat) : Bytes := (List.range n).map fun i => sget 0 m i

/-! ### The count (R27, R28) -/

/-- Meter cap of 65,536 B in units of 1/16 B (R227). -/
def meterCap : Int := 65536 * 16

/-- RW1C bits of an allotment: of ALT_STATE, ALT_EVT_STATUS and WIN_STATUS (R84, R259, R85). -/
def Allot.flags (n : Nat) (a : Allot) : Sparse Reg32 :=
  [(0x30004 + 0x40 * n, BitVec.ofNat 32 (atB 2 a.bindErr)),
   (0x3002C + 0x40 * n, BitVec.ofNat 32 (atB 1 a.evtPostErr + atB 2 a.evtCfgErr)),
   (0x48010 + 0x20 * n, BitVec.ofNat 32 (atB 1 a.winErr + at_ 16 16 a.winStale.toNat))]

/-- RW1C bits of a queue's QUE_STATUS (R258). -/
def Queue.flags (q : Nat) (v : Queue) : Nat × Reg32 :=
  (0xA0018 + 0x20 * q, BitVec.ofNat 32 (atB 3 v.fetchErr + atB 4 v.postErr + atB 5 v.cfgErr + atB 6 v.assignErr))

/-- RW1C bits of the part-wide blocks, by the register's offset. -/
def State.blockFlags (s : State) : List (Nat × Nat) :=
  [(0x4, atB 3 s.gen.late), (0x10014, (s.cc.status &&& 0xF8).toNat),
   (0x20004, atB 0 s.col.budgetErr + atB 1 s.col.classErr + atB 4 s.col.cutDone),
   (0x50004, s.dir.status.toNat), (0x60004, s.ext.status.toNat), (0x70004, s.cod.status.toNat),
   (0x80004, atB 0 s.mxe.retiredNew + atB 2 s.mxe.missWait + atB 3 s.mxe.retryLimit),
   (0x90000, atB 0 s.spr.retiredNew + atB 2 s.spr.retryLimit + atB 3 s.spr.rcpErr + atB 4 s.spr.pacedFull),
   (0xC0004, atB 1 s.drm.retiredNew + atB 4 s.drm.dataLost),
   (0xD0004, atB 1 s.fls.retiredNew + atB 2 s.fls.dataLost + atB 4 s.fls.warn), (0xE0004, s.int.status.toNat),
   (0xF0004, atB 2 s.flt.sramHard + atB 3 s.flt.stateLost + atB 4 s.flt.allotFaulted + atB 5 s.flt.plogWrapped),
   (0x100004, atB 1 s.det.overrun + atB 2 s.det.wrapped + atB 5 s.det.skippedBit + atB 6 s.det.unsynced +
     atB 7 s.det.copyDone + atB 8 s.det.copyErr),
   (0x110004, atB 1 s.ep.ideFail + atB 2 s.ep.linkChange), (0x120004, s.tam.status.toNat),
   (0x130000, atB 4 s.sec.fwRejected + atB 8 s.sec.slotErr),
   (0x140004, atB 0 s.pwr.thermWarn + atB 2 s.pwr.tripped + atB 3 s.pwr.inputLow + atB 4 s.pwr.inputHigh),
   (0x150004, atB 1 s.pwr.replanDone + atB 2 s.pwr.vmax + atB 4 s.pwr.calLost),
   (0x160004, atB 1 s.prt.injectDone + atB 2 s.prt.setErr)]

/-- The RW1C bits that are set (R7, R472). -/
def State.flagBits (s : State) : Sparse Reg32 :=
  (s.blockFlags.map fun (o, v) => (o, BitVec.ofNat 32 v)) ++ (s.allots.flatMap fun (n, a) => a.flags n) ++
    s.queues.map fun (q, v) => v.flags q

/-- The registers and tables that govern requests, as they stand (R472). -/
def State.governs (s : State) : Governed :=
  { cls := s.col.cls, ldClass := s.col.ldClass, budget := s.col.budget, det := s.det.ctrl, mask := s.det.mask
    grantTable := s.cod.grantTable, tables := s.cod.slots, desc := s.mxe.desc, recipes := s.spr.slots
    allow := s.spr.allow, floor := s.dir.ctrl, hint := s.dir.hint
    flags := s.flagBits }

/-- The count reaches `t`; it never decreases (R28), the meter rises by the allowance (R227), and what governs the
requests of a new count is what the writes before it have left (R472). -/
def State.advance (s : State) (t : Count) : State :=
  if s.cc.running then
    let now := Nat.max s.cc.now t
    let up : Int := (s.plan.cur.allow * (now - s.cc.now) : Nat)
    { s with
      cc := { s.cc with now := now }
      col := { s.col with meter := min meterCap (s.col.meter + up) }
      old := if s.cc.now < now then s.governs else s.old }
  else s

/-- A tick has been held or skipped; SLEWING clears with the last one (R33, R53). -/
def State.slewTo (s : State) (left : Int) : State :=
  { s with cc := { s.cc with
      slewTick := 0, slew := left
      status := if left = 0 then setFld s.cc.status 8 1 0 else s.cc.status } }

/-- One tick with no command in front: the count advances by one when it runs; a slew holds or skips
one tick of each 1,000 (R27, R33). -/
def State.tick (s : State) : State :=
  let s := { s with out := [] }
  if !s.cc.running then s
  else if s.cc.slew = 0 then s.advance (s.cc.now + 1)
  else if s.cc.slewTick < 999 then
    let s := s.advance (s.cc.now + 1)
    { s with cc := { s.cc with slewTick := s.cc.slewTick + 1 } }
  else if s.cc.slew < 0 then s.slewTo (s.cc.slew + 1)
  else (s.advance (s.cc.now + 2)).slewTo (s.cc.slew - 1)

/-- A command begins at count `t`: outputs of the last one are gone. -/
def State.start (s : State) (t : Count) : State := { s.advance t with out := [] }

/-- Emit an output. -/
def State.emit (s : State) (o : Out) : State := { s with out := s.out ++ [o] }

/-- Take a fresh free value (assumption 5). -/
def State.fresh (s : State) : BitVec 512 × State := (Config.freeValue s.free, { s with free := s.free + 1 })

/-- Occurrences within `span` of the newest, `now`, which joins them (R120, R134, R311, R369). -/
def recent (l : List Count) (now span : Count) : List Count := (l.filter fun c => decide (now < c + span)) ++ [now]

/-- 24 h. -/
def dayCc : Count := 86400000000000

/-- Count at `t` is the stamp of what arrives with it. -/
def State.now (s : State) : Count := s.cc.now

/-! ### Tables -/

/-- Allotment `n`. -/
def State.allot (s : State) (n : Nat) : Allot := sget .init s.allots n
/-- Change allotment `n`. -/
def State.setAllot (s : State) (n : Nat) (a : Allot) : State := { s with allots := sput .init s.allots n a }
/-- Apply `f` to allotment `n`. -/
def State.modAllot (s : State) (n : Nat) (f : Allot → Allot) : State := s.setAllot n (f (s.allot n))
/-- Queue `q`. -/
def State.queue (s : State) (q : Nat) : Queue := sget .init s.queues q
/-- Change queue `q`. -/
def State.setQueue (s : State) (q : Nat) (v : Queue) : State := { s with queues := sput .init s.queues q v }
/-- Apply `f` to queue `q`. -/
def State.modQueue (s : State) (q : Nat) (f : Queue → Queue) : State := s.setQueue q (f (s.queue q))
/-- Key of a logical device. -/
def ldKey (port ld : Nat) : Nat := 16 * port + ld
/-- A logical device by key. -/
def State.ld (s : State) (k : Nat) : Ld := sget .init s.ep.lds k
/-- Change a logical device. -/
def State.setLd (s : State) (k : Nat) (v : Ld) : State :=
  { s with ep := { s.ep with lds := sput .init s.ep.lds k v } }
/-- Apply `f` to a logical device. -/
def State.modLd (s : State) (k : Nat) (f : Ld → Ld) : State := s.setLd k (f (s.ld k))
/-- A host port. -/
def State.hport (s : State) (p : Nat) : HostPort := sget .init s.ep.ports p
/-- Apply `f` to a host port. -/
def State.modHport (s : State) (p : Nat) (f : HostPort → HostPort) : State :=
  { s with ep := { s.ep with ports := sput .init s.ep.ports p (f (s.hport p)) } }
/-- A Tamian port. -/
def State.tport (s : State) (p : Nat) : TamPort := sget .init s.tam.ports p
/-- Apply `f` to a Tamian port. -/
def State.modTport (s : State) (p : Nat) (f : TamPort → TamPort) : State :=
  { s with tam := { s.tam with ports := sput .init s.tam.ports p (f (s.tport p)) } }
/-- A channel. -/
def State.chan (s : State) (c : Nat) : Chan := sget .init s.drm.chans c
/-- Apply `f` to a channel. -/
def State.modChan (s : State) (c : Nat) (f : Chan → Chan) : State :=
  { s with drm := { s.drm with chans := sput .init s.drm.chans c (f (s.chan c)) } }
/-- A die. -/
def State.die (s : State) (d : Nat) : Die := sget .init s.fls.dies d
/-- Apply `f` to a die. -/
def State.modDie (s : State) (d : Nat) (f : Die → Die) : State :=
  { s with fls := { s.fls with dies := sput .init s.fls.dies d (f (s.die d)) } }
/-- A power domain. -/
def State.dom (s : State) (d : Nat) : Domain := sget .init s.pwr.domains d
/-- Apply `f` to a domain. -/
def State.modDom (s : State) (d : Nat) (f : Domain → Domain) : State :=
  { s with pwr := { s.pwr with domains := sput .init s.pwr.domains d (f (s.dom d)) } }
/-- An empty key slot. -/
def KeySlot.init : KeySlot := { loaded := false, assign := 0, key := 0 }
/-- A key slot. -/
def State.slot (s : State) (k : Nat) : KeySlot := sget .init s.sec.slots k
/-- Apply `f` to a key slot. -/
def State.modSlot (s : State) (k : Nat) (f : KeySlot → KeySlot) : State :=
  { s with sec := { s.sec with slots := sput .init s.sec.slots k (f (s.slot k)) } }
/-- Extent `e` in use. -/
def State.extent (s : State) (e : Nat) : Option Extent := sfind s.ext.tbl e
/-- Set extent `e`. -/
def State.setExtent (s : State) (e : Nat) (x : Extent) : State :=
  { s with ext := { s.ext with tbl := sins s.ext.tbl e x } }
/-- Apply `f` to extent `e`, when in use. -/
def State.modExtent (s : State) (e : Nat) (f : Extent → Extent) : State :=
  match s.extent e with
  | some x => s.setExtent e (f x)
  | none => s
/-- Frame `f`'s entry; `none` is FREE. -/
def State.frame (s : State) (f : Nat) : Option Frame := sfind s.dir.frames f
/-- Operand-buffer entries of frame `f` are dropped (R193). -/
def dropOperands (f : Nat) (bufs : Sparse (List OpEntry)) : Sparse (List OpEntry) :=
  bufs.map fun (e, l) => (e, l.filter fun q => q.frame != f)
/-- Set frame `f`; a change of its state drops what operand buffers hold of it (R193). -/
def State.setFrame (s : State) (f : Nat) (v : Frame) : State :=
  { s with
    dir := { s.dir with frames := sins s.dir.frames f v }
    mxe := { s.mxe with bufs :=
      if (s.frame f).any fun o => o.st == v.st then s.mxe.bufs else dropOperands f s.mxe.bufs } }
/-- Apply `g` to frame `f`, when not FREE. -/
def State.modFrame (s : State) (f : Nat) (g : Frame → Frame) : State :=
  match s.frame f with
  | some x => s.setFrame f (g x)
  | none => s
/-- Admitted command by id. -/
def State.cmd (s : State) (id : Nat) : Option Cmd := s.cmds.find? (·.id == id)
/-- Apply `f` to an admitted command. -/
def State.modCmd (s : State) (id : Nat) (f : Cmd → Cmd) : State :=
  { s with cmds := s.cmds.map fun c => if c.id == id then f c else c }
/-- A waiting request by id. -/
def State.req (s : State) (id : Nat) : Option HostReq := s.waiting.find? (·.id == id)

/-- Logical device of allotment `n` (R54). -/
def Allot.ldk (a : Allot) : Nat := ldKey (fld a.bind 0 3) (fld a.bind 4 4)
/-- The allotment is enabled (R56). -/
def Allot.enabled (a : Allot) : Bool := bitOf a.bind 8
/-- Logical device of allotment `n` (R54). -/
def State.ldOf (s : State) (n : Nat) : Nat := (s.allot n).ldk
/-- The enabled allotment bound to a logical device (R54). -/
def State.allotOf (s : State) (k : Nat) : Option Nat :=
  (List.range 64).find? fun n => (s.allot n).enabled && (s.allot n).ldk == k

/-! ### Interrupts (R248, R357, R358) -/

/-- Unconsumed event entries. -/
def Allot.evtPending (a : Allot) : Bool := a.evtHead != a.evtTail

/-- Bring INTA of an allotment's logical device to the level of R358. -/
def State.updIntx (s : State) (n : Nat) : State :=
  let k := s.ldOf n
  let d := s.ld k
  let owned := s.queues.any fun (_, q) =>
    bitOf q.owner 31 && fld q.owner 0 6 == n && !q.intrSlots.isEmpty
  let on := !d.msix && !d.intxDis && (owned || (s.allot n).evtPending)
  if on == d.intx then s else (s.setLd k { d with intx := on }).emit (.intx k on)

/-- A logical device may master requests: bus-master enable, in D0 (R359, R361). -/
def Ld.master (d : Ld) : Bool := d.bme && d.dstate == 0

/-- Raise a vector of a logical device (R357), or INTx when MSI-X is off (R358). -/
def State.interrupt (s : State) (n vec : Nat) : State :=
  let k := s.ldOf n
  let d := s.ld k
  if d.msix then
    if d.master && !d.fmask && !d.masked.contains vec then s.emit (.msix k vec)
    else s.setLd k { d with pend := if d.pend.contains vec then d.pend else vec :: d.pend }
  else s.updIntx n

/-! ### Events (R254 to R257) -/

/-- An event entry from its type, posting count and payload fields (offset, width, value). -/
def eventEntry (type : Nat) (posted : Count) (fields : List (Nat × Nat × Nat)) : EventEntry :=
  BitVec.ofNat 512 (fields.foldl (fun v (o, w, x) => v + at_ (8 * o) (8 * w) x)
    (type + at_ 64 64 posted))

/-- Free slots of the event ring (R240). -/
def Allot.evtFree (a : Allot) : Nat :=
  let n := 2 ^ fld a.evtCtrl 1 5
  (a.evtHead + n - a.evtTail - 1) % n

/-- The event ring takes entries now (R256, R259). -/
def State.evtWritable (s : State) (n : Nat) : Bool :=
  let a := s.allot n
  bitOf a.evtCtrl 0 && !a.evtHold && (s.ld a.ldk).master && decide (0 < a.evtFree)

/-- Write one entry at TAIL with its SEQ and PHASE, and raise the ring's vector (R254, R256). -/
def State.evtPut (s : State) (n : Nat) (e : EventEntry) (more : Bool) : State :=
  let a := s.allot n
  let e := BitVec.ofNat 512 (e.toNat + atB 8 more + atB 15 a.evtPhase + at_ 16 16 a.evtSeq)
  let size := 2 ^ fld a.evtCtrl 1 5
  let tail := (a.evtTail + 1) % size
  let s := s.setAllot n { a with
    evtTail := tail, evtSeq := (a.evtSeq + 1) % 65536,
    evtPhase := if tail == 0 then !a.evtPhase else a.evtPhase }
  let s := s.emit (.ringWrite n ((a.evtBase.toNat / 64) * 64 + a.evtTail * 64) 64 e)
  s.interrupt n (fld a.evtCtrl 6 7)

/-- The waiting PLAN_CHANGE group was posted before the first held event (R256). -/
def Allot.groupFirst (a : Allot) : Bool :=
  match a.evtNext, a.evtHeld with
  | g :: _, e :: _ => decide (fld g 64 64 < fld e 64 64)
  | _, _ => false

/-- Write the next held event, if the ring takes one: a begun group first, then the held events and the
waiting group in the order of their posting (R256). -/
def State.evtStep (s : State) (n : Nat) : State :=
  if s.evtWritable n then
    let a := s.allot n
    let held := if a.groupFirst then [] else a.evtHeld
    match a.evtGroup, held, a.evtNext with
    | e :: r, _, _ =>
      (s.setAllot n { a with evtGroup := r }).evtPut n e (!r.isEmpty)
    | [], e :: r, _ =>
      if fld e 0 8 = 8 then
        let e := eventEntry 8 (fld e 64 64) [(16, 4, a.evtLost), (20, 4, a.evtLostFault)]
        (s.setAllot n { a with evtHeld := r, evtLost := 0, evtLostFault := 0 }).evtPut n e false
      else
        let lost := decide (0 < a.evtLost) && !(r.any fun x => fld x 0 8 == 8)
        let r := if lost then r ++ [eventEntry 8 s.now []] else r
        (s.setAllot n { a with evtHeld := r }).evtPut n e false
    | [], [], e :: r =>
      (s.setAllot n { a with evtGroup := r, evtNext := [] }).evtPut n e (!r.isEmpty)
    | [], [], [] =>
      if 0 < a.evtLost then
        let e := eventEntry 8 s.now [(16, 4, a.evtLost), (20, 4, a.evtLostFault)]
        (s.setAllot n { a with evtLost := 0, evtLostFault := 0 }).evtPut n e false
      else s
  else s

/-- Count discarded events; SEQ still advances (R256). -/
def Allot.evtDiscard (a : Allot) (k faults : Nat) : Allot :=
  { a with evtLost := satAdd 32 a.evtLost k, evtLostFault := satAdd 32 a.evtLostFault faults,
           evtSeq := (a.evtSeq + k) % 65536 }

/-- Post one event to allotment `n` (R256). -/
def State.post (s : State) (n type : Nat) (fields : List (Nat × Nat × Nat)) : State :=
  let a := s.allot n
  let e := eventEntry type s.now fields
  if a.evtHeld.isEmpty && a.evtGroup.isEmpty && a.evtNext.isEmpty && s.evtWritable n then
    s.evtPut n e false
  else if a.evtHeld.length < 64 then s.setAllot n { a with evtHeld := a.evtHeld ++ [e] }
  else s.setAllot n (a.evtDiscard 1 (if type = 5 then 1 else 0))

/-- Write entries of a begun group while slots are free. -/
def State.evtDrain (n : Nat) : Nat → State → State
  | 0, s => s
  | k + 1, s => if (s.allot n).evtGroup.isEmpty then s else State.evtDrain n k (s.evtStep n)

/-- Post a PLAN_CHANGE group to allotment `n`; a newer group replaces a waiting one (R256). -/
def State.postGroup (s : State) (n : Nat) (es : List EventEntry) : State :=
  let a := s.allot n
  let a := if a.evtNext.isEmpty then a else a.evtDiscard a.evtNext.length 0
  let s := s.setAllot n { a with evtNext := es }
  if a.evtHeld.isEmpty && a.evtGroup.isEmpty && s.evtWritable n then
    State.evtDrain n 18 (s.evtStep n)
  else s

/-- Allotments that are enabled, allotment 0 always. -/
def State.enabledAllots (s : State) : List Nat :=
  (List.range 64).filter fun n => n == 0 || (s.allot n).enabled

/-! ### Logs (R314, R315) -/

/-- Put an entry into the part fault log (R314). -/
def State.plogPut (s : State) (e : LogEntry) : State :=
  { s with flt := { s.flt with
      plog := (e :: s.flt.plog).take 64, plogTotal := s.flt.plogTotal + 1,
      plogWrapped := s.flt.plogWrapped || decide (64 ≤ s.flt.plog.length) } }

/-- The part signals PME to a logical device (R364). -/
def State.signalPme (s : State) (k : Nat) : State :=
  let d := s.ld k
  if d.pmeEn && d.dstate == 3 then (s.setLd k { d with pme := true }).emit (.pme k)
  else if d.pmeEn && !s.pwr.main then
    let s := s.setLd k { d with pme := true }
    { s with gen := { s.gen with wake := true } }
  else s

/-- A FAULT event: the part fault log, and a post to each receiver (R255, R313, R314, R364). -/
def State.faultTo (s : State) (dests : List Nat) (unit reason num ext addr : Nat) : State :=
  let s := s.plogPut ⟨reason, unit, 1, num, ext, s.now, 0, addr⟩
  dests.foldl (fun s n =>
    (s.post n 5 [(16, 1, unit), (17, 1, reason), (18, 2, num), (20, 2, ext), (24, 8, addr)]).signalPme
      (s.ldOf n)) s

/-- A FAULT event to allotment 0 without an extent. -/
def State.fault0 (s : State) (unit reason num : Nat) : State := s.faultTo [0] unit reason num 0xFFFF 0

/-- Log an error of an allotment, coalescing with the newest entry (R315). -/
def State.err (s : State) (n code source addr detail queue ext : Nat) : State :=
  let a := s.allot n
  let new : LogEntry := ⟨code, source, 1, queue, ext, s.now, addr, detail⟩
  match a.log with
  | e :: r =>
    if bitOf s.flt.ctrl 0 && code != 0x10 && e.code == code && e.addr == addr && e.ext == ext then
      s.setAllot n { a with log := { e with count := satAdd 16 e.count 1 } :: r }
    else s.setAllot n { a with log := (new :: a.log).take 16, logTotal := a.logTotal + 1 }
  | [] => s.setAllot n { a with log := [new], logTotal := a.logTotal + 1 }

/-- A register access that R10, R469 or R474 records. -/
def State.regErr (s : State) (n off : Nat) : State := s.err n 0x0F 3 off 0 0xFFFF 0xFFFF

/-- Answer over a mailbox, SPDM, FM API or the management bus. -/
def State.reply (s : State) (code : Nat) (nums : List Nat) (bytes : Bytes := []) : State :=
  s.emit (.reply code nums bytes)

/-- The count that a 48-bit field names against a stamp (R34). -/
def expand48 (stamp v : Nat) : Nat :=
  if stamp < 2 ^ 47 then v
  else
    let c := stamp / 2 ^ 48 * 2 ^ 48 + v
    if c < stamp - 2 ^ 47 then c + 2 ^ 48
    else if stamp + 2 ^ 47 ≤ c then c - 2 ^ 48 else c

/-- Key handles of a logical device that have not expired (R406). -/
def State.liveHandles (s : State) (k : Nat) : List (Nat × BitVec 256 × Nat × Count) :=
  (s.ld k).handles.filter fun (_, _, _, at') => decide (s.now < at' + 100000000000)

/-- Integrity mode of R290: 0 NORMAL, 1 STARTUP, 2 TEST, 3 RECOVERY. -/
def State.mode (s : State) : Nat :=
  if s.sec.recovery then 3 else if s.prt.isOpen then 2 else if s.plan.cur.ver = 0 then 1 else 0

end Sys2Proof.Machine
end

