-- ==== Sys2Proof/Machine/Flags.lean ====
section
/-! DEFINITION. Status bits that the part sets and host software clears by writing 1 (R7, R472), and the parity of
on-die SRAM words (R302). -/

namespace Sys2Proof.Machine

/-! ### SRAM parity (R302) -/

/-- f(w): the exclusive-or of the 8-bit groups of a 64-bit index. -/
def sramHash (w : Nat) : Byte := (List.range 8).foldl (fun (v : Byte) i => v ^^^ BitVec.ofNat 8 (w / 256 ^ i)) 0

/-- The exclusive-or of a byte's bits. -/
def byteParity (b : Byte) : Bool := (List.range 8).foldl (fun v i => v != b.getLsbD i) false

/-- The parity bit that byte `j` of the word at index `w` is stored with. -/
def sramParity (w j : Nat) (b : Byte) : Bool := byteParity b != (sramHash w).getLsbD (j % 8)

/-- Byte `j` of the word at index `w` passes with this parity bit: the exclusive-or of its bits, the parity bit and bit
j mod 8 of f(w) is zero. -/
def sramPasses (w j : Nat) (b : Byte) (p : Bool) : Bool := (byteParity b != p) == (sramHash w).getLsbD (j % 8)

/-- Bits of byte `j` that changed. -/
def sramFlipped (r : SramRead) (j : Nat) : Byte :=
  (r.flips.filter fun (k, _) => k == j).foldl (fun (v : Byte) (_, i) => v ^^^ BitVec.ofNat 8 (2 ^ i)) 0

/-- The parity bit of byte `j` changed. -/
def sramParityFlipped (r : SramRead) (j : Nat) : Bool :=
  (r.flips.filter fun q => q == (j, 8)).length % 2 == 1

/-- The read fails parity in some byte of its word. -/
def sramFails (r : SramRead) : Bool :=
  r.data.zipIdx.any fun (b, j) =>
    !(sramPasses r.asked j (b ^^^ sramFlipped r j) (sramParity r.got j b != sramParityFlipped r j))

/-- The first read fails parity: the part sees the fault (R303). -/
def paritySeen (p : ParityFault) : Bool := sramFails p.once
/-- The re-read, or the duplicate, fails as well (R303, R312). -/
def paritySecond (p : ParityFault) : Bool := sramFails p.once && sramFails p.again

/-- Reads that meet no error. -/
def noEnv : ReadEnv := ⟨[], [], [], [], [], [], [], [], []⟩

/-! ### Status bits -/

/-- Bits that a write of `v` leaves set among RW1C bits (R7). -/
def w1c (bits : Reg32) (v : Reg32) : Reg32 := bits &&& ~~~v

/-- An RW1C flag after a write whose bit is `b`. -/
def w1cB (flag b : Bool) : Bool := flag && !b

/-- Set bits of CC_STATUS (R53). -/
def State.ccBit (s : State) (i : Nat) (b : Bool) : State :=
  { s with cc := { s.cc with status := setBit s.cc.status i b } }

/-- Set a bit of DIR_STATUS (R86). -/
def State.dirBit (s : State) (i : Nat) : State :=
  { s with dir := { s.dir with status := setBit s.dir.status i true } }

/-- Set a bit of PUB_STATUS (R106). -/
def State.pubBit (s : State) (i : Nat) : State :=
  { s with ext := { s.ext with status := setBit s.ext.status i true } }

/-- Set a bit of COD_STATUS (R175). -/
def State.codBit (s : State) (i : Nat) : State :=
  { s with cod := { s.cod with status := setBit s.cod.status i true } }

/-- Set a bit of INT_STATUS (R306). -/
def State.intBit (s : State) (i : Nat) : State :=
  { s with int := { s.int with status := setBit s.int.status i true } }

/-- Set a bit of TAM_STATUS (R389). -/
def State.tamBit (s : State) (i : Nat) : State :=
  { s with tam := { s.tam with status := setBit s.tam.status i true } }

/-- Set SET_ERR of PRT_STATUS (R431). -/
def State.prtErr (s : State) : State := { s with prt := { s.prt with setErr := true } }

/-- A CLOCK event (R255). -/
def State.clockEvent (s : State) : State :=
  s.post 0 6 [(16, 4, s.cc.status.toNat), (20, 4, s.cc.syncOffset.toNat)]

end Sys2Proof.Machine
end

