-- ==== Sys2Proof/Machine/Arith.lean ====
section
/-! DEFINITION. Floating point and integers as exact integers with one rounding (R173, R174, R208,
R184). A finite value is `m × 2^e` with its sign. -/

namespace Sys2Proof.Machine

open Sys2Proof

/-- A decoded value. -/
inductive FV where
  | nan
  | inf (neg : Bool)
  | fin (neg : Bool) (m : Nat) (e : Int)
  deriving DecidableEq, Repr

/-- An IEEE-like binary format: exponent and mantissa bits. -/
structure Fmt where
  eb : Nat
  mb : Nat
  deriving DecidableEq, Repr

/-- bf16. -/
def bf16 : Fmt := ⟨8, 7⟩
/-- fp32. -/
def fp32 : Fmt := ⟨8, 23⟩

/-- Exponent bias. -/
def Fmt.bias (f : Fmt) : Nat := 2 ^ (f.eb - 1) - 1

/-- `m × 2^k` rounded to an integer, to nearest, ties to even. -/
def rne (m : Nat) (k : Int) : Nat :=
  if 0 ≤ k then m * 2 ^ k.toNat
  else
    let d := 2 ^ (-k).toNat
    let q := m / d
    let r := m % d
    if d < 2 * r ∨ (2 * r = d ∧ q % 2 = 1) then q + 1 else q

/-- Decode a code of the format. -/
def Fmt.unpack (f : Fmt) (c : Nat) : FV :=
  let neg := c / 2 ^ (f.eb + f.mb) % 2 = 1
  let ex := c / 2 ^ f.mb % 2 ^ f.eb
  let man := c % 2 ^ f.mb
  if ex = 2 ^ f.eb - 1 then if man = 0 then .inf neg else .nan
  else if ex = 0 then .fin neg man (1 - f.bias - f.mb : Int)
  else .fin neg (2 ^ f.mb + man) (ex - f.bias - f.mb : Int)

/-- Code of a value rounded to nearest even; overflow becomes infinity; the NaN is the quiet one. -/
def Fmt.pack (f : Fmt) (v : FV) : Nat :=
  let sign (b : Bool) := if b then 2 ^ (f.eb + f.mb) else 0
  let infc := (2 ^ f.eb - 1) * 2 ^ f.mb
  match v with
  | .nan => infc + 2 ^ (f.mb - 1)
  | .inf n => sign n + infc
  | .fin n m e =>
    if m = 0 then sign n
    else
      let emin : Int := 1 - f.bias
      let ex := max ((Nat.log2 m : Int) + e) emin
      let code := (ex - emin).toNat * 2 ^ f.mb + rne m (e - (ex - f.mb))
      sign n + Nat.min code infc

/-- Sum of two values, exact; exact zero of unlike signs is +0. -/
def FV.add : FV → FV → FV
  | .nan, _ => .nan
  | _, .nan => .nan
  | .inf a, .inf b => if a = b then .inf a else .nan
  | .inf a, _ => .inf a
  | _, .inf b => .inf b
  | .fin sa ma ea, .fin sb mb eb =>
    let e := min ea eb
    let x : Int := (ma * 2 ^ (ea - e).toNat : Nat)
    let y : Int := (mb * 2 ^ (eb - e).toNat : Nat)
    let z := (if sa then -x else x) + (if sb then -y else y)
    if z = 0 then .fin (sa && sb) 0 0 else .fin (decide (z < 0)) z.natAbs e

/-- Negation. -/
def FV.neg : FV → FV
  | .nan => .nan
  | .inf a => .inf (!a)
  | .fin s m e => .fin (!s) m e

/-- Product, exact. -/
def FV.mul : FV → FV → FV
  | .nan, _ => .nan
  | _, .nan => .nan
  | .inf a, .inf b => .inf (a != b)
  | .inf a, .fin b m _ => if m = 0 then .nan else .inf (a != b)
  | .fin a m _, .inf b => if m = 0 then .nan else .inf (a != b)
  | .fin a m e, .fin b n g => .fin (a != b) (m * n) (e + g)

/-- Quotient with enough bits and a sticky bit for one correct rounding to 24 bits. -/
def FV.div : FV → FV → FV
  | .nan, _ => .nan
  | _, .nan => .nan
  | .inf _, .inf _ => .nan
  | .inf a, .fin b _ _ => .inf (a != b)
  | .fin a _ _, .inf b => .fin (a != b) 0 0
  | .fin a m e, .fin b n g =>
    if n = 0 then if m = 0 then .nan else .inf (a != b)
    else
      let k := 80 + Nat.log2 n
      let q := m * 2 ^ k / n
      let r := m * 2 ^ k % n
      .fin (a != b) (2 * q + if r = 0 then 0 else 1) (e - g - k - 1)

/-- Integer square root by bits. -/
def isqrt (n : Nat) : Nat :=
  (List.range (Nat.log2 n / 2 + 1)).foldl (fun r i =>
    let b := r + 2 ^ (Nat.log2 n / 2 - i)
    if b * b ≤ n then b else r) 0

/-- Square root with a sticky bit. -/
def FV.sqrt : FV → FV
  | .nan => .nan
  | .inf a => if a then .nan else .inf false
  | .fin a m e =>
    if m = 0 then .fin a 0 0
    else if a then .nan
    else
      let k : Nat := if (e % 2) = 0 then 80 else 81
      let n := m * 2 ^ k
      let r := isqrt n
      .fin false (2 * r + if r * r = n then 0 else 1) ((e - k) / 2 - 1)

/-- Comparison of two values that are no NaN: `a < b`; −0 equals +0. -/
def FV.lt (a b : FV) : Bool :=
  match a, b with
  | .nan, _ => false
  | _, .nan => false
  | .inf x, .inf y => x && !y
  | .inf x, _ => x
  | _, .inf y => !y
  | .fin .., .fin .. =>
    match a.add b.neg with
    | .fin s m _ => s && m != 0
    | _ => false

/-- Equality of values, NaN equal to nothing. -/
def FV.eqv (a b : FV) : Bool := a != .nan && b != .nan && !a.lt b && !b.lt a

/-- fp32 addition with one rounding. -/
def addF (a b : Nat) : Nat := fp32.pack ((fp32.unpack a).add (fp32.unpack b))
/-- fp32 multiplication with one rounding. -/
def mulF (a b : Nat) : Nat := fp32.pack ((fp32.unpack a).mul (fp32.unpack b))
/-- bf16 to fp32. -/
def bfToF (a : Nat) : Nat := a * 65536
/-- fp32 to bf16, to nearest even; NaN becomes the quiet bf16 NaN. -/
def fToBf (a : Nat) : Nat := bf16.pack (fp32.unpack a)

end Sys2Proof.Machine
end

