-- ==== Sys2Proof/Machine/LineCode.lean ====
section
/-! DEFINITION. The GDDR7 line code, the address hash and the places of a frame's symbols
(R108, R109, R287 to R289, R296, R297). -/

namespace Sys2Proof.Machine

open Sys2Proof

/-! ### GF(2⁸) on 0x11D (R287) -/

/-- Multiplication in GF(2⁸). -/
def gmul (a b : Nat) : Nat :=
  ((List.range 8).foldl (fun (acc : Nat × Nat) i =>
    let (x, r) := acc
    let r := if b / 2 ^ i % 2 = 1 then r ^^^ x else r
    let x := 2 * x
    (if 256 ≤ x then x ^^^ 0x11D else x, r)) (a, 0)).2

/-- `a ^ n` by squaring over the low eight bits of `n`. -/
def gpow (a n : Nat) : Nat :=
  ((List.range 8).foldl (fun (acc : Nat × Nat) i =>
    let (x, r) := acc
    (gmul x x, if n / 2 ^ i % 2 = 1 then gmul r x else r)) (a, 1)).2

/-- The inverse of a non-zero element. -/
def ginv (a : Nat) : Nat := gpow a 254

/-- `α ^ n`. -/
def alpha (n : Nat) : Nat := gpow 2 (n % 255)

/-- Code degree of a symbol: data byte `i` at `8 + i`, check byte `j` (position `64 + j`) at `j`, and the
virtual symbols u₆₄ and u₆₅ (positions 72, 73) at 72 and 73. -/
def degreeOf (pos : Nat) : Nat := if pos < 64 then 8 + pos else if pos < 72 then pos - 64 else pos

/-- The symbol position of a code degree. -/
def posOf (deg : Nat) : Nat := if deg < 8 then 64 + deg else if deg < 72 then deg - 8 else deg

/-- Syndromes of an error pattern (position, value) (R289). -/
def syndromes (errs : List (Nat × Nat)) : List Nat :=
  (List.range 8).map fun i => errs.foldl (fun a (p, v) => a ^^^ gmul v (alpha (i * degreeOf p))) 0

/-- Add two polynomials over GF(2⁸), lowest coefficient first. -/
def padd : List Nat → List Nat → List Nat
  | [], q => q
  | p, [] => p
  | a :: p, b :: q => (a ^^^ b) :: padd p q

/-- Evaluate a polynomial. -/
def peval (p : List Nat) (x : Nat) : Nat := p.foldr (fun c a => c ^^^ gmul a x) 0

/-- The error locator by Berlekamp and Massey: locator and its length. -/
def locator (syn : List Nat) : List Nat × Nat :=
  let r := (List.range 8).foldl (fun (st : List Nat × List Nat × Nat × Nat × Nat) n =>
    let (c, b, len, m, bd) := st
    let d := (List.range (len + 1)).foldl (fun a i => a ^^^ gmul (nth c i) (nth syn (n - i))) 0
    if d = 0 then (c, b, len, m + 1, bd)
    else
      let k := gmul d (ginv bd)
      let c' := padd c (List.replicate m 0 ++ b.map (gmul k))
      if 2 * len ≤ n then (c', c, n + 1 - len, 1, d) else (c', b, len, m + 1, bd))
    ([1], [1], 0, 1, 1)
  (r.1, r.2.2.1)

/-- Error magnitudes by Forney at the located degrees. -/
def magnitudes (syn loc degs : List Nat) : List (Nat × Nat) :=
  let omega := (List.range 8).map fun n =>
    (List.range (n + 1)).foldl (fun a i => a ^^^ gmul (nth loc i) (nth syn (n - i))) 0
  let deriv := (List.range loc.length).map fun i => if i % 2 = 0 then nth loc (i + 1) else 0
  degs.map fun g =>
    let xi := alpha (255 - g % 255)
    (posOf g, gmul (alpha g) (gmul (peval omega xi) (ginv (peval deriv xi))))

/-- Outcome of decoding a line (R289). -/
inductive LineClass where
  | clean | corrected | address | uncorrectable
  deriving DecidableEq, Repr

/-- Encoding of R289. -/
def LineClass.val : LineClass → Nat
  | .clean => 0 | .corrected => 1 | .address => 2 | .uncorrectable => 3

/-- Decode an error pattern: its class and the corrections (position, value) (R289). -/
def decodeErrors (errs : List (Nat × Nat)) : LineClass × List (Nat × Nat) :=
  let syn := syndromes errs
  if syn.all (· == 0) then (.clean, [])
  else
    let (loc, len) := locator syn
    let degs := (List.range 74).filter fun g => peval loc (alpha (255 - g % 255)) == 0
    if 4 < len ∨ degs.length ≠ len then (.uncorrectable, [])
    else
      let fix := magnitudes syn loc degs
      if syndromes fix != syn then (.uncorrectable, [])
      else if fix.any fun (p, _) => decide (72 ≤ p) then (.address, [])
      else (.corrected, fix)

/-- The address hash H(a) (R288). -/
def addrHash (a : Nat) : BitVec 16 :=
  let r := (List.range 16).foldl (fun v k =>
    let i := 30 - k
    if v / 2 ^ i % 2 = 1 then v ^^^ (0x8FAF * 2 ^ (i - 15)) else v) (a % 2 ^ 31)
  let par := (List.range 31).foldl (fun p i => p ^^^ a / 2 ^ i % 2) 0
  BitVec.ofNat 16 (r % 2 ^ 15 + par * 2 ^ 15)

/-- The whole error pattern of a read: overlaid stored errors and the virtual symbols' difference
between the hash the line was written with and the one inserted. -/
def errPattern (errs : List (Nat × Byte)) (hash : BitVec 16) : List (Nat × Nat) :=
  (errs.map fun (p, v) => (p, v.toNat)) ++ [(72, fld hash 0 8), (73, fld hash 8 8)]

/-- Combine two error lists on the same symbols by exclusive or; symbols without an error drop out. -/
def addErrs (a b : List (Nat × Byte)) : List (Nat × Byte) :=
  ((List.range 72).map fun p =>
    (p, ((a ++ b).filter fun (q, _) => q == p).foldl (fun (v : Byte) (_, x) => v ^^^ x) 0)).filter fun (_, v) => v != 0

/-! ### Places (R107 to R109) -/

/-- Group of a frame. -/
def groupOf (f : Nat) : Nat := f % 8
/-- Position of a frame's check chunk. -/
def checkPos (f : Nat) : Nat := f / 8 % 9
/-- Position of data run `j` of a frame. -/
def runPos (f j : Nat) : Nat := if j < checkPos f then j else j + 1
/-- Channel of a stored symbol of line `l` of frame `f`: data in the run's channel, check symbols in
the check chunk's. -/
def chanOf (f l pos : Nat) : Nat :=
  9 * groupOf f + (if pos < 64 then runPos f (l / 128) else checkPos f)
/-- Byte address within its channel of a line's data, and of the check line that covers it. -/
def chanByte (f l : Nat) : Nat := f / 8 * 8192 + l % 128 * 64
/-- Byte of the check line that holds check symbol `k` of line `l`: 8j to 8j + 7 for run j (R109, R287). -/
def checkByte (l k : Nat) : Nat := 8 * (l / 128) + k
/-- The check line that covers line `l` of frame `f`, by number. -/
def checkLine (f l : Nat) : Nat := 128 * f + l % 128
/-- Byte address in its channel of a stored symbol of a line: a data byte, or a byte of the check line (R109). -/
def symbolByte (f l pos : Nat) : Nat := chanByte f l + (if pos < 64 then pos else checkByte l (pos - 64))

end Sys2Proof.Machine
end

