-- ==== Sys2Proof/Machine/Codec.lean ====
section
/-! DEFINITION. The EXP and FXR codecs (R153 to R174). -/

namespace Sys2Proof.Machine

open Sys2Proof

/-! ### Code tables (R153, R155) -/

/-- Code length of an exponent in the built-in bf16 table. -/
def builtinBf (x : Nat) : Nat :=
  if x = 0x7A ∨ x = 0x7B then 2 else if x = 0x79 ∨ x = 0x7C then 3
  else if x = 0x78 ∨ x = 0x7D then 4 else if x = 0x77 ∨ x = 0x7E then 5
  else if x = 0x76 ∨ x = 0x7F then 6
  else if (0x70 ≤ x ∧ x ≤ 0x75) ∨ x = 0x80 ∨ x = 0x81 then 9 else 14

/-- Code length of an exponent in the built-in fp32 table. -/
def builtinF32 (x : Nat) : Nat :=
  if 0x6A ≤ x ∧ x ≤ 0x75 then 4
  else if (0x66 ≤ x ∧ x ≤ 0x69) ∨ (0x76 ≤ x ∧ x ≤ 0x79) then 6
  else if (0x5E ≤ x ∧ x ≤ 0x65) ∨ (0x7A ≤ x ∧ x ≤ 0x81) then 8 else 12

/-- A table: element type fp32, and the 256 lengths. -/
structure CodeTable where
  fp32 : Bool
  lens : List Nat
  deriving DecidableEq, Repr

/-- The table of a slot; none when the slot is not valid. -/
def State.codeTable (s : State) (slot : Nat) : Option CodeTable :=
  if slot = 0 then some ⟨false, (List.range 256).map builtinBf⟩
  else if slot = 1 then some ⟨true, (List.range 256).map builtinF32⟩
  else (sfind s.cod.slots slot).map fun (e, l) => ⟨e, (List.range 256).map fun i => sget 0 l i⟩

/-- Canonical codes: (exponent, length, code) in code order (R155). -/
def canonical (lens : List Nat) : List (Nat × Nat × Nat) :=
  let sorted := (List.range 15).flatMap fun k =>
    (List.range 256).filterMap fun x => if nth lens x = k + 1 then some (x, k + 1) else none
  (sorted.foldl (fun (acc : List (Nat × Nat × Nat) × Nat × Nat) (x, l) =>
    let (out, code, prev) := acc
    let c := if prev = 0 then 0 else (code + 1) * 2 ^ (l - prev)
    (out ++ [(x, l, c)], c, l)) ([], 0, 0)).1

/-! ### EXP blocks (R157 to R162) -/

/-- Values of a block of 16 lines: 512 bf16 or 256 fp32. -/
def blockValues (f32 : Bool) (ls : List Line) : List Nat :=
  let w := if f32 then 32 else 16
  ls.flatMap fun l => (List.range (512 / w)).map fun i => fld l (w * i) w

/-- Lines that hold values of `w` bits in order. -/
def packValues (w : Nat) (vs : List Nat) : List Line :=
  let per := 512 / w
  (List.range ((vs.length + per - 1) / per)).map fun k =>
    BitVec.ofNat 512 (((vs.drop (k * per)).take per).foldr (fun v a => v % 2 ^ w + a * 2 ^ w) 0)

/-- Exponent field of a value. -/
def expOf (f32 : Bool) (v : Nat) : Nat := if f32 then v / 2 ^ 23 % 256 else v / 2 ^ 7 % 256
/-- Sign and mantissa bits of a value. -/
def smOf (f32 : Bool) (v : Nat) : Nat :=
  if f32 then v / 2 ^ 31 * 2 ^ 23 + v % 2 ^ 23 else v / 2 ^ 15 * 2 ^ 7 + v % 2 ^ 7
/-- The value from its exponent and its sign and mantissa bits. -/
def joinVal (f32 : Bool) (x sm : Nat) : Nat :=
  if f32 then sm / 2 ^ 23 * 2 ^ 31 + x * 2 ^ 23 + sm % 2 ^ 23
  else sm / 2 ^ 7 * 2 ^ 15 + x * 2 ^ 7 + sm % 2 ^ 7

/-- Sign-mantissa lines: 8 for bf16 and 12 for fp32. -/
def smLines (f32 : Bool) : Nat := if f32 then 12 else 8

/-- Bits of a code, most significant first. -/
def codeBits (len code : Nat) : List Bool :=
  (List.range len).map fun i => code / 2 ^ (len - 1 - i) % 2 == 1

/-- Bytes of a bit stream, each byte's most significant bit first (R158). -/
def bitsToBytes : Nat → List Bool → List Nat
  | 0, _ => []
  | n + 1, bs =>
    ((List.range 8).foldl (fun v i => 2 * v + cond (bs.getD i false) 1 0) 0) :: bitsToBytes n (bs.drop 8)

/-- The stored lines of a block by the first form that applies (R159). -/
def encodeBlock (t : CodeTable) (ls : List Line) : List Line :=
  let vs := blockValues t.fp32 ls
  let v0 := nth vs 0
  if vs.all (· == v0) then [BitVec.ofNat 512 (v0 + (if t.fp32 then 2 else 1) * 2 ^ 32)]
  else
    let codes := canonical t.lens
    let per := vs.map fun v => codes.find? fun c => c.1 == expOf t.fp32 v
    if per.any (·.isNone) then ls
    else
      let bits := per.flatMap fun c => match c with | some (_, l, k) => codeBits l k | none => []
      let n := ceilDiv (bits.length + 16) 512
      let m := smLines t.fp32
      if 15 < m + n then ls
      else
        let region := bits.length % 256 :: bits.length / 256 :: bitsToBytes (64 * n - 2) bits
        packValues (if t.fp32 then 24 else 8) [] ++
          (if t.fp32 then packValues 8 (vs.flatMap fun v =>
              let x := smOf true v
              [x % 256, x / 256 % 256, x / 65536])
            else packValues 8 (vs.map (smOf false))) ++ packValues 8 region

/-- Decode `n` values from a bit stream: the exponents, when the stream ends exactly (R162). -/
def decodeBits (codes : List (Nat × Nat × Nat)) : List Bool → Nat → Nat → List Nat → Option (List Nat)
  | [], len, _, acc => if len = 0 then some acc.reverse else none
  | b :: bs, len, code, acc =>
    let len := len + 1
    let code := 2 * code + cond b 1 0
    match codes.find? fun (_, l, c) => l == len && c == code with
    | some (x, _, _) => decodeBits codes bs 0 0 (x :: acc)
    | none => if 15 ≤ len then none else decodeBits codes bs len code acc

/-- Decode the first `n` lines of a block; none when the block is damaged (R162). -/
def decodeBlock (t : CodeTable) (ls : List Line) : Option (List Line) :=
  let n := ls.length
  let m := smLines t.fp32
  let w := if t.fp32 then 32 else 16
  if n = 16 then some ls
  else if n = 1 then
    let v := ls.headD 0
    let x := fld v 0 w
    if v.toNat = x + (if t.fp32 then 2 else 1) * 2 ^ 32 then
      some (packValues w (List.replicate (8192 / w) x))
    else none
  else if n < m + 1 ∨ 15 < n then none
  else
    let bytes := ls.flatMap fun l => (List.range 64).map fun i => (byteOf l i).toNat
    let region := bytes.drop (64 * m)
    let bits := nth region 0 + 256 * nth region 1
    let stream := (region.drop 2).flatMap (codeBits 8)
    if (n - m) * 512 < bits + 16 ∨ bits + 16 ≤ (n - m - 1) * 512 then none
    else if (stream.drop bits).any id then none
    else
      match decodeBits (canonical t.lens) (stream.take bits) 0 0 [] with
      | none => none
      | some xs =>
        if xs.length ≠ 8192 / w then none
        else
          let sm := (List.range (8192 / w)).map fun i =>
            if t.fp32 then nth bytes (3 * i) + 256 * nth bytes (3 * i + 1) + 65536 * nth bytes (3 * i + 2)
            else nth bytes i
          some (packValues w ((List.range (8192 / w)).map fun i => joinVal t.fp32 (nth xs i) (nth sm i)))

/-! ### FXR (R169 to R174) -/

/-- An FXR element format: exponent and mantissa bits, bias, and its kind of special codes (0 none,
1 E4M3's NaN, 2 E5M2's infinities and NaNs). -/
structure FxrFmt where
  eb : Nat
  mb : Nat
  bias : Nat
  special : Nat
  deriving DecidableEq, Repr

/-- The format of a CODEC value and FXR_ALT. -/
def fxrFmt (codec : Nat) (alt : Bool) : FxrFmt :=
  if codec = 2 then if alt then ⟨5, 2, 15, 2⟩ else ⟨4, 3, 7, 1⟩
  else if codec = 3 then if alt then ⟨3, 2, 3, 0⟩ else ⟨2, 3, 1, 0⟩
  else ⟨2, 1, 1, 0⟩

/-- Element width in bits. -/
def FxrFmt.width (f : FxrFmt) : Nat := 1 + f.eb + f.mb
/-- Exponent of the smallest subnormal. -/
def FxrFmt.minExp (f : FxrFmt) : Int := 1 - f.bias - f.mb
/-- Largest finite magnitude code. -/
def FxrFmt.maxCode (f : FxrFmt) : Nat :=
  if f.special = 0 then 2 ^ (f.eb + f.mb) - 1
  else if f.special = 1 then 2 ^ (f.eb + f.mb) - 2 else (2 ^ f.eb - 1) * 2 ^ f.mb - 1
/-- Magnitude of a code in units of the smallest subnormal. -/
def FxrFmt.mag (f : FxrFmt) (c : Nat) : Nat :=
  let ex := c / 2 ^ f.mb
  let man := c % 2 ^ f.mb
  if ex = 0 then man else (2 ^ f.mb + man) * 2 ^ (ex - 1)
/-- Exponent of the largest finite value. -/
def FxrFmt.emax (f : FxrFmt) : Int := (Nat.log2 (f.mag f.maxCode) : Int) + f.minExp

/-- Nearest code to `m × 2^k` units, ties to even, saturating (R173). -/
def FxrFmt.nearest (f : FxrFmt) (m : Nat) (k : Int) : Nat :=
  let num := m * 2 ^ k.toNat
  let den := 2 ^ (-k).toNat
  let dist c := Int.natAbs ((num : Int) - (f.mag c * den : Nat))
  (List.range (f.maxCode + 1)).foldl (fun b c =>
    if dist c < dist b ∨ (dist c = dist b ∧ c % 2 = 0) then c else b) 0

/-- A quantised group: scale byte, data bits as one number, and whether it was counted as NaN
(R171, R173). -/
def fxrQuant (f : FxrFmt) (v : Line) : Nat × Nat × Bool :=
  let xs := (List.range 32).map fun i => bf16.unpack (fld v (16 * i) 16)
  let bad := xs.any fun x => match x with | .fin .. => false | _ => true
  if bad then (0xFF, 0, true)
  else
    let top := xs.foldl (fun (a : Option Int) x => match x with
      | .fin _ m e => if m = 0 then a else
          let l := (Nat.log2 m : Int) + e
          some (match a with | some y => max y l | none => l)
      | _ => a) none
    let x : Int := match top with | some l => max (-127) (l - f.emax) | none => -127
    let code (q : FV) : Nat := match q with
      | .fin s m e => (if s then 2 ^ (f.width - 1) else 0) + f.nearest m (e - x - f.minExp)
      | _ => 0
    ((x + 127).toNat, xs.foldr (fun q a => code q + a * 2 ^ f.width) 0, false)

/-- Decode a group from its scale byte and data bits; none is poison (R174). -/
def fxrDecode (f : FxrFmt) (scale data : Nat) : Option Line :=
  if scale = 0xFD ∨ scale = 0xFE then none
  else
    let x : Int := scale - 127
    let one (c : Nat) : Nat :=
      let neg := c / 2 ^ (f.width - 1) = 1
      let c := c % 2 ^ (f.width - 1)
      if f.maxCode < c then
        if f.special = 2 && c == (2 ^ f.eb - 1) * 2 ^ f.mb then bf16.pack (.inf neg) else 0x7FC0
      else bf16.pack (.fin neg (f.mag c) (f.minExp + x))
    let vs := (List.range 32).map fun i =>
      if scale = 0xFF then 0x7FC0 else one (data / 2 ^ (f.width * i) % 2 ^ f.width)
    some (BitVec.ofNat 512 (vs.foldr (fun v a => v + a * 65536) 0))

end Sys2Proof.Machine
end

