-- ==== Sys2Proof/Machine/Keys.lean ====
section
/-! DEFINITION. Keys: what the part derives from its device secret and what an extent's key and nonce give
(R395, R396, R408, R410). The standards' primitives are constants of Config. -/

namespace Sys2Proof.Machine

open Sys2Proof

/-- Bytes of an ASCII string. -/
def ascii (x : String) : Bytes := x.toList.map fun c => BitVec.ofNat 8 c.toNat

/-- A 256-bit key from 32 bytes. -/
def key256 (b : Bytes) : BitVec 256 := BitVec.ofNat 256 (leNat b)

/-- `n` bytes derived from the device secret with an empty salt (R396). -/
def deviceKey (info : String) (n : Nat) : Bytes :=
  Config.hkdfSha384 (leBytes 32 Config.deviceSecret.toNat) [] (ascii info) n

/-- Seed of an identity key pair: 0 RSA-3072, 1 SLH-DSA-SHA2-192s (R396). -/
def identitySeed (alg : Nat) : Bytes := if alg = 0 then deviceKey "VLM ID RSA" 384 else deviceKey "VLM ID SLH" 72

/-- Signature of a byte string by an identity key (R400). -/
def identitySign (alg : Nat) (b : Bytes) : Bytes :=
  if alg = 0 then Config.rsaSign (identitySeed 0) b else Config.slhSign (identitySeed 1) b

/-- SHA-384 of an identity public key (R355). -/
def identityHash (alg : Nat) : BitVec 384 := Config.sha384 (Config.identityPublic alg (identitySeed alg))

/-- The storage key (R396). -/
def storageKey : BitVec 256 := key256 (deviceKey "VLM STORAGE" 32)

/-- A key or nonce wrapped for the system area: the check value of RFC 3394 and the key, permuted (R396). -/
def wrapKey (k : BitVec 256) : BitVec 320 := Config.aesWrap storageKey ((0xA6A6A6A6A6A6A6A6#64) ++ k)

/-- The key that a wrapped copy holds; none when its check value is wrong (R396). -/
def unwrapKey (w : BitVec 320) : Option (BitVec 256) :=
  let v := (Config.aesWrap storageKey).symm w
  if v >>> 256 = (0xA6A6A6A6A6A6A6A6 : BitVec 320) then some (v.truncate 256) else none

/-- Key stream of the 32 B of the replay log from offset `o`: AES-256-GCM under the storage key, each 64 KiB unit with its
log offset as IV (R334, R396). -/
def logStream (o : Nat) : BitVec 256 :=
  BitVec.ofNat 256 ((List.range 32).foldl (fun v j => v +
    (Config.aesGcmStream storageKey (BitVec.ofNat 96 (o / 65536 * 65536)) (o % 65536 + j)).toNat <<< (8 * j)) 0)

/-- 32 B of the replay log under the cipher, which undoes itself. -/
def logCipher (o : Nat) (v : BitVec 256) : BitVec 256 := v ^^^ logStream o

/-- What the cipher gives is undone by it. -/
@[simp] theorem logCipher_logCipher (o : Nat) (v : BitVec 256) : logCipher o (logCipher o v) = v := by
  simp [logCipher, BitVec.xor_assoc]

/-! ### Data keys (R408, R410) -/

/-- The four keys of an extent, or of a composite's tiles. -/
structure DataKeys where
  k1 : BitVec 256
  k2 : BitVec 256
  kMac : BitVec 256
  kIv : BitVec 256
  deriving DecidableEq, Repr

/-- Keys taken in order from 128 bytes. -/
def dataKeys (b : Bytes) : DataKeys :=
  ⟨key256 (b.take 32), key256 ((b.drop 32).take 32), key256 ((b.drop 64).take 32), key256 ((b.drop 96).take 32)⟩

/-- Keys of an extent; a composite's tiles have keys of its descriptor, which equal composites share. -/
def State.keysOf (s : State) (x : Extent) : DataKeys :=
  let k := leBytes 32 (s.slot (fld x.attr 12 8)).key.toNat
  dataKeys (if fld x.attr 2 3 = 5 then
      Config.hkdfSha384 k (leBytes 48 (Config.sha384 (leBytes 64 x.desc.toNat)).toNat) (ascii "VLM TILE") 128
    else Config.hkdfSha384 k (leBytes 32 x.nonce.toNat) (ascii "VLM DATA") 128)

/-- Lines of the tag area of a sealed extent are not encrypted (R410): line index `i` of the extent. -/
def Extent.plainLine (x : Extent) (i : Nat) : Bool := bitOf x.attr 7 && decide (x.size ≤ 64 * i)

/-- Ciphertext of stored line `i` of an extent (R408). -/
def State.encLine (s : State) (x : Extent) (i : Nat) (v : Line) : Line :=
  if x.plainLine i then v else Config.aesXts (s.keysOf x).k1 (s.keysOf x).k2 i v

/-- Plain text of stored line `i` of an extent. -/
def State.decLine (s : State) (x : Extent) (i : Nat) (v : Line) : Line :=
  if x.plainLine i then v else (Config.aesXts (s.keysOf x).k1 (s.keysOf x).k2 i).symm v

/-- A cell with its line encrypted; markers never are (R296, R408). -/
def State.encCell (s : State) (x : Extent) (i : Nat) : Cell → Cell
  | .data v => .data (s.encLine x i v)
  | c => c

/-- A cell with its line decrypted. -/
def State.decCell (s : State) (x : Extent) (i : Nat) : Cell → Cell
  | .data v => .data (s.decLine x i v)
  | c => c

/-- The tag of line `i` of a sealed extent, over its ciphertext (R410). -/
def State.tagOf (s : State) (x : Extent) (i : Nat) (v : Line) : Nat :=
  let c := s.encLine x i v
  let b := leBytes 8 i ++ leBytes 64 c.toNat
  let iv := (Config.aesCmac (s.keysOf x).kIv b).truncate 96
  ((Config.aesGmac (s.keysOf x).kMac iv b).truncate 64).toNat

/-- Decryption undoes encryption. -/
@[simp] theorem State.decLine_encLine (s : State) (x : Extent) (i : Nat) (v : Line) :
    s.decLine x i (s.encLine x i v) = v := by
  unfold State.decLine State.encLine
  split <;> simp

/-- The upper part of a joined word. -/
theorem append_upper (c : BitVec 64) (k : BitVec 256) : (c ++ k : BitVec 320) >>> 256 = c.setWidth 320 := by
  apply BitVec.eq_of_getLsbD_eq
  intro i hi
  simp only [BitVec.getLsbD_ushiftRight, BitVec.getLsbD_append, BitVec.getLsbD_setWidth]
  have : ¬ (256 + i < 256) := by omega
  simp [this]
  intro h; omega

/-- The lower part of a joined word. -/
theorem append_lower (c : BitVec 64) (k : BitVec 256) : BitVec.truncate 256 (c ++ k : BitVec 320) = k := by
  apply BitVec.eq_of_getLsbD_eq
  intro i hi
  rw [BitVec.truncate_eq_setWidth, BitVec.getLsbD_setWidth]
  erw [BitVec.getLsbD_append]
  simp [hi]

/-- What a wrapped key holds is the key. -/
@[simp] theorem unwrapKey_wrapKey (k : BitVec 256) : unwrapKey (wrapKey k) = some k := by
  unfold unwrapKey wrapKey
  simp only [Equiv.symm_apply_apply]
  rw [append_upper, append_lower, if_pos (by decide)]

end Sys2Proof.Machine
end

