-- ==== Sys2Proof/Machine/Records.lean ====
section
/-! DEFINITION. The replay log and the hash windows (R334 to R337, R341). -/

namespace Sys2Proof.Machine

open Sys2Proof

/-- Size of the log ring in bytes. -/
def logRing : Nat := 2 ^ 40
/-- Size of the on-die buffer in bytes (R335). -/
def logBuffer : Nat := 2 ^ 26

/-- Records are being written (R334, R341). -/
def State.recording (s : State) : Bool := bitOf s.det.ctrl 2 && !s.det.full

/-- Requests of allotment `n` are recorded, as DET_CTRL and DET_REC_MASK stood before this count (R334, R472). -/
def State.recorded (s : State) (n : Nat) : Bool := bitOf s.old.det 2 && !s.det.full && bitOf s.old.mask n

/-- Append a record of `units` × 32 B while recording is on: into the buffer, or discarded and counted
when it has no room (R335); never across a 64 KiB boundary (R338); the ring overwrites its oldest records,
or recording stops (R334). -/
def State.record (s : State) (type flags allot queue : Nat) (stamp : Count) (detail : Nat) (pkt : Packet)
    (units n : Nat) : State :=
  if !s.recording && (s.det.full || !bitOf s.old.det 2) then s
  else
    let len := 32 * units
    let pad := if 65536 < s.det.tail % 65536 + len then 65536 - s.det.tail % 65536 else 0
    if logBuffer < s.det.buffered + pad + len then
      { s with det := { s.det with
          gaps := satAdd 32 s.det.gaps 1, overrun := true, gapOpen := s.det.gapOpen + 1 } }
    else
      let off := s.det.tail + pad
      let past := decide (logRing < off + len - s.det.head)
      if past && bitOf s.det.ctrl 4 then { s with det := { s.det with full := true } }
      else
        let log := s.det.log ++ [⟨off, type, flags, allot, queue, stamp, s.det.records,
          BitVec.ofNat 64 detail, pkt, units, n⟩]
        let log := if past then log.filter fun r => decide (off + len - logRing ≤ r.off) else log
        { s with det := { s.det with
            log := log, tail := off + len, buffered := s.det.buffered + pad + len
            records := s.det.records + 1, wrapped := s.det.wrapped || past
            head := if past then (match log with | r :: _ => r.off | [] => off) else s.det.head } }

/-- The part's configuration as bytes, in the order of R341 (the layout is the model's, assumption 15). -/
def State.configBytes (s : State) : Bytes :=
  leBytes 4 s.sec.fwVersion.toNat ++ s.plan.cur.rates.flatMap (leBytes 4) ++ leBytes 1 s.plan.cur.level ++
  (List.range 8).flatMap (fun p => leBytes 1 (s.hport p).rate ++ leBytes 1 (s.hport p).width) ++
  (List.range 4).flatMap (fun p => leBytes 1 (s.tport p).width) ++
  s.cod.slots.flatMap (fun (k, f32, l) => leBytes 2 k ++ [if f32 then 1 else 0] ++
    l.flatMap fun (x, n) => leBytes 1 x ++ leBytes 1 n) ++
  s.ext.tbl.flatMap (fun (e, x) => leBytes 2 e ++ leBytes 2 x.slot) ++
  s.spr.slots.flatMap (fun (k, m) => leBytes 1 k ++ m.flatMap fun (i, w) => leBytes 2 i ++ leBytes 4 w.toNat) ++
  [if bitOf s.det.ctrl 0 then 1 else 0]

/-- DET_CONFIG_DIGEST: 0 before the first plan (R341). -/
def State.configDigest (s : State) : Reg64 :=
  if s.plan.cur.ver = 0 then 0 else (Config.sha384 s.configBytes).setWidth 64

/-- Write a CONFIG record (R336). -/
def State.recordConfig (s : State) : State :=
  let d := s.configDigest
  ({ s with det := { s.det with digest := d } }).record 7 0 0 0xFFFF s.now d.toNat 0 1 0

/-- Record the configuration when its digest has changed (R336). -/
def State.digestUpdate (s : State) : State :=
  if s.configDigest = s.det.digest then s else s.recordConfig

/-! ### Hash windows (R337) -/

/-- Write the record of a window; an empty one writes none. -/
def State.hashRecord (s : State) (n : Nat) (start end_ : Count) (sum : BitVec 128) (count : Nat) : State :=
  if count = 0 ∨ !bitOf s.det.mask n then s
  else
    let body : BitVec 512 := BitVec.ofNat 512 (sum.toNat + at_ 128 64 count + at_ 192 64 end_)
    s.record 2 0 n 0xFFFF end_ start body 2 0

/-- A request of allotment `n` stamped within [lo, hi) has not ended (R12). -/
def State.hashPending (s : State) (n : Nat) (lo hi : Count) : Bool :=
  (s.waiting.any fun r => r.allot == n && !r.acked && decide (lo ≤ r.stamp) && decide (r.stamp < hi)) ||
  s.ties.any fun t => t.allot == n && decide (lo ≤ t.stamp) && decide (t.stamp < hi) &&
    (match t.what with | .host _ => true | .packet _ _ | .publish _ _ => false)

/-- Close allotment `n`'s hash window at count `c` and write its record, at once or when the requests stamped in it have
ended (R12, R337). -/
def State.hashClose (s : State) (n : Nat) (c : Count) : State :=
  let a := s.allot n
  if !a.hashOpen then s
  else
    let wait := s.hashPending n a.hashStart c
    let s := s.setAllot n { a with
      hashOpen := false, hashStart := 0, hashSum := 0, hashCount := 0
      hashLate := if wait then a.hashLate ++ [(a.hashStart, c, a.hashSum, a.hashCount)] else a.hashLate }
    if wait then s else s.hashRecord n a.hashStart c a.hashSum a.hashCount

/-- Windows past their end whose last request has ended are recorded. -/
def State.hashFlush (s : State) (n : Nat) : State :=
  let l := (s.allot n).hashLate
  if l.isEmpty then s
  else
    let go := l.filter fun (lo, hi, _, _) => !(s.hashPending n lo hi)
    let s := s.modAllot n fun a => { a with hashLate := a.hashLate.filter fun (lo, hi, _, _) => s.hashPending n lo hi }
    go.foldl (fun s (lo, hi, sum, k) => s.hashRecord n lo hi sum k) s

/-- Start of the time window that holds count `c`. -/
def State.hashBase (s : State) (c : Count) : Count :=
  let w := 2 ^ fld s.det.ctrl 8 6
  c / w * w

/-- The 80-byte string of a request. -/
def hashBytes (kind : Nat) (poison : Bool) (laddr : Nat) (v : Line) : Bytes :=
  leBytes 1 kind ++ [if poison then 1 else 0] ++ leBytes 6 laddr ++ leBytes 8 0 ++
    leBytes 64 (if poison then 0 else v.toNat)

/-- Put a digest into the window past its end that holds a stamp. -/
def lateAdd (stamp : Count) (d : BitVec 128) (l : List (Count × Count × BitVec 128 × Nat)) :
    List (Count × Count × BitVec 128 × Nat) :=
  l.map fun (lo, hi, sum, k) => if lo ≤ stamp ∧ stamp < hi then (lo, hi, sum + d, k + 1) else (lo, hi, sum, k)

/-- Open the time window of a stamp; a window whose end the stamp has passed closes first. -/
def State.hashWindow (s : State) (n : Nat) (stamp : Count) : State :=
  let b := s.hashBase stamp
  let a := s.allot n
  let s := if a.hashOpen && a.hashStart < b then s.hashClose n (a.hashStart + 2 ^ fld s.det.ctrl 8 6) else s
  let a := s.allot n
  if (a.hashOpen && decide (a.hashStart ≤ stamp)) ||
    a.hashLate.any fun (lo, hi, _, _) => decide (lo ≤ stamp) && decide (stamp < hi) then s
  else if a.hashOpen then s.modAllot n fun a => { a with hashLate := a.hashLate ++ [(b, b + 2 ^ fld s.det.ctrl 8 6, 0, 0)] }
  else s.modAllot n fun a => { a with hashOpen := true, hashStart := b, hashSum := 0, hashCount := 0 }

/-- Add a performed or poisoned request to the window of its stamp (R12, R337). -/
def State.hashAdd (s : State) (n kind : Nat) (poison : Bool) (laddr : Nat) (v : Line) (stamp : Count) : State :=
  if !s.recorded n then s
  else
    let s := if bitOf s.det.ctrl 3 then s else s.hashWindow n stamp
    let d : BitVec 128 := (Config.sha256 (hashBytes kind poison laddr v)).setWidth 128
    s.modAllot n fun a =>
      if a.hashOpen && decide (a.hashStart ≤ stamp) then { a with hashSum := a.hashSum + d, hashCount := a.hashCount + 1 }
      else { a with hashLate := lateAdd stamp d a.hashLate }

end Sys2Proof.Machine
end

