-- ==== Sys2Proof/Machine/Wire.lean ====
section
/-! DEFINITION. Tamian messages as the part sends them: size, route, requests and replies (R368, R372, R373). -/

namespace Sys2Proof.Machine

open Sys2Proof

/-! ### Tamian messages (R368, R372, R373) -/

/-- The part's own expander ID. -/
def State.myId (s : State) : Nat := fld s.tam.id 0 8
/-- The partner's expander ID. -/
def State.partnerId (s : State) : Nat := fld s.tam.id 16 8
/-- This part is the LEAD of its pair. -/
def State.isLead (s : State) : Bool := bitOf s.tam.id 9

/-- This part orders the shared-state commands of its pair: the LEAD, or the part that a partner returns to
(R386, R387). -/
def State.leads (s : State) : Bool := s.tam.pair == 5 || (s.tam.pair == 1 && s.isLead)

/-- The LEAD of the pair orders such commands for this part. -/
def State.follows (s : State) : Bool := s.tam.pair == 1 && !s.isLead

/-- Port and hop count of the route to a part; the partner is reached over T3 (R382). -/
def State.route (s : State) (dst : Nat) : Option (Nat × Nat) :=
  let b := fld (sget 0 s.tam.route (dst / 4)) (8 * (dst % 4)) 8
  if bitOf s.tam.id 8 && dst == s.partnerId then some (3, 1)
  else if dst != s.myId && b / 4 % 2 == 1 then some (b % 4, b / 8 % 8 + 1) else none

/-- Body bytes of a message: a page's are those of R379. -/
def tamBody (m : TamMsg) : Nat :=
  if m.type = 0x11 ∨ m.type = 0x12 ∨ m.type = 0x24 then
    if m.flags % 2 = 1 then
      320 + 64 * sumN ((List.range 64).map fun b => fld m.lens (4 * b) 4 + 1)
    else 320 + 65536
  else 8 * m.nums.length + 64 * m.lines.length

/-- Flits that a message takes. -/
def tamFlits (m : TamMsg) : Nat := ceilDiv (32 + tamBody m) 240

/-- Put a message on a port that is up. -/
def State.portSend (s : State) (p : Nat) (m : TamMsg) : State :=
  if (s.tport p).up then
    (s.modTport p fun t => { t with sent := (t.sent + tamFlits m) % 4096 }).emit (.tam p m)
  else s

/-- Send a message by the route table; without a route NO_ROUTE is recorded. -/
def State.tamSend (s : State) (m : TamMsg) : State :=
  match s.route m.dst with
  | some (p, _) => s.portSend p m
  | none => s.tamBit 3

/-- A message of this part. -/
def State.message (s : State) (type cls dst tag addr : Nat) (nums : List Nat) : TamMsg :=
  { type := type, flags := 0, cls := cls, hops := 8, src := s.myId, dst := dst, status := 0, tag := tag,
    addr := addr, nums := nums, lines := [], lens := 0 }

/-- Page messages that a port admits at once (R380). -/
def pagePlaces : Nat := 256

/-- PAGE_READs under way on a port. -/
def State.pagesOn (s : State) (p : Nat) : Nat :=
  s.tam.waits.countP fun w => w.type == 0x10 && !(s.tam.held.any fun m => m.tag == w.tag) &&
    (s.route w.dst).any fun r => r.1 == p

/-- A PAGE_READ leaves where its port has a place for it; one without a route leaves as any message does. -/
def State.pageRoom (s : State) (dst : Nat) : Bool := (s.route dst).all fun r => decide (s.pagesOn r.1 < pagePlaces)

/-- Send a request that waits for a reply; answers its tag. A PAGE_READ waits for a place on its port (R380). -/
def State.tamRequest (s : State) (m : TamMsg) (ext page : Nat) (cmd : Option Nat) : Nat × State :=
  let tag := s.tam.nextTag % 65536
  let room := m.type != 0x10 || s.pageRoom m.dst
  let m := { m with tag := tag }
  let s := { s with tam := { s.tam with
    nextTag := tag + 1, waits := s.tam.waits ++ [TamWait.mk tag m.type m.dst ext page cmd s.now] } }
  (tag, if room then s.tamSend m else { s with tam := { s.tam with held := s.tam.held ++ [m] } })

/-- The first PAGE_READ that waits for a place and now has one leaves (R380). -/
def State.sendHeld (s : State) : State :=
  match s.tam.held.find? fun m => s.pageRoom m.dst with
  | none => s
  | some m => ({ s with tam := { s.tam with held := s.tam.held.filter (· != m) } }).tamSend m

/-- Answer a message. -/
def State.tamReply (s : State) (m : TamMsg) (type status : Nat) (nums : List Nat) : State :=
  s.tamSend { s.message type m.cls m.src m.tag m.addr nums with flags := 2, status := status }

end Sys2Proof.Machine
end

