-- ==== Sys2Proof/Machine/Plan.lean ====
section
/-! DEFINITION. The margin plan: planned rates and command capacities, plan versions, PLAN_CHANGE,
reservation cuts, and the ledgers' rates over time (R39 to R52, R225 to R236, R415, R476). -/

namespace Sys2Proof.Machine

open Sys2Proof

/-- Notice of a shrinking plan: 10 s (R49). -/
def notice : Nat := 10 ^ 10

/-- Ceilings of R415 in eighths of the P0 rate, by level, for the nine resources. -/
def levelCeil : Nat → List Nat
  | 0 => [8, 8, 8, 8, 8, 8, 8, 8, 8]
  | 1 => [8, 8, 8, 5, 7, 8, 8, 8, 8]
  | 2 => [6, 8, 4, 3, 5, 8, 8, 8, 8]
  | _ => [4, 6, 2, 1, 3, 8, 8, 8, 8]

/-- Engines that the life record did not list as retired at start-up; the lowest 32 are active and the others spares
(R190). -/
def engineSlots (atStart : List Nat) : List Nat := (List.range 36).filter fun e => !atStart.contains e

/-- Roles, by their place among the active engines of start-up, in the order that MISS takes them: position 3 of groups
0 to 7, then 2, 1 and 0 (R190). -/
def missOrder (atStart : List Nat) : List Nat :=
  let act := (engineSlots atStart).take 32
  let l := ((List.range 4).flatMap fun k => (List.range 8).map fun g => 4 * g + (3 - k)).filter act.contains
  (l ++ act.filter fun e => !l.contains e).map act.idxOf

/-- The engine that holds each role after the retirements in order, the first `boot` of them before start-up; a retired
engine's role passes to the lowest-numbered spare (R199). -/
def roleHolders (retired : List Nat) (boot : Nat) : List (Option Nat) :=
  ((retired.drop boot).foldl (fun (acc : List (Option Nat) × List Nat) e =>
    let (hold, spare) := acc
    match spare.filter (· != e) with
    | x :: rest =>
      if hold.contains (some e) then (hold.map fun h => if h == some e then some x else h, rest)
      else (hold, x :: rest)
    | [] => (hold.map fun h => if h == some e then none else h, []))
    (((engineSlots (retired.take boot)).take 32).map some, (engineSlots (retired.take boot)).drop 32)).1

/-- Active engines (R190). -/
def State.activeEngines (s : State) : Nat := (roleHolders s.mxe.retired s.mxe.boot).countP (·.isSome)

/-- MISS count in force under a plan's setting (R190, R199). -/
def State.missCount (s : State) (miss : Nat) : Nat :=
  let n := s.activeEngines
  if n = 0 then 0 else if n ≤ miss then n - 1 else miss

/-- Engines with a MISS role under a plan's setting: the first roles in order that have an engine (R190). -/
def State.missEngineList (s : State) (miss : Nat) : List Nat :=
  let hold := roleHolders s.mxe.retired s.mxe.boot
  ((missOrder (s.mxe.retired.take s.mxe.boot)).filterMap fun i => hold.getD i none).take (s.missCount miss)

/-- Engines with a COMMAND role (R190). -/
def State.commandEngines (s : State) : List Nat :=
  let miss := s.missEngineList s.plan.cur.miss
  ((roleHolders s.mxe.retired s.mxe.boot).filterMap id).filter fun e => !miss.contains e

/-- Retired cores of a plot beyond its four spares leave logical positions without a core (R216). -/
def State.lostPositions (s : State) (plot : Nat) : Nat :=
  (s.spr.retired.filter fun c => c / 132 == plot).length - 4

/-- Lost positions of the slowest plot (R216). -/
def State.worstPlot (s : State) : Nat := maxN 0 ((List.range 32).map s.lostPositions)

/-- Dies retired, those whose images are still being rebuilt included. -/
def State.retiredDies (s : State) : Nat := (s.fls.dies.filter fun (_, d) => d.st != 0).length

/-- Rate of a Tamian port by its width: 56 B per CC at x8, half of it at x4, none while it is down,
untrained or retired, and none on T3 from the loss of the partner to its return (R371, R369, R385, R387). -/
def State.portFactor (s : State) (p r : Nat) : Nat :=
  let t := s.tport p
  if t.retired || !t.up || (p == 3 && (s.tam.pair == 2 || s.tam.pair == 5)) then 0
  else if t.width = 2 then Nat.min r 896 else if t.width = 1 then Nat.min r 896 / 2 else 0

/-- The rate that the hardware which is left gives resource `i`, from its measured rate. -/
def State.hwRate (s : State) (miss i r : Nat) : Nat :=
  match i with
  | 0 => r * (72 - s.drm.retired.length) / 72
  | 3 => r * (s.activeEngines - s.missCount miss)
  | 4 => r * (128 - s.worstPlot) / 128
  | i =>
    if 5 ≤ i then s.portFactor (i - 5) r
    else
      let r := if s.retiredDies = 0 then r else Config.flashRate i s.retiredDies r
      if i = 2 ∧ s.plan.holdup != 0 then Config.holdupRate s.plan.holdup r else r

/-- Planned rate of resource `i` at a level (R39, R283, R415, R433). -/
def State.rateOf (s : State) (level limit miss : Nat) (stages : Sparse Nat) (i : Nat) : Nat :=
  let at' (l : Nat) := s.hwRate miss i (nth (s.plan.meas.rates.getD l []) i)
  let lim := if limit = 0 then 1000 else limit
  let r := Nat.min (8 * at' level) (at' 0 * nth (levelCeil level) i) * lim / 8000
  if stages.isEmpty then r
  else Config.stageRate (stages.map fun (k, v) => (k, BitVec.ofNat 32 v)) i r

/-- Load/store allowance in 1/16 B per CC (R225). -/
def allowOf (gddr ls : Nat) : Nat := Nat.max (gddr * ls / 1000) 1280

/-- Command capacities of a list of planned rates (R225). -/
def capsOf (rates : List Nat) (ls : Nat) : List Nat :=
  let fill := nth rates 1 + nth rates 2 + nth rates 5 + nth rates 6 + nth rates 7 + nth rates 8
  (nth rates 0 - allowOf (nth rates 0) ls - fill) :: rates.drop 1

/-- Planned rates that this part's own hardware gives for the settings of `b`. -/
def State.ownRates (s : State) (b : Plan) : List Nat :=
  (List.range 9).map fun i => s.rateOf b.level (nth b.limits i) b.miss b.stages i

/-- One plan for a pair: the states in which the lower of both parts' rates applies (R441). -/
def State.onePlan (s : State) : Bool := s.tam.pair == 1 || s.tam.pair == 4 || s.tam.pair == 5

/-- Send the rates of a plan that this part has computed to its partner (R441). -/
def State.sendRates (s : State) (b : Plan) : State :=
  if s.onePlan then s.portSend 3 (s.message 0x22 0 s.partnerId 0 0 (0 :: s.ownRates b)) else s

/-- Terms of the promise formula (R42): t_path, t_ladle, and the allowance for flash-tier data that is not resident. -/
def tPath : Nat := 1600
@[inherit_doc tPath] def tLadle : Nat := 9000
@[inherit_doc tPath] def tFlash : Nat := 400000

/-- Planned pace of a predicted one: less the guard of 3% (R39; rounded down, assumption 82). -/
def guarded (p : BitVec 16) : BitVec 16 := BitVec.ofNat 16 (p.toNat * 97 / 100)

/-- DELAY + 16 × THROTTLE of the PRT_STAGE entries that name one of these points (R433). -/
def stageExtra (stages : Sparse Nat) (points : List Nat) : Nat :=
  sumN (stages.map fun (_, v) =>
    if points.contains (v % 256) then v / 256 % 256 + 16 * (v / 65536 % 16) else 0)

/-- Bounds of R25 with the extensions of R433: read and write of a PINNED extent, a page that is not resident, a tile in
the cache, and a synthesis miss of rank up to 256 (points of each path: assumption 82). -/
def boundsOf (stages : Sparse Nat) : List Nat :=
  let path := [2, 3, 4, 5, 6, 7, 8, 0x10]
  [1600 + stageExtra stages path, 1200 + stageExtra stages path, 400000 + stageExtra stages (0x14 :: path),
    1600 + stageExtra stages path, 4100 + stageExtra stages (0x13 :: path)]

/-- A plan with the settings of `b`, computed on the hardware as it stands (R39, R40, R225), at the lower rates of
both parts of a pair (R441). -/
def State.compute (s : State) (b : Plan) : Plan :=
  let own := s.ownRates b
  let rates := if s.onePlan && !s.tam.peerRates.isEmpty then List.zipWith Nat.min own s.tam.peerRates else own
  { b with
    rates := rates, caps := capsOf rates b.lsShare, allow := allowOf (nth rates 0) b.lsShare,
    paces := (s.plan.meas.paces.getD b.level []).map guarded, ladle := 4096, bounds := boundsOf b.stages,
    terms := [tPath, tLadle, tFlash] }

/-- Command capacity of resource `i` in force; every capacity of a FENCED part is 0 (R225, R385). -/
def State.cap (s : State) (i : Nat) : Nat := if s.tam.pair = 3 then 0 else nth s.plan.cur.caps i

/-! ### Classes and reservations (R222, R236) -/

/-- Kind of class `c` (R222). -/
def State.kind (s : State) (c : Nat) : Nat := fld (sget 0 s.col.cls c) 0 2
/-- Priority of class `c` (R237). -/
def State.prio (s : State) (c : Nat) : Nat := fld (sget 0 s.col.cls c) 4 3
/-- Kind and priority of class `c` for what is stamped at the present count (R224, R472). -/
def State.kindNow (s : State) (c : Nat) : Nat := fld (sget 0 s.old.cls c) 0 2
@[inherit_doc State.kindNow] def State.prioNow (s : State) (c : Nat) : Nat := fld (sget 0 s.old.cls c) 4 3
/-- LS_BUDGET and CMD_BUDGET of allotment `n` in class `c` for what is stamped at the present count (R224, R472). -/
def State.lsBudgetNow (s : State) (n c : Nat) : Nat := fld (sget 0 s.old.budget (16 * n + c)) 0 12
@[inherit_doc State.lsBudgetNow] def State.cmdBudgetNow (s : State) (n c : Nat) : Nat :=
  fld (sget 0 s.old.budget (16 * n + c)) 16 12
/-- LS_BUDGET of allotment `n` in class `c` (R237). -/
def State.lsBudget (s : State) (n c : Nat) : Nat := fld (sget 0 s.col.budget (16 * n + c)) 0 12
/-- Guaranteed draw in 1/16 B per CC: 8 B per CC for each unit of guaranteed LS_BUDGET (R226). -/
def State.draw (s : State) : Nat :=
  sumN (s.col.budget.map fun (k, v) => if s.kind (k % 16) = 2 then 128 * fld v 0 12 else 0)

/-- Rate that a reservation holds on `i`, changes still to come included (R233). -/
def Reservation.heldRate (r : Reservation) (i : Nat) : Nat :=
  maxN (nth r.rates i) ((r.next.filter fun (j, _) => j == i).map fun (_, v, _) => v)

/-- Sum of every reservation held on `i` (R233). -/
def State.resSum (s : State) (i : Nat) : Nat := sumN (s.col.res.map (·.heldRate i))

/-- The reservation of an allotment in a class. -/
def State.reservation (s : State) (n c : Nat) : Option Reservation :=
  s.col.res.find? fun r => r.allot == n && r.cls == c

/-- `a` is cut before `b`: ascending class priority, then descending allotment, then descending class
(R236). -/
def State.cutBefore (s : State) (a b : Nat × Nat) : Bool :=
  let pa := s.prio a.2
  let pb := s.prio b.2
  decide (pa < pb) || (pa == pb && (decide (b.1 < a.1) || (a.1 == b.1 && decide (b.2 < a.2))))

/-- Insert by a strict order. -/
def insBy {α : Type} (lt : α → α → Bool) (x : α) : List α → List α
  | [] => [x]
  | y :: l => if lt x y then x :: y :: l else y :: insBy lt x l

/-- Sort by a strict order. -/
def sortBy {α : Type} (lt : α → α → Bool) : List α → List α
  | [] => []
  | x :: l => insBy lt x (sortBy lt l)

/-- Cut a share on resource `i` to at most `r`, changes still to come included. -/
def Reservation.limitTo (v : Reservation) (i r : Nat) : Reservation :=
  { v with
    rates := setNth v.rates i (Nat.min (nth v.rates i) r)
    next := v.next.map fun (j, x, e, p) => if j = i then (j, Nat.min x r, e, p) else (j, x, e, p) }

/-- Cut reservations in order on resource `i` until `need` is taken. -/
def cutList (i : Nat) : Nat → List Reservation → List Reservation
  | _, [] => []
  | need, v :: l =>
    let h := v.heldRate i
    let take := Nat.min h need
    v.limitTo i (h - take) :: cutList i (need - take) l

/-- Reservations after the cuts that restore the ceiling of R233 on every resource (R236). -/
def State.cutRes (s : State) (caps : List Nat) : List Reservation :=
  let sorted := sortBy (fun a b => s.cutBefore (a.allot, a.cls) (b.allot, b.cls)) s.col.res
  (List.range 9).foldl (fun l i =>
    cutList i (sumN (l.map (·.heldRate i)) - 9 * nth caps i / 10) l) sorted

/-- Cut guaranteed LS_BUDGETs by whole units, in order, until the draw is at most 90% of the
allowance (R226, R236). -/
def cutBudgets : Nat → List (Nat × Nat × Nat) → Sparse Reg32 → Sparse Reg32
  | _, [], b => b
  | 0, _, b => b
  | excess, (n, c, u) :: l, b =>
    let take := Nat.min u (ceilDiv excess 1280)
    let k := 16 * n + c
    cutBudgets (excess - 1280 * take) l (sput 0 b k (setFld (sget 0 b k) 0 12 (u - take)))

/-- Budgets after the cuts of R236 for an allowance. -/
def State.cutBudget (s : State) (allow : Nat) : Sparse Reg32 :=
  let l := (s.col.budget.map fun (k, v) => (k / 16, k % 16, fld v 0 12)).filter
    fun (_, c, u) => s.kind c == 2 && u != 0
  let l := sortBy (fun (a : Nat × Nat × Nat) b => s.cutBefore (a.1, a.2.1) (b.1, b.2.1)) l
  cutBudgets (10 * s.draw - 9 * allow) l s.col.budget

/-- Apply both cuts of R236 for the plan in force; a reservation with no rate left ceases to exist
(R235). -/
def State.applyCuts (s : State) (withRes : Bool) : State :=
  let b := s.cutBudget s.plan.cur.allow
  let r := if withRes then s.cutRes s.plan.cur.caps else s.col.res
  let changed := b != s.col.budget || (withRes && (List.range 9).any fun i =>
    sumN (r.map (·.heldRate i)) != s.resSum i)
  let r := if changed && withRes then
      r.filter fun v => (List.range 9).any fun i => v.heldRate i != 0
    else s.col.res
  { s with col := { s.col with budget := b, res := r, cutDone := s.col.cutDone || changed } }

/-- The announced plan, or the retirement whose cut is still to come, will cut something (R237). -/
def State.cutPending (s : State) : Bool :=
  let will (p : Plan) : Bool :=
    s.cutBudget p.allow != s.col.budget ||
      (List.range 9).any fun i => sumN ((s.cutRes p.caps).map (·.heldRate i)) != s.resSum i
  match s.plan.pend with
  | some p => will p
  | none => !s.plan.cutAt.isEmpty && will s.plan.cur

/-! ### PLAN_CHANGE (R48, R49, R52, R255) -/

/-- Allotments that a PLAN_CHANGE reaches: those that hold a reservation or an admitted command, and,
with notice, those whose guaranteed LS_BUDGET draws on the allowance (R48, R49). -/
def State.planReceivers (s : State) (withNotice : Bool) : List Nat :=
  (List.range 64).filter fun n =>
    s.col.res.any (·.allot == n) || s.cmds.any (·.allot == n) ||
    (withNotice && (List.range 16).any fun c => s.kind c == 2 && s.lsBudget n c != 0)

/-- The PLAN_CHANGE group of an allotment (R52, R255). -/
def State.planGroup (s : State) (p : Plan) (eff : Count) (after : List Reservation) (n : Nat) :
    List EventEntry :=
  let cls := sortBy (fun (a b : Nat) => decide (a < b))
    ((s.col.res.filter (·.allot == n)).map (·.cls))
  let head := eventEntry 1 s.now [(16, 2, p.ver), (18, 1, p.cause), (19, 1, cls.length),
    (20, 2, s.plan.cur.ver), (24, 8, eff)]
  head :: cls.map fun c =>
    let rate i := match after.find? fun r => r.allot == n && r.cls == c with
      | some r => r.heldRate i
      | none => 0
    eventEntry 2 s.now ((16, 1, c) :: (List.range 9).map fun i => (20 + 4 * i, 4, rate i))

/-- Post the PLAN_CHANGE of a plan (R48, R49, R50). -/
def State.postPlan (s : State) (p : Plan) (eff : Count) (withNotice : Bool)
    (after : List Reservation) : State :=
  (s.planReceivers withNotice).foldl (fun t n => t.postGroup n (s.planGroup p eff after n)) s

/-! ### Versions (R47, R476) -/

/-- Mark the pending version as withdrawn in the life record (R476). -/
def State.withdraw (s : State) : State :=
  match s.plan.pend with
  | none => s
  | some p =>
    { s with plan := { s.plan with
        pend := none
        versions := s.plan.versions.map fun (v, e, c, w) => if v = p.ver then (v, e, c, true) else (v, e, c, w) } }

/-- Take the next version number; 0xFFFF wraps to 1 (R47). -/
def State.newVersion (s : State) (cause : Nat) (eff : Count) : Nat × State :=
  let v := s.plan.last % 65535 + 1
  (v, { s with plan := { s.plan with last := v, versions := s.plan.versions ++ [(v, eff, cause, false)] } })

/-- A plan comes into force (R48, R49 step 4, R417); the replay log records it (R336). -/
def State.inForce (s : State) (p : Plan) : State :=
  let s := { s with plan := { s.plan with cur := p, stepping := false },
                    pwr := { s.pwr with level := p.level } }
  (s.record 4 0 0 0xFFFF p.effective (at_ 0 16 p.ver + at_ 16 8 p.cause) 0 1 0).digestUpdate

/-- A planned rate or command capacity of `p` is lower than in `q`. -/
def Plan.shrinks (p q : Plan) : Bool :=
  (List.range 9).any fun i => decide (nth p.rates i < nth q.rates i) || decide (nth p.caps i < nth q.caps i)

/-- No rate, command capacity or level differs (R283). -/
def Plan.same (p q : Plan) : Bool := p.rates == q.rates && p.caps == q.caps && p.level == q.level

/-- Earliest count at which the work in the ledgers fits the plan: the latest horizon on a resource
that shrinks (R49; DEDUCED, assumption 9). -/
def State.fitCount (s : State) (p : Plan) : Count :=
  maxN 0 ((List.range 9).map fun i =>
    if nth p.caps i < nth s.plan.cur.caps i then
      maxN (s.col.pool.getD i 0) (s.col.res.map fun r => r.horizons.getD i 0)
    else 0)

/-- Settings that a new plan starts from: those of the pending plan, else those in force (R476). -/
def State.planBase (s : State) : Plan := s.plan.pend.getD s.plan.cur

/-- Issue a plan of a cause other than RETIREMENT with settings `b` (R48, R49, R476); a lowering of the level always has
its notice (R417). `keep` holds the
effective count that a re-formed plan keeps unless the ledgers require a later one. -/
def State.issueAs (s : State) (cause : Nat) (b : Plan) (keep : Option Count) : State :=
  let s := s.withdraw
  let p := s.compute b
  if p.shrinks s.plan.cur || (cause == 1 && decide (s.plan.cur.level < p.level)) then
    let eff := match keep with
      | some e => Nat.max e (s.fitCount p)
      | none => Nat.max (s.now + notice) (s.fitCount p)
    let (v, s) := s.newVersion cause eff
    let p := { p with ver := v, cause := cause, effective := eff }
    let s := { s with plan := { s.plan with pend := some p } }
    (s.postPlan p eff true (s.cutRes p.caps)).sendRates b
  else
    let (v, s) := s.newVersion cause s.now
    let p := { p with ver := v, cause := cause, effective := s.now }
    let s' := s.inForce p
    let s' := s'.postPlan p s.now false s'.col.res
    (s'.applyCuts false).sendRates b

/-- Issue a plan with changed settings (R476). -/
def State.issue (s : State) (cause : Nat) (f : Plan → Plan) : State :=
  s.issueAs cause (f s.planBase) none

/-- A plan with cause RETIREMENT: at once, reservations intact until the announced count; a pending
plan is formed again with the retirement included (R50, R476). No plan before the first one. -/
def State.retirePlan (s : State) : State :=
  if s.plan.cur.ver = 0 then s
  else
    let old := s.plan.pend
    let s := s.withdraw
    let eff := s.now + notice
    let (v, s) := s.newVersion 3 eff
    let p := { s.compute s.plan.cur with ver := v, cause := 3, effective := eff }
    let s := s.inForce p
    let s := { s with plan := { s.plan with cutAt := s.plan.cutAt ++ [eff] } }
    let s := (s.postPlan p eff true (s.cutRes p.caps)).sendRates s.plan.cur
    match old with
    | none => s
    | some q => s.issueAs q.cause q (some q.effective)

/-- A plan that GROWTH, AGEING or a change of settings brings, once a first plan is in force. -/
def State.issueLive (s : State) (cause : Nat) (f : Plan → Plan) : State :=
  if s.plan.cur.ver = 0 then s else s.issue cause f

/-- POWER_SET to level `l` (R417): nothing when `l` is in force and no change of level is pending. -/
def State.powerSet (s : State) (l : Nat) : State :=
  if l = s.plan.cur.level ∧ s.planBase.level = l then s
  else s.issueLive 1 fun b => { b with level := l }

/-- Version and effective count that PLAN_SET, POWER_SET and REPLAN report (R283). -/
def State.planReport (s : State) : Nat × Count :=
  let p := s.planBase
  (p.ver, p.effective)

/-! ### Ledger rates over time (R42, R49, R229, R234) -/

/-- Count by which work of `d` units from count `h` is done at a rate that changes only at the given
rising counts; none when the rate stays 0. -/
def finish (rate : Count → Nat) : List Count → Count → Nat → Option Count
  | [], h, d => if d = 0 then some h else if rate h = 0 then none else some (h + ceilDiv d (rate h))
  | b :: bs, h, d =>
    if b ≤ h then finish rate bs h d
    else if d ≤ rate h * (b - h) then some (h + ceilDiv d (rate h))
    else finish rate bs b (d - rate h * (b - h))

/-- What a reservation takes from the pool of `i` at `t` (R234). -/
def Reservation.poolAt (r : Reservation) (i : Nat) (t : Count) : Nat :=
  r.next.foldl (fun v (j, x, _, p) => if j = i ∧ p ≤ t then x else v) (nth r.rates i)

/-- Rate of a share for new promises at `t` (R234, R49 step 3). -/
def State.shareAt (s : State) (r : Reservation) (i : Nat) (t : Count) : Nat :=
  let v := r.next.foldl (fun v (j, x, e, _) => if j = i ∧ e ≤ t then x else v) (nth r.rates i)
  match s.plan.pend with
  | some p =>
    if p.effective ≤ t then
      match (s.cutRes p.caps).find? fun c => c.allot == r.allot && c.cls == r.cls with
      | some c => Nat.min v (c.heldRate i)
      | none => v
    else v
  | none => v

/-- What reservations leave of a command capacity at `t` (R229). -/
def poolOf (cap : Nat) (res : List Reservation) (i : Nat) (t : Count) : Nat :=
  cap - sumN (res.map fun r => r.poolAt i t)

/-- Rate of the unreserved pool of `i` at `t` (R229); from an announced plan's effective count on, the lower of
the pool in force and the pool after the announced cuts (R49 step 3). -/
def State.poolAt (s : State) (i : Nat) (t : Count) : Nat :=
  let old := poolOf (s.cap i) s.col.res i t
  match s.plan.pend with
  | some p => if p.effective ≤ t then Nat.min old (poolOf (nth p.caps i) (s.cutRes p.caps) i t) else old
  | none => old

/-- Counts at which a ledger's rate changes, rising. -/
def State.breaks (s : State) : List Count :=
  let l := (match s.plan.pend with | some p => [p.effective] | none => []) ++
    s.col.res.flatMap fun r => r.next.flatMap fun (_, _, e, p) => [e, p]
  sortBy (fun (a b : Nat) => decide (a < b)) l

end Sys2Proof.Machine
end

