-- ==== Sys2Proof/Machine/Operands.lean ====
section
/-! DEFINITION. The command packet and the completion entry: their fields, and the operand forms the
opcodes share (R34, R35, R36, R244, R246, R263). -/

namespace Sys2Proof.Machine

open Sys2Proof

/-- `n` bytes of a packet from byte `o`, little-endian (R4, R244). -/
def pk (p : Packet) (o n : Nat) : Nat := bytesN p o n

/-- Bytes `o` to `o + n - 1` of a packet are zero (R5). -/
def pkZero (p : Packet) (o n : Nat) : Bool := pk p o n == 0

/-- OPCODE. -/
def pkOp (p : Packet) : Nat := pk p 0 1
/-- FLAGS bit `i`. -/
def pkFlag (p : Packet) (i : Nat) : Bool := bitOf p (8 + i)
/-- Class label. -/
def pkClass (p : Packet) : Nat := fld p 16 4
/-- TAG. -/
def pkTag (p : Packet) : Nat := pk p 4 4
/-- DEADLINE field. -/
def pkDeadline (p : Packet) : Nat := pk p 8 6
/-- SEQ. -/
def pkSeq (p : Packet) : Nat := pk p 14 2
/-- LAUNCH field. -/
def pkLaunch (p : Packet) : Nat := pk p 16 6

/-- The row's opcode stands in byte 0. -/
def withOp (p : Packet) (op : Nat) : Packet := setFld p 0 8 op

/-- A reserved header bit is non-zero (R244, R36). -/
def headReserved (p : Packet) : Bool :=
  fld p 13 3 != 0 || fld p 20 12 != 0 || !pkZero p 22 2 || (!pkFlag p 3 && pkLaunch p != 0)

/-- The deadline of R35; none where it refuses the command. -/
def deadlineOf (p : Packet) (stamp : Count) : Option Count :=
  if pkFlag p 2 then if pkDeadline p < 2 ^ 47 then some (stamp + pkDeadline p) else none
  else if pkDeadline p = 0 then some (stamp + 2 ^ 44)
  else some (expand48 stamp (pkDeadline p))

/-- The effective count: the launch count where it lies after the stamp, else the stamp; none where
R36 refuses the command. -/
def launchOf (p : Packet) (stamp : Count) : Option Count :=
  if pkFlag p 3 then
    let l := expand48 stamp (pkLaunch p)
    if stamp + 2 ^ 40 < l then none else some (Nat.max stamp l)
  else some stamp

/-- RESULT bytes 20–31 from fields (offset in the entry, bytes, value) (R246). -/
def result (l : List (Nat × Nat × Nat)) : BitVec 96 :=
  BitVec.ofNat 96 (l.foldl (fun v (o, n, x) => v + at_ (8 * (o - 20)) (8 * n) x) 0)

/-- A completion entry before COMPLETED and PHASE are known (R246). -/
def entryOf (tag status : Nat) (changed poison : Bool) (plan : Nat) (promise : Count)
    (res : BitVec 96) : Completion :=
  BitVec.ofNat 256 (at_ 0 32 tag + at_ 32 8 status + atB 41 changed + atB 42 poison +
    at_ 48 16 plan + at_ 64 48 promise + res.toNat <<< 160)

/-- A multiple of 64 B (R263). -/
def gran (v : Nat) : Bool := v % 64 == 0

/-- Units of 2 MiB. -/
def mib2 : Nat := 2097152

/-- Bytes of a 64 KiB page. -/
def pageBytes : Nat := 65536

/-- What an opcode's checks give the Colander to judge (R42, R228). -/
structure Want where
  /-- demand on the nine resources in R230 units times CC. -/
  dem : List Nat := List.replicate 9 0
  tOp : Nat := 0
  /-- least `s` of R42 (FENCE, REVOKE, WAIT_COUNT). -/
  sMin : Count := 0
  /-- a ledger of its own: horizon and demand at 1 CC per CC (R97). -/
  ledger : Count × Nat := (0, 0)
  /-- a promise that is set by its own rule (R234). -/
  promise : Option Count := none
  reads : List (Nat × Nat) := []
  writes : List (Nat × Nat) := []
  exts : List Nat := []
  vers : List (Nat × Nat) := []
  left : List Nat := []
  stations : List Nat := []
  args : List Line := []
  aux : List Nat := []
  covers : List Nat := []
  /-- shadow frames that R92 cannot reserve. -/
  noRoom : Option (BitVec 96) := none
  deriving DecidableEq, Repr

/-- Outcome of an opcode's own checks (R261 step 5). -/
inductive Verdict where
  | refuse (status : Nat) (res : BitVec 96)
  | ok (w : Want)
  deriving DecidableEq, Repr

/-- Refuse with a zero result. -/
def refuse (status : Nat) : Verdict := .refuse status 0

/-- The first failing check decides (R261). -/
def firstFail : List (Bool × Nat) → Verdict → Verdict
  | [], v => v
  | (true, st) :: _, _ => refuse st
  | (false, _) :: l, v => firstFail l v

/-- Demand with `v` on resource `i` only. -/
def demand (l : List (Nat × Nat)) : List Nat :=
  (List.range 9).map fun i => sumN ((l.filter fun (j, _) => j == i).map (·.2))

end Sys2Proof.Machine
end

