-- ==== Sys2Proof/Machine/Colander.lean ====
section
/-! DEFINITION. The Colander: classes and budgets, the load/store meter, admission and promises
(R42, R43, R220 to R229, R286). -/

namespace Sys2Proof.Machine

open Sys2Proof

/-! ### In-budget counts (R223) -/

/-- Count of in-budget loads, stores and peer requests. -/
def State.lsCount (s : State) (k : Nat) : Nat := sget 0 s.col.ls k
/-- Count of in-budget commands. -/
def State.cmdCount (s : State) (k : Nat) : Nat := sget 0 s.col.cmd k
/-- Change the LS count of `k = 16n + c`. -/
def State.setLs (s : State) (k v : Nat) : State := { s with col := { s.col with ls := sput 0 s.col.ls k v } }
/-- Change the CMD count of `k = 16n + c`. -/
def State.setCmdCount (s : State) (k v : Nat) : State :=
  { s with col := { s.col with cmd := sput 0 s.col.cmd k v } }
/-- Leave a CMD count. -/
def State.leaveCmd (s : State) : Option Nat → State
  | some k => s.setCmdCount k (s.cmdCount k - 1)
  | none => s
/-- Count a demotion (R237). -/
def State.countDemoted (s : State) : State :=
  { s with col := { s.col with demoted := satAdd 32 s.col.demoted 1 } }

/-- The request's class decision as it leaves stage 3, under the kind, priority and budget of its stamp: priority,
demotion, in-budget count; a demoted request stays demoted (R223, R224). -/
def State.classify (s : State) (r : HostReq) : HostReq × State :=
  let k := 16 * r.allot + r.cls
  if r.kd = 0 ∨ r.kd = 3 then ({ r with eff := 0, demoted := false, inBudget := false }, s)
  else if r.demoted then (r, s)
  else if s.lsCount k < r.budget then
    ({ r with eff := r.pr, demoted := false, inBudget := true }, s.setLs k (s.lsCount k + 1))
  else ({ r with eff := 0, demoted := true, inBudget := false }, s.countDemoted)

/-- The request ends: it leaves its in-budget count (R223). -/
def State.leaveLs (s : State) (r : HostReq) : State :=
  if r.inBudget then
    let k := 16 * r.allot + r.cls
    s.setLs k (s.lsCount k - 1)
  else s

/-! ### The meter (R227) -/

/-- Charge by codec, in 1/16 B (R227). -/
def meterCharge (codec : Nat) : Int :=
  if codec = 1 then 16384 else if codec = 2 ∨ codec = 3 ∨ codec = 4 then 2048 else 1024

/-- Subtract a request's charge. -/
def State.chargeMeter (s : State) (codec : Nat) : State :=
  { s with col := { s.col with meter := s.col.meter - meterCharge codec } }

/-- A request waits at the meter (R237). -/
def State.meterHeld (s : State) : Bool := s.waiting.any fun r => r.wait == .meter

/-- The request passes the meter unmetered: in budget, GUARANTEED, PINNED (R227). -/
def State.exempt (s : State) (r : HostReq) (pinned : Bool) : Bool :=
  r.kd == 2 && pinned && decide (s.lsCount (16 * r.allot + r.cls) < r.budget)

/-! ### Promises (R42) -/

/-- The share of resource `i` that carries a command's demand: its reservation when there is one with
a rate (R228). -/
def State.useShare (s : State) (allot cls : Nat) (inBudget : Bool) (at_ : Count) (i : Nat) :
    Option Reservation :=
  if s.kindNow cls = 2 && inBudget then
    (s.reservation allot cls).filter fun r => decide (0 < s.shareAt r i at_)
  else none

/-- Count by which demand `d` on resource `i` is done after `c`, at the share's planned rate (R42). -/
def State.shareDone (s : State) (share : Option Reservation) (i : Nat) (c d : Nat) : Option Count :=
  match share with
  | some r => finish (s.shareAt r i) s.breaks (Nat.max (r.horizons.getD i 0) c) d
  | none => finish (s.poolAt i) s.breaks (Nat.max (s.col.pool.getD i 0) c) d

/-- Set the horizon of a share (R43). -/
def State.setHorizon (s : State) (share : Option Reservation) (i : Nat) (f : Count) : State :=
  match share with
  | some r =>
    { s with col := { s.col with res := s.col.res.map fun v =>
        if v.allot = r.allot ∧ v.cls = r.cls then { v with horizons := setNth v.horizons i f } else v } }
  | none => { s with col := { s.col with pool := setNth s.col.pool i f } }

/-- Finishing counts of every demanded resource: resource, share, count; none when a share has no rate
left (assumption 10). -/
def State.finishes (s : State) (allot cls : Nat) (inBudget : Bool) (c : Count) (dem : List Nat) :
    Option (List (Nat × Option Reservation × Count)) :=
  ((List.range 9).filter fun i => nth dem i != 0).mapM fun i =>
    let sh := s.useShare allot cls inBudget c i
    (s.shareDone sh i c (nth dem i)).map fun f => (i, sh, f)

/-- Promise of R42: the latest finish, or `c`, plus t_path and t_ladle and the opcode's allowance. -/
def promiseOf (c tOp : Nat) (fs : List (Nat × Option Reservation × Count)) : Count :=
  maxN c (fs.map (·.2.2)) + tPath + tLadle + tOp

/-- Record the horizons (R43). -/
def State.setHorizons (s : State) (fs : List (Nat × Option Reservation × Count)) : State :=
  fs.foldl (fun s (i, sh, f) => s.setHorizon sh i f) s

/-- Commands that would be released paced hold at most 16,384 completions (R218). -/
def State.pacedFull (s : State) : Bool :=
  decide (16384 ≤ (s.cmds.filter fun c => c.phase == .paced && c.paced).length)

/-- What the Colander decides of a command (R228, R286). -/
inductive Admission where
  | refused (status : Nat) (res : BitVec 96) (promise : Count) (s : State)
  | admitted (inBudget : Bool) (prio : Nat) (promise : Count) (s : State)

/-- The machine that the decision leaves. -/
def Admission.state : Admission → State
  | .refused _ _ _ s => s
  | .admitted _ _ _ s => s

/-- The Colander's own checks and the promise (R228, R286, R43). -/
def State.colander (s : State) (allot cls : Nat) (paced : Bool) (eff deadline : Count) (w : Want) :
    Admission :=
  let k := 16 * allot + cls
  let kd := s.kindNow cls
  let budgeted := kd = 1 ∨ kd = 2
  let inB := decide budgeted && decide (s.cmdCount k < s.cmdBudgetNow allot cls)
  let late (p : Count) := Admission.refused 1 0 p
    { s with col := { s.col with refusedLate := satAdd 32 s.col.refusedLate 1 } }
  match w.noRoom with
  | some r => .refused 2 r 0 s
  | none =>
    if paced && s.pacedFull then .refused 2 0 0 { s with spr := { s.spr with pacedFull := true } }
    else if s.tam.pair = 3 ∨ s.tam.pair = 4 then .refused 14 0 0 s
    else if (List.range 9).any fun i => nth w.dem i != 0 && s.cap i == 0 then .refused 14 0 0 s
    else
      let c := Nat.max eff w.sMin
      match s.finishes allot cls inB c w.dem with
      | none => late (2 ^ 64 - 1)
      | some fs =>
        let led := if w.ledger.2 = 0 then c else Nat.max w.ledger.1 c + w.ledger.2
        let p := w.promise.getD (promiseOf (Nat.max c led) w.tOp fs)
        if deadline < p then late p
        else
          let s := s.setHorizons fs
          let s := if inB then s.setCmdCount k (s.cmdCount k + 1)
            else if decide budgeted then s.countDemoted else s
          .admitted inB (if inB then s.prioNow cls else 0) p s

end Sys2Proof.Machine
end

