-- ==== Sys2Proof/Machine/Queues.lean ====
section
/-! DEFINITION. Queue pairs and completions: queue states, the holding area, completion writes and
fetch eligibility (R238 to R253, R285). -/

namespace Sys2Proof.Machine

open Sys2Proof

/-- Submission ring size. -/
def Queue.sqSize (q : Queue) : Nat := 2 ^ fld q.ctrl 4 5
/-- Completion ring size. -/
def Queue.cqSize (q : Queue) : Nat := 2 ^ fld q.ctrl 9 5
/-- MSI-X vector. -/
def Queue.vector (q : Queue) : Nat := fld q.ctrl 14 7
/-- Owning allotment. -/
def Queue.allotment (q : Queue) : Nat := fld q.owner 0 6
/-- Local index. -/
def Queue.local_ (q : Queue) : Nat := fld q.owner 16 9
/-- The queue is assigned. -/
def Queue.assigned (q : Queue) : Bool := bitOf q.owner 31
/-- Free completion slots (R240). -/
def Queue.cqFree (q : Queue) : Nat := (q.cqHead + q.cqSize - q.cqTail - 1) % q.cqSize
/-- Submitted entries not fetched (R242). -/
def Queue.submitted (q : Queue) : Nat := (q.sqTail + q.sqSize - q.sqHead) % q.sqSize

/-- An allotment's logical device masters requests. -/
def State.bme (s : State) (n : Nat) : Bool := (s.ld (s.ldOf n)).master

/-- Change a queue's state; entering or leaving STOPPED or ERROR posts a QUEUE event (R251). -/
def State.queueTo (s : State) (q new cause : Nat) : State :=
  let v := s.queue q
  let s := s.setQueue q { v with state := new, cause := if 3 ≤ new then cause else v.cause }
  if v.state = new ∨ (v.state < 3 ∧ new < 3) then s
  else s.post v.allotment 7 [(16, 2, q), (18, 2, v.local_), (20, 1, new), (21, 1, cause)]

/-- INFLIGHT may have reached 0: DRAINING returns to DISABLED, and so does a disabled STOPPED or ERROR
queue (R251). -/
def State.queueSettle (s : State) (q : Nat) : State :=
  let v := s.queue q
  if v.inflight != 0 then s
  else if v.state = 2 then s.queueTo q 0 4
  else if v.disabling && decide (3 ≤ v.state) then
    (s.modQueue q fun v => { v with disabling := false }).queueTo q 0 4
  else s

/-- A completion write is possible now (R249, R251). -/
def State.cqWritable (s : State) (q : Nat) : Bool :=
  let v := s.queue q
  (v.state == 1 || v.state == 2) && s.bme v.allotment && decide (0 < v.cqFree)

/-- Write one completion entry at CQ_TAIL (R247, R248); `late` when it was held past its PROMISE
(R46, R249). -/
def State.cqWrite (s : State) (q : Nat) (e : Completion) (promise : Count) (intr held : Bool)
    (charge : Option Nat) : State :=
  let v := s.queue q
  let late := held && decide (promise < s.now)
  let raw := e
  let e := BitVec.ofNat 256 (e.toNat + atB 40 late + atB 47 v.phase + at_ 112 48 s.now)
  let tail := (v.cqTail + 1) % v.cqSize
  let s := s.setQueue q { v with
    cqTail := tail, phase := if tail = 0 then !v.phase else v.phase, inflight := v.inflight - 1,
    intrSlots := if intr then v.intrSlots ++ [v.cqTail] else v.intrSlots
    written := some (raw, promise, intr) }
  let s := s.emit (.ringWrite v.allotment (v.cqBase.toNat / 32 * 32 + 32 * v.cqTail) 32 (e.setWidth 512))
  let s := s.leaveCmd charge
  let s := if intr then s.interrupt v.allotment v.vector else s
  s.queueSettle q

/-- The Ladle hands a completion to its queue: written, held, or discarded (R249, R251). -/
def State.complete (s : State) (q : Nat) (e : Completion) (promise : Count) (intr : Bool)
    (charge : Option Nat) : State :=
  let v := s.queue q
  if v.state = 0 then s.leaveCmd charge
  else if decide (3 ≤ v.state) && v.disabling then
    (((s.modQueue q fun v => { v with inflight := v.inflight - 1 }).leaveCmd charge)).queueSettle q
  else if v.held.isEmpty && s.cqWritable q then s.cqWrite q e promise intr false charge
  else s.setQueue q { v with held := v.held ++ [(e, promise, intr, charge)] }

/-- Write the oldest held entry, if the ring takes it (R249). -/
def State.heldWrite (s : State) (q : Nat) : State :=
  let v := s.queue q
  match v.held with
  | (e, p, i, c) :: r =>
    if s.cqWritable q then (s.setQueue q { v with held := r }).cqWrite q e p i true c else s
  | [] => s

/-- Write held entries while slots are free. -/
def State.heldDrain (q : Nat) : Nat → State → State
  | 0, s => s
  | k + 1, s => State.heldDrain q k (s.heldWrite q)

/-- Entries that a fetch may take: RUNNING, holding area empty, no read outstanding (R243), allotment not
FAULTED (R318). -/
def State.fetchable (s : State) (q : Nat) : Nat :=
  let v := s.queue q
  if v.state = 1 && v.held.isEmpty && v.fetching = 0 && !v.replaying && s.bme v.allotment &&
      (s.allot v.allotment).state != 3 then
    Nat.min (Nat.min v.submitted (v.sqSize - v.sqHead)) (Nat.min 8 (64 - v.inflight))
  else 0

/-- Issue a read of `n` entries, at most what R243 allows. -/
def State.issueFetch (s : State) (q n : Nat) : State :=
  let k := Nat.min n (s.fetchable q)
  if k = 0 then s
  else
    let v := s.queue q
    (s.setQueue q { v with fetching := k, fetchDrop := false }).emit
      (.ringRead q (v.sqBase.toNat / 64 * 64 + 64 * v.sqHead) k)

/-- Discard the held entries of a disabled STOPPED or ERROR queue (R251). -/
def State.discardHeld (s : State) (q : Nat) : State :=
  let v := s.queue q
  let s := v.held.foldl (fun s (_, _, _, c) => s.leaveCmd c) s
  (s.setQueue q { v with held := [], inflight := v.inflight - v.held.length }).queueSettle q

/-- Clear a queue to its reset value, owner kept (R253). -/
def State.clearQueue (s : State) (q : Nat) : State :=
  let v := s.queue q
  let s := v.held.foldl (fun s (_, _, _, c) => s.leaveCmd c) s
  s.setQueue q { Queue.init with owner := v.owner }

/-- The queue of an allotment's local index. -/
def State.queueOf (s : State) (n i : Nat) : Option Nat :=
  (s.queues.find? fun (_, q) => q.assigned && q.allotment == n && q.local_ == i).map (·.1)

/-- Queues of an allotment. -/
def State.queuesOf (s : State) (n : Nat) : List Nat :=
  (s.queues.filter fun (_, q) => q.assigned && q.allotment == n).map (·.1)

end Sys2Proof.Machine
end

