-- ==== Sys2Proof/Machine/Pages.lean ====
section
/-! DEFINITION. Extents' geometry, the directory, frames and victims, versions and views
(R57 to R62, R76 to R83, R87 to R92, R101, R110, R125, R130). -/

namespace Sys2Proof.Machine

open Sys2Proof

/-! ### Attributes (R59, R61) -/

/-- TIER: 0 PINNED, 1 CACHED, 2 FLASH_ONLY. -/
def Extent.tier (x : Extent) : Nat := fld x.attr 0 2
/-- CODEC: 0 NONE, 1 EXP, 2 to 4 FXR, 5 COMPOSITE. -/
def Extent.codec (x : Extent) : Nat := fld x.attr 2 3
/-- SHARING: 0 PRIVATE, 1 SHARED_VERSIONED, 2 SHARED_READONLY. -/
def Extent.sharing (x : Extent) : Nat := fld x.attr 5 2
/-- SEALED. -/
def Extent.sealed (x : Extent) : Bool := bitOf x.attr 7
/-- Default class. -/
def Extent.cls (x : Extent) : Nat := fld x.attr 8 4
/-- Key slot. -/
def Extent.keySlot (x : Extent) : Nat := fld x.attr 12 8
/-- MERGE_DISJOINT. -/
def Extent.merging (x : Extent) : Bool := bitOf x.attr 20
/-- FXR format. -/
def Extent.fxr (x : Extent) : FxrFmt := fxrFmt x.codec (bitOf x.attr 21)
/-- An FXR codec. -/
def Extent.isFxr (x : Extent) : Bool := x.codec == 2 || x.codec == 3 || x.codec == 4
/-- COMPOSITE. -/
def Extent.composite (x : Extent) : Bool := x.codec == 5
/-- A proxy of a remote extent (R375). -/
def Extent.proxy (x : Extent) : Bool := x.pool.isSome

/-- Factor f of R61 in 64ths. -/
def codecFactor (codec : Nat) : Nat :=
  if codec = 2 then 33 else if codec = 3 then 25 else if codec = 4 then 17 else 64

/-- Bytes of the stored region of an extent of `size` (R61, R170, R410). -/
def storedBytes (codec size : Nat) (sealed : Bool) : Nat :=
  if sealed then size * 9 / 8 else size * codecFactor codec / 64

/-- Stored bytes. -/
def Extent.stored (x : Extent) : Nat := storedBytes x.codec x.size x.sealed

/-- Stored pages of the logical bytes from `o` (R170, R410). -/
def Extent.bytePages (x : Extent) (o n : Nat) : List Nat :=
  if n = 0 then []
  else
    let run (a b : Nat) : List Nat := (List.range (b / pageBytes + 1 - a / pageBytes)).map (· + a / pageBytes)
    let hi := o + n - 1
    if x.isFxr then
      let gb := 4 * x.fxr.width
      let d := run (o / 64 * gb) (hi / 64 * gb + gb - 1)
      d ++ (run (x.size * x.fxr.width / 16 + o / 64) (x.size * x.fxr.width / 16 + hi / 64)).filter fun p => !d.contains p
    else if x.sealed then run o hi ++ run (x.size + o / 64 * 8) (x.size + hi / 64 * 8 + 7)
    else run o hi

/-- Stored pages that hold a logical line (R170, R410). -/
def Extent.linePages (x : Extent) (n : Nat) : List Nat :=
  if x.isFxr then
    let gb := 4 * x.fxr.width
    [n * gb / pageBytes, (n * gb + gb - 1) / pageBytes, (x.size * x.fxr.width / 16 + n) / pageBytes].eraseDups
  else if x.sealed then [n / 1024, (x.size + 8 * n) / pageBytes].eraseDups
  else [n / 1024]

/-- Stored pages (R170). -/
def Extent.pages (x : Extent) : Nat := ceilDiv x.stored pageBytes

/-- GDDR7 frames charged (R61). -/
def framesCharged (tier codec size : Nat) (sealed proxy : Bool) : Nat :=
  if proxy ∨ tier ≠ 0 then 0
  else if codec = 5 then size / pageBytes else ceilDiv (storedBytes codec size sealed) pageBytes

/-- Flash charged, in 64 KiB (R61). -/
def flashCharged (tier codec size : Nat) (sealed proxy : Bool) : Nat :=
  if proxy ∨ tier = 0 ∨ codec = 5 then 0 else ceilDiv (storedBytes codec size sealed) pageBytes

/-- GDDR7 frames charged to an extent. -/
def Extent.frames (x : Extent) : Nat := framesCharged x.tier x.codec x.size x.sealed x.proxy
/-- Flash charged to an extent, in 64 KiB. -/
def Extent.flash (x : Extent) : Nat := flashCharged x.tier x.codec x.size x.sealed x.proxy

/-- The extent that holds a local address. -/
def State.extentAt (s : State) (a : Nat) : Option (Nat × Extent) :=
  s.ext.tbl.find? fun (_, x) => decide (x.base ≤ a) && decide (a < x.base + x.size)

/-- A range lies wholly inside one extent. -/
def State.rangeExtent (s : State) (a n : Nat) : Option (Nat × Extent) :=
  (s.extentAt a).filter fun (_, x) => decide (a + n ≤ x.base + x.size)

/-- Rights of an allotment on an extent: 0 none, 1 read, 2 read and write (R62, R102). -/
def Extent.rights (x : Extent) (a : Nat) : Nat :=
  let full := if x.composite ∨ (x.sharing = 2 ∧ x.frozen) then 1 else 2
  if x.owner = a then full
  else match x.members.find? fun (m, _) => m == a with
    | some (_, w) => if w && x.sharing != 2 then full else 1
    | none => 0

/-- The earlier of two counts that may be absent. -/
def earlier (a b : Option Count) : Option Count :=
  match a, b with
  | some r, some q => some (Nat.min r q)
  | some r, none => some r
  | none, q => q

/-- The count from which requests of `a` on the extent are revoked (R67, R69, and R377 for a proxy). -/
def Extent.revokedAt (x : Extent) (a : Nat) : Option Count :=
  earlier (earlier x.revoke x.homeRevoked) ((x.memRevoke.find? fun (n, _) => n == a).map (·.2))

/-- A request of `a` with this stamp, at offset `o`, meets a revocation (R65, R67). -/
def Extent.isRevoked (x : Extent) (a : Nat) (stamp : Count) (o : Nat) : Bool :=
  (match x.revokedAt a with | some r => decide (r ≤ stamp) | none => false) ||
  (match x.shrink with | some (lo, r) => decide (lo ≤ o) && decide (r ≤ stamp) | none => false)

/-! ### Versions (R87, R88) -/

/-- Forward distance from version `a` to `b` (R87). -/
def verDist (a b : Nat) : Nat := (b + (2 ^ 32 - 1) - a) % (2 ^ 32 - 1)
/-- Version `a` is `b` or older. -/
def verLe (a b : Nat) : Bool := a == b || a == 0 || (b != 0 && decide (verDist a b < 2 ^ 31))
/-- The version after `v`. -/
def verNext (v : Nat) : Nat := if v = 2 ^ 32 - 1 then 1 else v + 1

/-- The version that was current at a count: the latest committed by then (R93, R272). -/
def Extent.verAt (x : Extent) (c : Count) : Nat := ((x.commits.find? fun q => decide (q.2 ≤ c)).map (·.1)).getD x.ver

/-- The view that an allotment holds. -/
def Extent.view (x : Extent) (a : Nat) : Option View := x.views.find? (·.allot == a)
/-- Change or add a view. -/
def Extent.setView (x : Extent) (v : View) : Extent :=
  { x with views := (x.views.filter (·.allot != v.allot)) ++ [v] }
/-- End a view. -/
def Extent.dropView (x : Extent) (a : Nat) : Extent :=
  { x with views := x.views.filter (·.allot != a) }

/-- Versioned reads and shadow writes apply (R88, R102). -/
def Extent.versioned (x : Extent) : Bool := x.sharing == 1 || (x.sharing == 2 && x.frozen)
/-- The owner of an unfrozen SHARED_READONLY extent works in place (R102). -/
def Extent.inPlace (x : Extent) (a : Nat) : Bool := x.sharing == 2 && !x.frozen && x.owner == a

/-- The pending version: the current one raised by every admitted PUBLISH (R95). -/
def Extent.pending (x : Extent) : Nat := match x.pubs.getLast? with | some p => p.ver | none => x.ver

/-! ### Frames -/

/-- Frames that can hold pages: announced, less the length-map records' 1,024 and the 4,096 staging
frames (R86; their numbers are the model's choice, assumption 12). -/
def pageFrames : Nat := 2026496
/-- First staging frame. -/
def stagingBase : Nat := 2027520

/-- Directory set of page `p` (R76). -/
def setOf (salt p : Nat) : Nat := (salt + p) % 131072

/-- Frames by number. -/
def State.framesOf (s : State) (e p : Nat) : List (Nat × Frame) :=
  s.dir.frames.filter fun (_, f) => f.ext == e && f.page == p

/-- A frame's directory set. -/
def Frame.dirSet (f : Frame) : Nat := f.entry / 16

/-- Frames of one set. -/
def State.setFrames (s : State) (k : Nat) : List (Nat × Frame) :=
  s.dir.frames.filter fun (_, f) => f.dirSet == k

/-- The lowest way of a set that holds no page. -/
def State.freeWay (s : State) (k : Nat) : Option Nat :=
  let used := (s.setFrames k).map fun (_, f) => f.entry % 16
  (List.range 16).find? fun w => !used.contains w

/-- Lowest `i` from `i` on for which `8i + g` is unused. -/
def lowestFree (used : List Nat) (g : Nat) : Nat → Nat → Nat
  | 0, i => i
  | n + 1, i => if used.contains (8 * i + g) then lowestFree used g n (i + 1) else i

/-- A free frame number, round-robin over the eight groups (R110; the lowest in its group,
assumption 12), and the next group. -/
def State.freeNumber (s : State) : Option (Nat × Nat) :=
  let used := s.dir.frames.map (·.1) ++ s.dir.gone
  (List.range 8).findSome? fun k =>
    let g := (s.dir.rr + k) % 8
    let f := 8 * lowestFree used g (used.length + 1) 0 + g
    if f < pageFrames then some (f, (g + 1) % 8) else none

/-- An empty frame for page `p` of extent `e`. -/
def Frame.fresh (entry e p st ver : Nat) : Frame :=
  { entry := entry, ext := e, page := p, st := st, hint := 1, dirty := false, ver := ver, writer := 0,
    used := 0, copied := [], charged := false, pinned := false, wipe := none, promoted := false,
    lines := [], errs := [], lens := [], lenDie := [], tag := (0, 0, 0), fillVer := 0,
    fillEmpty := false, decoded := [], set := 0, cleaning := none }

/-- Make a frame the most recently used (R81). -/
def State.touch (s : State) (n : Nat) : State :=
  let c := s.dir.clock + 1
  ({ s with dir := { s.dir with clock := c } }).modFrame n fun f => { f with used := c }

/-- An injection is armed for a line or block of frame `n`. -/
def Armed.at_ (a : Armed) (n : Nat) : Bool := (if a.kind = 0 then a.line / 1024 else a.line) == n

/-- Free a frame: its entry, its merge-buffer entries unwritten (R167), its check lines in the cache (R110), what
operand buffers hold of it (R193), and the injections armed for it (R437). -/
def State.freeFrame (s : State) (n : Nat) : State :=
  { s with
    dir := { s.dir with
      frames := sdel s.dir.frames n
      merge := s.dir.merge.filter (·.frame != n)
      staging := s.dir.staging.filter (· != n) }
    drm := { s.drm with checks := s.drm.checks.filter fun (k, _) => k / 128 != n }
    mxe := { s.mxe with bufs := dropOperands n s.mxe.bufs }
    prt := { s.prt with armed := s.prt.armed.filter fun a => !a.at_ n } }

/-- Best victim by level, then least recent use. -/
def pickVictim (l : List (Nat × Frame)) : Option Nat :=
  (l.foldl (fun (b : Option (Nat × Frame)) x => match b with
    | none => some x
    | some y => if x.2.hint < y.2.hint ∨ (x.2.hint = y.2.hint ∧ x.2.used < y.2.used) then some x else b)
    none).map (·.1)

/-- The clean RESIDENT victim of a set (R81); a frame with dirty merge entries is not clean. An unpinned,
uncharged SYNTH entry counts as one (R186). -/
def State.cleanVictim (s : State) (k : Nat) : Option Nat :=
  pickVictim ((s.setFrames k).filter fun (n, f) =>
    (f.st == 1 && !f.dirty && !(s.dir.merge.any fun m => m.frame == n && m.dirty)) ||
    (f.st == 7 && !f.pinned && !f.charged))

/-- The dirty RESIDENT entry to write back, or a CLEANING one (R81). -/
def State.dirtyVictim (s : State) (k : Nat) : Option Nat :=
  match pickVictim ((s.setFrames k).filter fun (_, f) => f.st == 1) with
  | some n => some n
  | none => pickVictim ((s.setFrames k).filter fun (_, f) => f.st == 4)

/-! ### Charges (R77, R83, R84) -/

/-- Working floor in frames. -/
def State.floorFrames (s : State) : Nat := fld s.dir.ctrl 0 6 * 16384
/-- DIR_PINNED_LIMIT (R77, R125). -/
def State.pinnedLimit (s : State) : Nat := 2031616 - s.dir.gone.length - 4096 - s.floorFrames
/-- Pages of an admitted, unfinished PIN that are not charged yet (R477). -/
def Cmd.pinReserve (c : Cmd) : Nat := if pkOp c.pkt = 0x21 then nth c.aux 0 else 0
/-- GDDR7 frames that an admitted GRANT or RESIZE reserves until its work has charged them (R477). -/
def Cmd.frameReserve (c : Cmd) : Nat :=
  if (pkOp c.pkt = 0x50 ∨ pkOp c.pkt = 0x52) ∧ c.phase != .asking then nth c.aux 0 else 0
/-- Flash that an admitted GRANT or RESIZE reserves until its work has charged it, in 64 KiB (R477). -/
def Cmd.flashReserve (c : Cmd) : Nat :=
  if (pkOp c.pkt = 0x50 ∨ pkOp c.pkt = 0x52) ∧ c.phase != .asking then nth c.aux 1 else 0
/-- Frames charged against DIR_PINNED_LIMIT: extents, and CACHED pages locked by PIN (R77, R82). -/
def State.pinnedFrames (s : State) : Nat :=
  sumN (s.ext.tbl.map fun (_, x) => x.frames) +
  (s.dir.frames.filter fun (_, f) => f.pinned && f.charged).length + s.mxe.repin.length
/-- Pinned frames with the reservations of R477. -/
def State.pinnedHeld (s : State) : Nat :=
  s.pinnedFrames + sumN (s.cmds.map fun c => c.pinReserve + c.frameReserve)
/-- Flash charged with the reservations of R477, in 64 KiB. -/
def State.flashHeld (s : State) : Nat :=
  sumN (s.ext.tbl.map fun (_, x) => x.flash) + sumN (s.cmds.map Cmd.flashReserve)
/-- Announced flash in 64 KiB, less the shortfall of R137; over-provisioning stops at 0 (the model's choice, assumption
101). -/
def State.announcedFlash (s : State) : Nat :=
  let op := 176128 * 1024 - s.retiredDies * 2097152
  let op := if 32768 * 1024 ≤ op then 0 else 32768 * 1024 - op
  786432 * 1024 - op

/-! ### Shadow sets (R89 to R91) -/

/-- The SHADOW frame of shadow set `k` for a page (R89 step 1, R90); set 0 is no set. A frame that a proxy has sent home
gives way to the copy that was written since (R376). -/
def State.shadowOf (s : State) (e p k : Nat) : Option Nat :=
  if k = 0 then none
  else
    let l := (s.framesOf e p).filter fun (_, f) => f.st == 5 && f.set == k
    ((l.find? fun (_, f) => f.fillVer == 0).or l.head?).map (·.1)

/-- The frames of shadow set `k` of an extent (R91). -/
def State.shadowSet (s : State) (e k : Nat) : List (Nat × Frame) :=
  s.dir.frames.filter fun (_, f) => f.st == 5 && f.ext == e && f.set == k && k != 0

/-! ### Room in a directory set (R81, R82, R92, R477) -/

/-- Entries of a directory set that a new frame can take: ways without a page and evictable ones. -/
def State.setRoom (s : State) (k : Nat) : Nat :=
  16 - ((s.setFrames k).filter fun (_, f) =>
    !((f.st == 1 && !f.pinned) || f.st == 4 || (f.st == 7 && !f.pinned && !f.charged))).length

/-- Directory set of a page. -/
def State.pageSet (s : State) (ep : Nat × Nat) : Nat :=
  match s.extent ep.1 with | some x => setOf x.salt ep.2 | none => 0

/-- The shadow set that a command of allotment `a` writes in extent `e`: the one captured when its work began, else the
one of the view as it stands (R92). -/
def Extent.cmdSet (x : Extent) (a e : Nat) (sets : List (Nat × Nat)) : Nat :=
  match sets.find? fun (n, _) => n == e with
  | some (_, k) => k
  | none => match x.view a with
    | some v => v.set
    | none => 0

/-- A shadow set is a view's, one that is being published, or one whose view a revocation has ended while earlier writes
go on; writes of any other complete into nothing (R67, R94, R100). -/
def Extent.setLive (x : Extent) (k : Nat) : Bool :=
  x.views.any (·.set == k) || x.pubs.any (·.set == k) || (k != 0 && x.endedViews.any (·.2 == k))

/-- Pages of written ranges that have no shadow frame yet: extent and page. -/
def State.shadowNeed (s : State) (a : Nat) (sets l : List (Nat × Nat)) : List (Nat × Nat) :=
  l.flatMap fun (addr, n) => match s.extentAt addr with
    | some (e, x) =>
      if x.versioned then
        ((x.bytePages (addr - x.base) n).filter fun p => (s.shadowOf e p (x.cmdSet a e sets)).isNone).map fun p => (e, p)
      else []
    | none => []

/-- Directory sets. -/
def sets : Nat := 131072

/-- Pinned entries of set `k` in runs of pages, each a first set and a length. -/
def countAt (runs : List (Nat × Nat)) (k : Nat) : Nat :=
  sumN (runs.map fun (a, n) => n / sets + if (k + sets - a) % sets < n % sets then 1 else 0)

/-- Entries of set `k` that a GRANT, RESIZE or PIN has reserved, but for page `ep` of its own (R477). -/
def Cmd.entryReserve (c : Cmd) (k : Nat) (ep : Nat × Nat) : Nat :=
  if pkOp c.pkt = 0x21 then
    ((c.aux.drop 1).filter (· == k)).length - if pk c.pkt 24 2 = ep.1 then 1 else 0
  else if c.frameReserve = 0 then 0 else countAt [(nth c.aux 4, c.frameReserve)] k

/-- Entries of a directory set that admitted commands hold for their shadow frames and for pinned pages, but for those
of page `ep` (R82, R92, R477). -/
def State.setHeld (s : State) (k : Nat) (ep : Nat × Nat) : Nat :=
  ((s.cmds.flatMap fun c => s.shadowNeed c.allot c.sets c.writes).eraseDups.filter fun q =>
    q != ep && s.pageSet q == k).length +
  sumN (s.cmds.map fun c => c.entryReserve k ep)

/-- A frame of set `k` may go to page `ep` and stay there: what admitted commands hold is left (R477). -/
def State.setSpare (s : State) (k : Nat) (ep : Nat × Nat) : Bool := decide (s.setHeld k ep < s.setRoom k)

/-! ### Resolving a page (R89, R130) -/

/-- Where a page's content stands. -/
inductive Loc where
  | frame (n : Nat)
  | image (i : Nat)
  | empty
  deriving DecidableEq, Repr

/-- A SHADOW frame of a publish whose cut count is past (R94). -/
def Frame.cut (f : Frame) : Bool := f.st == 5 && f.fillVer != 0
/-- Frames that hold a version of a page: RESIDENT, PINNED, FILLING, CLEANING, RETAINED, and the shadow frames
of a publish that is to commit, which the publisher's own view holds from K on (R94). -/
def Frame.current (f : Frame) : Bool :=
  f.st == 1 || f.st == 2 || f.st == 3 || f.st == 4 || f.st == 6 || (f.cut && decide (f.fillVer < 2 ^ 32))
/-- The version at which a frame is current. -/
def Frame.verNow (f : Frame) : Nat := if f.st = 5 then f.fillVer else f.ver

/-- A newer of two dated choices. -/
def newer {α : Type} (a b : Option (Nat × α)) : Option (Nat × α) :=
  match a, b with
  | some x, some y => if verLe x.1 y.1 && x.1 != y.1 then some y else some x
  | none, y => y
  | x, none => x

/-- The location of page `p` of extent `e` at version `v` (R89 step 2); a proxy's frame serves its own
version only (R376). -/
def State.locate (s : State) (e p v : Nat) : Loc :=
  let px := match s.extent e with | some x => x.proxy | none => false
  let fs := (s.framesOf e p).filter fun (_, f) => f.current && (if px then f.verNow == v else verLe f.verNow v)
  let f := fs.foldl (fun b (n, f) => newer b (some (f.verNow, Loc.frame n))) none
  let is := s.fls.images.zipIdx.filter fun (i, _) => i.ext == e && i.page == p && verLe i.ver v
  let i := is.foldl (fun b (i, k) => newer b (some (i.ver, Loc.image k))) none
  match newer f i with
  | some (_, l) => l
  | none => .empty

/-- A write to an EXP or other extent is stamped: a rebinding that is not stamped earlier is void, under the binding in
force before it the write is performed, and BIND_ERR is set (R156, R175). -/
def State.stampWrite (s : State) (e : Nat) (stamp : Count) : State :=
  match s.extent e with
  | none => s
  | some x =>
    let y := if x.written.isNone then { x with written := some stamp } else x
    match x.rebound with
    | some (c, k) =>
      if stamp ≤ c then ((s.setExtent e { y with slot := k, rebound := none }).codBit 2).digestUpdate
      else if y = x then s else s.setExtent e y
    | none => if y = x then s else s.setExtent e y

/-- The STAGING frame of a FLASH_ONLY page that holds version `v` of it: the version of the image that serves `v`
(R79, R89). -/
def State.stagingOf (s : State) (e p v : Nat) : Option Nat :=
  ((s.framesOf e p).find? fun (_, f) => f.st == 8 && f.ver == v).map (·.1)

/-- OPENs that are still held though their count is reached hold the version that was current then (R93). -/
def State.openingVersions (s : State) (e : Nat) (x : Extent) : List Nat :=
  (s.cmds.filter fun c => pkOp c.pkt == 0x30 && c.phase == .held && c.exts.contains e && decide (c.eff ≤ s.now)).map
    fun c => x.verAt c.eff

/-- Versions of an extent that R101 holds: open views and those that running commands read. -/
def State.heldVersions (s : State) (e : Nat) (x : Extent) : List Nat :=
  x.ver :: x.views.map (·.ver) ++ s.openingVersions e x ++
  (s.cmds.flatMap fun c => (c.vers.filter fun (n, _) => n == e).map (·.2)) ++ x.remoteViews.map (·.2)

/-- The oldest held version (R98, R106); the current one where nothing holds any (assumption 96). -/
def State.oldestHeld (s : State) (e : Nat) (x : Extent) : Nat :=
  (s.heldVersions e x).foldl (fun a v => if verLe v a then v else a) x.ver

/-- Free RETAINED frames and retained flash copies that no held version resolves to (R101); a request that waits
keeps the version it reads. -/
def State.release101 (s : State) (e : Nat) : State :=
  match s.extent e with
  | none => s
  | some x =>
    let vs := s.heldVersions e x ++ (s.waiting.filter fun r => r.ext == e).map (·.ver)
    let keepF (n p : Nat) := vs.any fun v => s.locate e p v == .frame n
    let drop := (s.dir.frames.filter fun (n, f) => f.ext == e && f.st == 6 && !keepF n f.page).map (·.1)
    let images := (s.fls.images.zipIdx.filter fun (i, k) =>
      !(i.ext == e && i.retained && !(vs.any fun v => s.locate e i.page v == .image k))).map (·.1)
    drop.foldl (fun s n => s.freeFrame n) { s with fls := { s.fls with images := images } }

/-- RETAINED frames (R106). -/
def State.retainedFrames (s : State) : Nat := (s.dir.frames.filter fun (_, f) => f.st == 6).length

/-- RETAIN_HIGH when the RETAINED frames rise above RETAIN_WARN (R101). -/
def State.retainTest (s : State) : State :=
  let high := decide (fld s.ext.ctrl 8 8 * 16384 < s.retainedFrames)
  let was := s.ext.retainHigh
  let s := { s with ext := { s.ext with retainHigh := high } }
  if high && !was then (s.pubBit 0).fault0 7 0x70 0 else s

end Sys2Proof.Machine
end

