-- ==== Sys2Proof/Machine/Flash.lean ====
section
/-! DEFINITION. The flash tier's storage: dies and their parity groups, stripe rows and parity, page images and the map,
programs and their durability, block and die retirement (R127 to R139, R150). -/

namespace Sys2Proof.Machine

open Sys2Proof

/-! ### Dies and groups (R127) -/

/-- Channel of a die, its package there, and its position in the package. -/
def dieChannel (d : Nat) : Nat := d % 32
/-- Package of a die. -/
def diePackage (d : Nat) : Nat := d / 32 % 4
/-- Position of a die in its package. -/
def diePosition (d : Nat) : Nat := d / 128
/-- Parity group of a die. -/
def dieGroup (d : Nat) : Nat := d / 32 * 2 + dieChannel d / 16
/-- The 16 dies of a group. -/
def groupDies (g : Nat) : List Nat := (List.range 16).map (· + 16 * g)

/-! ### Accounting (R138, R139) -/

/-- FLS_ENDURANCE: thousandths of the 190 PB budget used (R138). -/
def endurance (hostProg : Nat) : Nat := hostProg / 190000000000000

/-- Count bytes programmed for the part's own purposes (R139). -/
def State.countInternal (s : State) (n : Nat) : State :=
  { s with fls := { s.fls with nandProg := s.fls.nandProg + n } }

/-- Count a programmed page image, host-caused or internal, and the thresholds of R138 (R139). -/
def State.countProgram (s : State) (host : Bool) : State :=
  let old := endurance s.fls.hostProg
  let h := if host then s.fls.hostProg + 65536 else s.fls.hostProg
  let s := { s with fls := { s.fls with hostProg := h, nandProg := s.fls.nandProg + 65536 } }
  let now := endurance h
  let w := fld s.fls.ctrl 0 10
  let s := if old < w ∧ w ≤ now then
      ({ s with fls := { s.fls with warn := true } }).fault0 7 0x73 0 else s
  if old < 1000 ∧ 1000 ≤ now then s.fault0 7 0x74 0 else s

/-! ### Stripe rows (R128) -/

/-- The member that holds the parity image of a row: member r mod n. -/
def Stripe.parityDie (r : Stripe) : Nat := r.members.getD (r.row % r.members.length) 512

/-- Members whose place a page image can still take, of those in service. -/
def State.rowFree (s : State) (r : Stripe) : List Nat :=
  r.members.filter fun d => d != r.parityDie && !r.used.contains d && (s.die d).st == 0

/-- Members of a group for a new row: the dies in service whose block there is not retired (R128, R134, R135). -/
def State.working (s : State) (g row : Nat) : List Nat :=
  (groupDies g).filter fun d => (s.die d).st == 0 && !(s.die d).bad.contains (row / Config.blockPages)

/-- The row of group `g` that takes the next page image: an open one with a free place, else a new one; none where
fewer than two members work. -/
def State.rowOf (s : State) (g : Nat) : Option Stripe :=
  match s.fls.stripes.find? fun r => r.group == g && !r.closed && !(s.rowFree r).isEmpty with
  | some r => some r
  | none =>
    let row := sget 0 s.fls.rowNext g
    let ms := s.working g row
    if ms.length < 2 then none else some ⟨g, row, ms, [], false, []⟩

/-- Put a row in place of the one with its group and number. -/
def State.setRow (s : State) (r : Stripe) : State :=
  { s with fls := { s.fls with
      stripes := (s.fls.stripes.filter fun q => !(q.group == r.group && q.row == r.row)) ++ [r]
      rowNext := if sget 0 s.fls.rowNext r.group ≤ r.row then sput 0 s.fls.rowNext r.group (r.row + 1)
        else s.fls.rowNext } }

/-- A fresh place for a page image in one of these groups, tried in order: die and row (R131; the choice is the
model's, assumption 13). -/
def State.placeIn (s : State) (gs : List Nat) : (Nat × Nat) × State :=
  match gs.findSome? s.rowOf with
  | none => ((512, 0), s)
  | some r =>
    match s.rowFree r with
    | d :: _ => ((d, r.row), s.setRow { r with used := r.used ++ [d] })
    | [] => ((512, 0), s)

/-- A fresh place for a page image, groups in turn. -/
def State.nextPlace (s : State) : (Nat × Nat) × State :=
  s.placeIn ((List.range 32).map fun k => (s.fls.nextProg + k) % 32)

/-- Stored bytes of a cell of an image; a marker is no data. -/
def Cell.stored : Cell → Line
  | .data v => v
  | .marker _ _ => 0

/-- Add an image's lines bytewise to a parity image. -/
def addParity (m : Sparse Line) (i : Image) : Sparse Line :=
  i.lines.foldl (fun m (l, c) => sput 0 m l (sget 0 m l ^^^ c.stored)) m

/-- Images at places of a row: those of the map and those being programmed. -/
def State.rowImages (s : State) (r : Stripe) : List Image :=
  (s.fls.images ++ s.fls.programs.map (·.img)).filter fun i => dieGroup i.die == r.group && i.row == r.row

/-- Close a row: its parity image is programmed over the images that stand in it, missing ones counting as zero
(R128). -/
def State.closeRow (s : State) (g row : Nat) : State :=
  match s.fls.stripes.find? fun r => r.group == g && r.row == row && !r.closed with
  | none => s
  | some r =>
    (s.setRow { r with closed := true, parity := (s.rowImages r).foldl addParity r.parity }).countInternal 65536

/-! ### Images and the map (R130, R131) -/

/-- Cell of an image: markers keep only UNWRITTEN or CARRIED (R298). -/
def imageCell : Cell → Cell
  | .marker r c => if r = 1 then .marker 1 c else .marker 7 c
  | c => c

/-- A line as a write-back reads it: one that cannot be corrected is carried as poison (R298, R305). -/
def Frame.imageLine (fr : Frame) (now : Count) (l : Nat) (c : Cell) : Cell :=
  match c with
  | .data v =>
    let k := (decodeErrors (errPattern (sget [] fr.errs l) 0)).1
    if k == .clean || k == .corrected then .data v else .marker 7 now
  | c => imageCell c

/-- The image of a frame's content, without a place yet. -/
def State.imageOf (s : State) (fr : Frame) (ver : Nat) : Image :=
  { ext := fr.ext, page := fr.page, ver := ver, die := 512, row := 0, seq := s.fls.nextProg
    lines := fr.lines.map fun (l, c) => (l, fr.imageLine s.now l c), lens := fr.lens, lost := false, retained := false }

/-- A newer image of the same page and version is in the map (R131). -/
def State.mapNewer (s : State) (img : Image) : Bool :=
  s.fls.images.any fun i => i.ext == img.ext && i.page == img.page && i.ver == img.ver && decide (img.seq < i.seq)

/-- Switch the map entry to an image that is programmed and whose row is closed; the switch is programmed into the
journal. The superseded image stays only where a held version needs it, and an older image never replaces a newer one
(R131, R96, R101). A part in SOLO marks the page (R387). -/
def State.switchMap (s : State) (img : Image) : State :=
  if s.mapNewer img then s
  else
    let held := match s.extent img.ext with
      | some x => if x.versioned then s.heldVersions img.ext x else []
      | none => []
    let keep (i : Image) : Bool :=
      !(i.ext == img.ext && i.page == img.page) ||
        (i.ver != img.ver && held.any fun v => verLe i.ver v && !verLe img.ver v)
    let old := (s.fls.images.filter keep).map fun i =>
      if i.ext == img.ext && i.page == img.page then { i with retained := true } else i
    let mark := s.tam.pair == 2 && !s.tam.bitmap.contains (img.ext, img.page)
    ({ s with
      fls := { s.fls with images := old ++ [img], journal := s.fls.journal ++ [(img.ext, img.page)] }
      tam := { s.tam with bitmap := if mark then s.tam.bitmap ++ [(img.ext, img.page)] else s.tam.bitmap }
      }).countInternal (Config.systemBytes 0)

/-- An image joins the parity of its row while that is open. -/
def State.addToRow (s : State) (img : Image) : State :=
  match s.fls.stripes.find? fun r => r.group == dieGroup img.die && r.row == img.row && !r.closed with
  | some r => s.setRow { r with parity := addParity r.parity img }
  | none => s

/-- An image is programmed: it is counted, its row is closed, and the map switches (R128, R131, R139). -/
def State.landImage (s : State) (img : Image) (host : Bool) : State :=
  (((s.countProgram host).addToRow img).closeRow (dieGroup img.die) img.row).switchMap img

/-- Program an image and switch the map in one step. -/
def State.putImage (s : State) (img : Image) (host : Bool) : State :=
  let p := s.nextPlace
  let n := p.2.fls.nextProg
  ({ p.2 with fls := { p.2.fls with nextProg := n + 1 } }).landImage
    { img with die := p.1.1, row := p.1.2, seq := n } host

/-- Programs that the dies may have at once: all, or those that a short hold-up can complete (R150). -/
def State.mayIssue (s : State) : Bool :=
  s.plan.holdup == 0 || decide ((s.fls.programs.filter (·.issued)).length < Config.holdupPrograms s.plan.holdup)

/-- Issue a page program (R131); beyond the limit of R150 it waits. -/
def State.program (s : State) (img : Image) (frame : Option Nat) (host : Bool) (cmd : Option Nat) : State :=
  let p := s.nextPlace
  let id := p.2.fls.nextProg
  let img := { img with die := p.1.1, row := p.1.2, seq := id }
  { p.2 with fls := { p.2.fls with
    programs := p.2.fls.programs ++ [Program.mk id img frame host cmd 0 p.2.mayIssue], nextProg := id + 1 } }

/-- A program has ended: the oldest that waits is issued, where the limit allows (R150). -/
def State.issueNext (s : State) : State :=
  if !s.mayIssue then s
  else match s.fls.programs.find? fun g => !g.issued with
    | none => s
    | some w => { s with fls := { s.fls with
        programs := s.fls.programs.map fun g => if g.id = w.id then { g with issued := true } else g } }

/-- Map pages that the on-die cache holds: 64 MiB of 4 KiB (R130). -/
def mapCachePages : Nat := 16384

/-- A map entry is used: its map page is in the cache, and the least recently used one has left it (R130). -/
def State.touchMap (s : State) (e p : Nat) : State :=
  let k := (e, p / 1024)
  { s with fls := { s.fls with mapCache := (k :: s.fls.mapCache.filter (· != k)).take mapCachePages } }

/-- READ_SUSPEND_MAX (R133). -/
def State.suspendMax (s : State) : Nat := fld s.fls.ctrl 10 3

/-- Count codewords of a die served by reconstruction (R132). -/
def State.countRecon (s : State) (d n : Nat) : State := s.modDie d fun v => { v with recon := satAdd 16 v.recon n }

/-- A read of a page image starts: the map is looked up; a program on its die is suspended, at most READ_SUSPEND_MAX
times, and beyond that, or on a die out of service, the page's 16 codewords are reconstructed (R130, R133, R135). -/
def State.flashRead (s : State) (i : Image) : State :=
  let s := s.touchMap i.ext i.page
  if (s.die i.die).st != 0 then s.countRecon i.die 16
  else match s.fls.programs.find? fun g => g.issued && g.img.die == i.die with
    | none => s
    | some g =>
      if g.suspends < s.suspendMax then
        { s with fls := { s.fls with
            programs := s.fls.programs.map fun h => if h.id = g.id then { h with suspends := h.suspends + 1 } else h } }
      else s.countRecon i.die 16

/-- The image that holds a page at version `v`, or a write-through of it that is still to be programmed and that no
later image has overtaken. -/
def State.source (s : State) (e p v : Nat) : Option Image :=
  match s.fls.programs.find? fun g =>
      g.cmd.isNone && g.frame.isNone && g.img.ext == e && g.img.page == p && !(s.mapNewer g.img) with
  | some g => some g.img
  | none =>
    ((s.fls.images.filter fun i => i.ext == e && i.page == p && verLe i.ver v).foldl
      (fun b i => newer b (some (i.ver, i))) none).map (·.2)

/-- Lines of a page that unrecoverable codewords cover: 64 to a codeword (R132). -/
def badLines (bad : List (Nat × Nat × Nat)) (e p : Nat) : List Nat :=
  (bad.filter fun (f, q, _) => f == e && q == p).flatMap fun (_, _, k) => (List.range 64).map (· + 64 * k)

/-- A page's image is read from flash where it stands there. -/
def State.readFlash (s : State) (e p v : Nat) : State :=
  match s.source e p v with
  | some i => s.flashRead i
  | none => s.touchMap e p

/-! ### Retirement (R134 to R136) -/

/-- Move valid images to fresh places in these groups: programmed as internal, their rows closed, the map switched
(R131, R135, R139). -/
def State.moveImages (s : State) (gs : List Nat) (l : List Image) : State :=
  let r := l.foldl (fun (acc : List (Image × Image) × State) i =>
    let p := acc.2.placeIn gs
    let j := { i with die := p.1.1, row := p.1.2, seq := p.2.fls.nextProg }
    (acc.1 ++ [(i, j)], { p.2 with fls := { p.2.fls with nextProg := p.2.fls.nextProg + 1 } })) ([], s)
  let s := r.1.foldl (fun (s : State) (i, j) => ({ s with fls := { s.fls with
    images := s.fls.images.map fun k => if k = i then j else k
    journal := s.fls.journal ++ [(j.ext, j.page)] } }.countProgram false).countInternal (Config.systemBytes 0)) r.2
  r.1.foldl (fun s (_, j) => s.closeRow (dieGroup j.die) j.row) s

/-- All groups, from the one whose turn it is. -/
def State.anyGroup (s : State) : List Nat := (List.range 32).map fun k => (s.fls.nextProg + k) % 32

/-- A lost image: reprogrammed from a clean RESIDENT or PINNED frame, which counts as internal (R139; assumption 83),
else marked lost, its map entry emptied (R136). -/
def State.loseImage (s : State) (i : Image) : State :=
  let src := (s.framesOf i.ext i.page).find? fun (_, f) =>
    ((f.st == 1 && !f.dirty) || (f.st == 2 && !f.dirty)) && f.ver == i.ver
  let rest := s.fls.images.filter (· != i)
  match src with
  | some (_, f) =>
    let s := { s with fls := { s.fls with images := rest } }
    s.putImage (s.imageOf f i.ver) false
  | none =>
    let s := { s with fls := { s.fls with
      images := rest ++ [{ i with lost := true, lines := [], lens := [] }], dataLost := true } }
    match s.extent i.ext with
    | some x => s.faultTo [x.owner] 0 3 0 i.ext (x.base + i.page * pageBytes)
    | none => s

/-- Programs on a die that is out of service are issued again elsewhere, and open rows with it take no more images
(R134, R135). -/
def State.leaveDie (s : State) (d : Nat) : State :=
  let g := dieGroup d
  let again := s.fls.programs.filter fun p => p.img.die == d
  let s := { s with fls := { s.fls with
    stripes := s.fls.stripes.map fun r => if r.group = g ∧ !r.closed then { r with used := r.members } else r } }
  again.foldl (fun (s : State) p =>
    let q := s.nextPlace
    { q.2 with fls := { q.2.fls with programs := q.2.fls.programs.map fun h =>
        if h.id = p.id then { h with img := { h.img with die := q.1.1, row := q.1.2 } } else h } }) s

/-- Stripe rows of a group in which both dies hold a valid image. -/
def State.rowsOfBoth (s : State) (d e : Nat) : List Nat :=
  let rows (x : Nat) := (s.fls.images.filter fun i => i.die == x && !i.lost).map (·.row)
  ((rows d).filter (rows e).contains).eraseDups

/-- Retire a die: plan with cause RETIREMENT; a second member of a group still rebuilding loses the rows
that hold images on both (R135, R136). -/
def State.retireDie (s : State) (d : Nat) : State :=
  if (s.die d).st != 0 then s
  else
    let other := (groupDies (dieGroup d)).filter fun e => e != d && (s.die e).st == 1
    let s := (s.modDie d fun v => { v with st := 1 }).retirePlan
    let s := ({ s with fls := { s.fls with retiredNew := true } }).fault0 2 0x20 d
    let lost := other.flatMap fun e =>
      let rows := s.rowsOfBoth d e
      s.fls.images.filter fun i => !i.lost && (i.die == d || i.die == e) && rows.contains i.row
    let s := if lost.isEmpty then s else lost.eraseDups.foldl (fun s i => s.loseImage i) (s.fault0 2 0x21 d)
    let s := s.leaveDie d
    if s.fls.images.any fun i => i.die == d && !i.lost then s else s.modDie d fun v => { v with st := 2 }

/-- A block of a die is retired after a program or erase failure; the fourth within 24 h retires the die (R134). -/
def State.retireBlock (s : State) (d row : Nat) : State :=
  let times := recent (s.die d).blockTimes s.now dayCc
  let b := row / Config.blockPages
  let s := s.modDie d fun v => { v with
    badBlocks := satAdd 16 v.badBlocks 1, blockTimes := times, bad := if v.bad.contains b then v.bad else v.bad ++ [b] }
  if 4 ≤ times.length then s.retireDie d else s

end Sys2Proof.Machine
end

