-- ==== Sys2Proof/Machine/Channels.lean ====
section
/-! DEFINITION. GDDR7 channels: chunks moved to reserve slots, the check-line cache, and the scheduler's choice
(R107 to R113, R121, R124). -/

namespace Sys2Proof.Machine

open Sys2Proof

/-! ### Slots (R124) -/

/-- First frame of the reserve. -/
def reserveBase : Nat := 2031616
/-- Channel of slot `k`, whose frame is reserveBase + k div 9. -/
def slotChan (k : Nat) : Nat := 9 * groupOf (reserveBase + k / 9) + k % 9
/-- Chunk position of slot `k` on its channel. -/
def slotPos (k : Nat) : Nat := (reserveBase + k / 9) / 8

/-- The `n`-th slot from `start` on that is on none of these channels; each run of 72 slots has one slot on each
channel. -/
def nthLive (dead : List Nat) (start n : Nat) : Nat :=
  let live := (List.range 72).filter fun r => !dead.contains (slotChan r)
  let m := live.length
  let i := start / 72 * m + (live.filter fun r => decide (r < start % 72)).length + n
  72 * (i / m) + nth live (i % m)

/-- Slot of chunk position `i` of a retired channel: the positions in order take the lowest-numbered slots that are free
and on a working channel. The tables hold two retirements (assumption 85). -/
def slotFor (retired : List Nat) (c i : Nat) : Option Nat :=
  match retired with
  | a :: l =>
    if a = c then some (nthLive [a] 0 i)
    else match l with
      | b :: _ => if b = c then some (nthLive [a, b] (nthLive [a] 0 262143 + 1) i) else none
      | [] => none
  | [] => none

/-- A chunk position of a channel is served from its slot: it has been switched, or needed no copy (R121). -/
def State.switched (s : State) (c i : Nat) : Bool :=
  let ch := s.chan c
  s.drm.retired.contains c && !(ch.todo.contains i) ||
    (match ch.copied with | some (j, w) => j == i && decide (w ≤ s.now) | none => false)

/-- Where the chunk at position `p` of frame `f` stands: channel and chunk position there (R108, R124). A slot on a
channel that retires in its turn moves once more. -/
def State.chunkAt (s : State) (f p : Nat) : Nat × Nat :=
  let c := 9 * groupOf f + p
  let i := f / 8
  match (if s.switched c i then slotFor s.drm.retired c i else none) with
  | none => (c, i)
  | some k =>
    let c := slotChan k
    let i := slotPos k
    match (if s.switched c i then slotFor s.drm.retired c i else none) with
    | none => (c, i)
    | some k => (slotChan k, slotPos k)

/-- Position of the chunk that holds a stored symbol of line `l` of frame `f`. -/
def symbolPos (f l pos : Nat) : Nat := if pos < 64 then runPos f (l / 128) else checkPos f

/-- Channel that a stored symbol is read from. -/
def State.chanOf (s : State) (f l pos : Nat) : Nat := (s.chunkAt f (symbolPos f l pos)).1

/-- Positions of a frame whose chunk stands on a channel. -/
def State.posOn (s : State) (ch f : Nat) : List Nat := (List.range 9).filter fun p => (s.chunkAt f p).1 == ch

/-- Lines of a frame that are lost with the chunk at a position: the run there, or every line when it holds the check
chunk (R108, R122). -/
def linesAt (f p : Nat) : List Nat :=
  if p = checkPos f then List.range 1024
  else
    let j := if p < checkPos f then p else p - 1
    (List.range 128).map (· + 128 * j)

/-- Lines of a frame that a channel's own chunk of it holds. -/
def lostLines (ch f : Nat) : List Nat := linesAt f (ch % 9)

/-- Chunk positions of a channel that hold chunks of frames in use: to be copied when it retires (R121). -/
def State.chunksOn (s : State) (ch : Nat) : List Nat :=
  sortBy (fun (a b : Nat) => decide (a < b)) (s.dir.frames.flatMap fun (f, _) =>
    (List.range 9).filterMap fun p =>
      let (c, i) := s.chunkAt f p
      if c = ch then some i else none).eraseDups

/-! ### The check-line cache (R110) -/

/-- Check lines that it holds. -/
def checkSize : Nat := 32768

/-- The cache holds the check line of a line. -/
def State.checkCached (s : State) (f l : Nat) : Bool := s.drm.checks.any fun (k, _) => k == checkLine f l

/-- A line is written: its check line is in the cache, to be written back, and the least recently used one has left
(R110; the order is the model's, assumption 86). -/
def State.checkWrite (s : State) (f l : Nat) : State :=
  let k := checkLine f l
  { s with drm := { s.drm with checks := ((k, true) :: s.drm.checks.filter (·.1 != k)).take checkSize } }

/-- A read takes its check symbols from the cache where it holds them. -/
def State.checkRead (s : State) (f l : Nat) : State :=
  let k := checkLine f l
  match s.drm.checks.find? (·.1 == k) with
  | some e => { s with drm := { s.drm with checks := e :: s.drm.checks.filter (·.1 != k) } }
  | none => s

/-- Every check line of a frame is written back, and stays cached (R304). -/
def State.checkClean (s : State) (f : Nat) : State :=
  { s with drm := { s.drm with checks := s.drm.checks.map fun (k, d) => (k, d && k / 128 != f) } }

/-- The check lines of a frame leave the cache. -/
def State.checkDrop (s : State) (f : Nat) : State :=
  { s with drm := { s.drm with checks := s.drm.checks.filter fun (k, _) => k / 128 != f } }

/-! ### The scheduler's choice (R111, R112) -/

/-- Urgency of a request with stamp `a` at count `c` for a latency target (R112). -/
def urgencyAt (target a c : Nat) : Nat :=
  if a + 9 * target / 10 ≤ c then 3 else if a + 3 * target / 4 ≤ c then 2 else if a + target / 2 ≤ c then 1 else 0

/-- Latency target of a Gate lane (R113). -/
def State.targetOf (s : State) (lane : Nat) : Nat := fld (sget 0x3E8 s.drm.target lane) 0 16

/-- Urgency of a request at the present count. -/
def State.urgencyOf (s : State) (r : HostReq) : Nat := Nat.max r.urgency (urgencyAt (s.targetOf r.lane) r.stamp s.now)

/-- Frame and line that a request's data line is read from or written to, where it has one. -/
def State.placeOf (s : State) (r : HostReq) : Option (Nat × Nat) :=
  match s.extent r.ext with
  | none => none
  | some x =>
    let n := (r.laddr - x.base) / 64
    match (match s.shadowOf r.ext (n / 1024) r.set with
        | some k => Loc.frame k
        | none => s.locate r.ext (n / 1024) r.ver) with
    | .frame k => some (k, n % 1024)
    | _ => none

/-- Channel, bank and row of a request's data line. -/
def State.bankOf (s : State) (r : HostReq) : Option (Nat × Nat × Nat) :=
  (s.placeOf r).map fun (f, l) =>
    let (c, i) := s.chunkAt f (symbolPos f l 0)
    let (b, w) := Config.bankRow (i * 8192 + l % 128 * 64)
    (c, b, w)

/-- The request goes to a bank's open row. -/
def State.rowHit (s : State) (r : HostReq) : Bool :=
  match s.bankOf r with
  | some (c, b, w) => sfind (s.chan c).rows b == some w
  | none => false

/-- ROW_HIT_CAP. -/
def State.rowHitCap (s : State) : Nat := fld s.drm.ctrl 8 8

/-- A row hit to the bank of `r` may still pass the oldest queued request to that bank. -/
def State.mayPass (s : State) (queue : List HostReq) (r : HostReq) : Bool :=
  match queue.find? fun q => (s.bankOf q).map (fun (c, b, _) => (c, b)) == (s.bankOf r).map (fun (c, b, _) => (c, b)) with
  | some q => q.id == r.id || decide (q.passed < s.rowHitCap)
  | none => true

/-- Criteria 2 to 6 of R111 between two queued requests; `order` decides equal stamps (R13). -/
def State.goesFirst (s : State) (queue : List HostReq) (order : HostReq → HostReq → Bool) (a b : HostReq) : Bool :=
  let ua := s.urgencyOf a
  let ub := s.urgencyOf b
  if ua = 3 ∨ ub = 3 then
    if ua != ub then ua == 3
    else if (a.kd == 2) != (b.kd == 2) then a.kd == 2
    else order a b
  else if a.eff != b.eff then decide (b.eff < a.eff)
  else if ua != ub then decide (ub < ua)
  else
    let ha := s.rowHit a && s.mayPass queue a
    let hb := s.rowHit b && s.mayPass queue b
    if ha != hb then ha else order a b

/-- The request that the schedulers take next from a queue in stamp order (R111). -/
def State.nextReqOf (s : State) (order : HostReq → HostReq → Bool) (queue : List HostReq) : Option HostReq :=
  queue.foldl (fun (m : Option HostReq) r => match m with
    | none => some r
    | some q => if s.goesFirst queue order r q then some r else some q) none

/-- The chosen request opens its row; older requests to its bank that it passed as a row hit count it. -/
def State.opensRow (s : State) (r : HostReq) (queue : List HostReq) : State × List HostReq :=
  match s.bankOf r with
  | none => (s, queue)
  | some (c, b, w) =>
    let hit := s.rowHit r
    (s.modChan c fun ch => { ch with rows := sins ch.rows b w },
      queue.map fun q =>
        if hit ∧ q.stamp < r.stamp ∧ (s.bankOf q).map (fun (c, b, _) => (c, b)) = some (c, b) then
          { q with passed := q.passed + 1 } else q)

end Sys2Proof.Machine
end

