-- ==== Sys2Proof/Machine/Lines.lean ====
section
/-! DEFINITION. Reading and writing one stored line: decode, buckets, second reads, markers, the
merge buffer's stored forms (R118, R119, R157, R160 to R164, R287 to R300, R434, R437, R475). -/

namespace Sys2Proof.Machine

open Sys2Proof

/-! ### Channels -/

/-- A channel in NORMAL enters escalation, and one that already escalates, evacuates or is retired goes on as it is
(assumption 84); the fourth within 24 h goes straight to the limp step (R119, R120). -/
def State.escalate (s : State) (c : Nat) : State :=
  let ch := s.chan c
  if ch.st != 0 then s
  else
    let starts := recent ch.escStarts s.now dayCc
    s.modChan c fun ch => { ch with
      st := 1, sweep := if 4 ≤ starts.length then 4 else 1, slices := 0, escalations := satAdd 16 ch.escalations 1,
      escStarts := starts, lastChange := s.now }

/-- Link-check failures of accesses (R118), each a channel and how often one access failed: reissues counted; more than
16 failures in an interval, or a write's third, start an escalation (R119); failing reads are counted for R122. -/
def State.linkCheck (s : State) (write : Bool) (fails : List (Nat × Nat)) : State :=
  fails.foldl (fun s (c, n) =>
    let most := if write then 2 else 1
    let iv := s.now / 1000000
    let s := s.modChan c fun ch => { ch with
      linkRetries := satAdd 16 ch.linkRetries (Nat.min n most)
      linkWindow := if ch.linkWindow.1 = iv then (iv, ch.linkWindow.2 + n) else (iv, n)
      readFails := if write ∨ n = 0 then ch.readFails
        else if ch.readFails.1 = iv then (iv, ch.readFails.2 + 1) else (iv, 1) }
    if 16 < (s.chan c).linkWindow.2 ∨ (write ∧ most < n) then s.escalate c else s) s

/-- A correction fills the bucket of channel `c` (R292, R309). -/
def State.fillBucket (s : State) (c line : Nat) (ps : List Nat) : State :=
  let ch := s.chan c
  if ch.filter.contains (line, ps) then s
  else
    let s := s.modChan c fun ch => { ch with filter := ((line, ps) :: ch.filter).take 64 }
    if fld s.int.ctrl 0 16 < ch.bucket + 1 then
      let s := (s.modChan c fun ch => { ch with bucket := 0, overflows := satAdd 16 ch.overflows 1 }).intBit 2
      let s := s.fault0 1 0x10 c
      if bitOf s.flt.ctrl 1 then s.escalate c else s
    else s.modChan c fun ch => { ch with bucket := ch.bucket + 1 }

/-- A corrected read of line `l` of frame `f` at these positions (R292). -/
def State.corrected (s : State) (f l : Nat) (ps : List Nat) : State :=
  let s := { s with int := { s.int with ce := (s.int.ce + 1) % 2 ^ 64 } }
  let chans := (ps.map (s.chanOf f l)).eraseDups
  chans.foldl (fun t c => t.fillBucket c (1024 * f + l) (ps.filter fun p => s.chanOf f l p == c)) s

/-- Record an uncorrectable outcome (R305, R306). -/
def State.recordUe (s : State) (line : Nat) (cls : LineClass) (scrub : Bool) : State :=
  let s := (s.intBit 3)
  { s with int := { s.int with
      ue := (s.int.ue + 1) % 2 ^ 64, lastUeCc := s.now
      lastUe := BitVec.ofNat 64 (at_ 0 31 line + at_ 32 2 cls.val + atB 34 scrub) } }

/-! ### One stored line -/

/-- What a line decodes to (R289, R297). -/
inductive LineOut where
  | data (v : Line)
  | marker (reason : Nat)
  | bad (cls : LineClass)
  deriving DecidableEq, Repr

/-- Symbol positions that changed by a correction that is not the injected error itself. -/
def residue (errs : List (Nat × Byte)) (fix : List (Nat × Nat)) : List (Nat × Byte) :=
  addErrs errs (fix.map fun (p, v) => (p, BitVec.ofNat 8 v))

/-- Injections armed for the next read of a line (R434). -/
def State.armedAt (s : State) (line : Nat) : List Armed :=
  s.prt.armed.filter fun a => a.kind == 0 && a.line == line

/-- Injections are applied: INJECT_DONE, and the counts of symbol and codec injections (R437). -/
def State.injected (s : State) (l : List Armed) : State :=
  if l.isEmpty then s
  else { s with prt := { s.prt with
    injectDone := true
    symInj := satAdd 16 s.prt.symInj (l.countP (·.kind == 0))
    codInj := satAdd 16 s.prt.codInj (l.countP (·.kind == 1)) } }

/-- Armed injections are applied and no longer armed. -/
def State.applied (s : State) (l : List Armed) : State :=
  ({ s with prt := { s.prt with armed := s.prt.armed.filter fun a => !l.contains a } }).injected l

/-- Error values of an injection: every named symbol inverted. -/
def Armed.errs (a : Armed) : List (Nat × Byte) :=
  (List.range a.count).map fun i => ((a.first + i) % 72, 0xFF)

/-- Errors that a read meets on the way: a line whose check line is cached reads no check symbols (R110). -/
def State.readErrs (s : State) (f l : Nat) (e : List (Nat × Byte)) : List (Nat × Byte) :=
  if s.checkCached f l then e.filter fun (p, _) => decide (p < 64) else e

/-- Index of line `l` of a frame's page in its extent (R408). -/
def Frame.index (fr : Frame) (l : Nat) : Nat := 1024 * fr.page + l

/-- The 64 bytes of a poison marker: its reason, and the count at which it was formed (R296). -/
def markerLine (reason : Nat) (c : Count) : Line := BitVec.ofNat 512 (at_ 0 8 reason + at_ 64 64 c)

/-- The plain text of a line of a frame (R16, R408). -/
def State.plain (s : State) (fr : Frame) (l : Nat) (v : Line) : Line :=
  match s.extent fr.ext with
  | some x => s.decLine x (fr.index l) v
  | none => v

/-- A cell as a frame stores it (R17, R408). -/
def State.coded (s : State) (fr : Frame) (l : Nat) (c : Cell) : Cell :=
  match s.extent fr.ext with
  | some x => s.encCell x (fr.index l) c
  | none => c

/-- Read line `l` of frame `f` once, with the errors this read meets: outcome, decrypted, and corrected positions
(R16, R287 to R297). -/
def State.readOnce (s : State) (f l : Nat) (faults : List LineFault) : LineOut × List Nat × State :=
  let line := 1024 * f + l
  match s.frame f with
  | none => (.marker 1, [], s)
  | some fr =>
    let arm := s.armedAt line
    let s := s.applied arm
    let extra := arm.foldl (fun es (a : Armed) => addErrs es a.errs) []
    let flip := arm.foldl (fun b (a : Armed) => b != a.hash) false
    let env := (faults.find? fun x => x.line == line)
    let errs := addErrs (addErrs (sget [] fr.errs l) extra) (match env with | some x => s.readErrs f l x.errs | none => [])
    let s := s.checkRead f l
    let hash : BitVec 16 := (match env with | some x => x.hash | none => 0) ^^^ (if flip then 0xFFFF else 0)
    let plain := decodeErrors (errPattern errs hash)
    let flipped := decodeErrors (errPattern errs (~~~hash))
    let good (c : LineClass) : Bool := c == .clean || c == .corrected
    let own (fix : List (Nat × Nat)) : List Nat := fix.map (·.1)
    let bad (c : LineClass) (s : State) : LineOut × List Nat × State :=
      let s := if c = .address then
          { (s.intBit 4) with int := { (s.intBit 4).int with addrFaults := satAdd 32 s.int.addrFaults 1 } }
        else s
      (.bad c, [], s)
    match (sfind fr.lines l).getD (.marker 1 0) with
    | .data v =>
      if good plain.1 then
        if residue errs plain.2 == [] then (.data (s.plain fr l v), own plain.2, s)
        else
          let (v, s) := s.fresh
          (.data v, own plain.2, s)
      else bad plain.1 s
    | .marker r c =>
      if errs.isEmpty && hash == 0 then (.marker r, [], s)
      else if good flipped.1 then
        if residue errs flipped.2 == [] then (.data (s.plain fr l (markerLine r c)), own flipped.2, s)
        else
          let (v, s) := s.fresh
          (.data v, own flipped.2, s)
      else if good plain.1 && residue errs plain.2 == [] then (.marker r, own plain.2, s)
      else bad flipped.1 s

/-- Remove the stored errors of a line: it has been written with a fresh code. -/
def Frame.heal (f : Frame) (l : Nat) : Frame := { f with errs := sput [] f.errs l [] }

/-- Read once, count a correction, and write it back where the mode asks for it (R290 to R293). -/
def State.readLine1 (s : State) (f l : Nat) (faults : List LineFault) : LineOut × State :=
  let (o, ps, s) := s.readOnce f l faults
  if ps.isEmpty then (o, s)
  else
    let s := s.corrected f l ps
    (o, if s.mode != 0 then (s.checkWrite f l).modFrame f fun fr => fr.heal l else s)

/-- A second read is within the interval's allowance of 4,096 (R295); the state counts it. -/
def State.rereadOk (s : State) : Bool × State :=
  let iv := s.now / 1000000
  let n := if s.int.rereads.1 = iv then s.int.rereads.2 else 0
  if n < 4096 then (true, { s with int := { s.int with rereads := (iv, n + 1) } })
  else (false, { s with int := { s.int with skipped := satAdd 32 s.int.skipped 1 } })

/-- A demand or scrub read with its second read (R295, R305): the final outcome. -/
def State.readLine (s : State) (f l : Nat) (env : ReadEnv) (scrub : Bool) : LineOut × State :=
  let (o, s) := s.readLine1 f l env.first
  match o with
  | .bad c =>
    let (ok, s) := s.rereadOk
    if ok then
      let (o, s) := s.readLine1 f l env.second
      match o with
      | .bad c => (.bad c, s.recordUe (1024 * f + l) c scrub)
      | o => (o, s)
    else (.bad c, s.recordUe (1024 * f + l) c scrub)
  | o => (o, s)

/-- The content of a frame has changed: a RESIDENT frame is dirty, a CLEANING one returns to RESIDENT, and a write-back
under way leaves the page dirty (R79); a FILLING frame has taken a store (R19). -/
def Frame.changed (fr : Frame) : Frame :=
  if fr.st = 1 ∨ fr.st = 4 then { fr with st := 1, dirty := true, cleaning := none }
  else if fr.st = 3 then { fr with dirty := true }
  else if fr.st = 2 ∧ fr.pinned then { fr with dirty := true, cleaning := none } else fr

/-- Write a cell to a stored line, encrypted and coded: its errors are gone, and its check symbols go through the
check-line cache (R17, R79, R110). -/
def State.writeCell (s : State) (f l : Nat) (c : Cell) : State :=
  (s.checkWrite f l).modFrame f fun fr =>
    ({ fr with lines := sins fr.lines l (s.coded fr l c), errs := sput [] fr.errs l [] }).changed

/-- Frame-state handling of a line that stays uncorrectable (R295, R305): a marker, a refetch, or a discard. A
proxy's clean frame is freed, and the next read fetches its page from the home again (R376). -/
def State.handUe (s : State) (f l : Nat) : State :=
  match s.frame f with
  | none => s
  | some fr =>
    if fr.st = 1 ∧ !fr.dirty then
      if (s.extent fr.ext).any Extent.proxy then s.freeFrame f
      else s.modFrame f fun fr => { fr with st := 3, lines := [], errs := [], decoded := [], fillVer := fr.ver }
    else if fr.st = 3 then s
    else if fr.st = 7 ∨ fr.st = 8 then s.freeFrame f
    else
      let s := s.writeCell f l (.marker 2 s.now)
      let s := s.modFrame f fun g => { g with dirty := fr.dirty, st := fr.st, cleaning := fr.cleaning }
      let dest := if fr.st = 5 then fr.writer else (match s.extent fr.ext with | some x => x.owner | none => 0)
      let addr := match s.extent fr.ext with | some x => x.base + fr.page * pageBytes + l * 64 | none => 0
      s.faultTo [dest] 0 1 0 fr.ext addr

/-! ### EXP blocks (R160 to R164, R475) -/

/-- Outcome of reading a block or a logical line. -/
inductive Got where
  | ok (cells : List Cell)
  /-- every line poison: unwritten. -/
  | unwritten
  /-- uncorrectable: every logical line poison. -/
  | uncorrectable
  | damaged
  deriving DecidableEq, Repr

/-- Read the first `n` lines of block `b` once, without second reads. -/
def State.blockLines (s : State) (f b n : Nat) (faults : List LineFault) : List LineOut × State :=
  (List.range n).foldl (fun (acc : List LineOut × State) i =>
    let (o, s) := acc.2.readLine1 f (16 * b + i) faults
    (acc.1 ++ [o], s)) ([], s)

/-- A marker seen as a cell. -/
def markCell (s : State) (r : Nat) : Cell := .marker r s.now

/-- Judge the lines that one read of a block returned (R475): the outcome, and whether a re-read is
called for. A line of a raw block that the line code cannot correct stands as a marker of reason 0. -/
def judgeBlock (s : State) (t : CodeTable) (ls : List LineOut) : Got × Bool :=
  let anyBad := ls.any fun o => match o with | .bad _ => true | _ => false
  let anyMark := ls.any fun o => match o with | .marker _ => true | _ => false
  let raw := ls.length = 16
  if raw then
    (.ok (ls.map fun o => match o with | .data v => .data v | .marker r => markCell s r | .bad _ => markCell s 0),
      anyBad || anyMark)
  else if anyBad then (.uncorrectable, true)
  else if anyMark then (.damaged, true)
  else
    match decodeBlock t (ls.map fun o => match o with | .data v => v | _ => 0) with
    | some vs => (.ok (vs.map .data), false)
    | none => (.damaged, true)

/-- A block re-read is within both allowances (R164, R295); the state counts it. -/
def State.blockReread (s : State) : Bool × State :=
  let iv := s.now / 1000000
  let n := if s.cod.rereads.1 = iv then s.cod.rereads.2 else 0
  let m := if s.int.rereads.1 = iv then s.int.rereads.2 else 0
  if 2048 ≤ n then
    (false, ({ s with cod := { s.cod with skipped := satAdd 32 s.cod.skipped 1 } }).codBit 3)
  else if 4096 ≤ m then (false, { s with int := { s.int with skipped := satAdd 32 s.int.skipped 1 } })
  else (true, { s with cod := { s.cod with rereads := (iv, n + 1) }, int := { s.int with rereads := (iv, m + 1) } })

/-- The on-die entry of a block, with the injections armed for its next decode (R437). -/
def State.lenAt (s : State) (f : Nat) (fr : Frame) (b : Nat) : Nat × State :=
  let arm := s.prt.armed.filter fun a => a.kind == 1 && a.line == f && a.first == b
  (arm.foldl (fun n (a : Armed) => n ^^^ (a.count % 16)) (sget 0 fr.lens b ^^^ sget 0 fr.lenDie b), s.applied arm)

/-- A block that was never stored: every line unlisted. -/
def Frame.blockEmpty (fr : Frame) (b : Nat) : Bool :=
  (List.range 16).all fun i => match sfind fr.lines (16 * b + i) with
    | none => true
    | some (.marker 1 _) => true
    | _ => false

/-- A damaged outcome of a decode is counted and shown (R475). -/
def State.countDamage (s : State) (g : Got) : State :=
  if g = .damaged then
    { (s.codBit 0) with cod := { (s.codBit 0).cod with damaged := satAdd 32 s.cod.damaged 1 } }
  else s

/-- The uncorrectable lines among those that the last read of a block returned are recorded (R305). -/
def State.recordBlock (s : State) (f b : Nat) (ls : List LineOut) (scrub : Bool) : State :=
  ls.zipIdx.foldl (fun s (o, i) => match o with
    | .bad c => s.recordUe (1024 * f + 16 * b + i) c scrub
    | _ => s) s

/-- The one re-read of a block, with the length of the GDDR7 copy (R475): what stands after it. -/
def State.secondBlock (s : State) (f b len : Nat) (t : CodeTable) (env : ReadEnv) (ls : List LineOut) (g : Got) :
    List LineOut × Got × State :=
  let r := s.blockReread
  if r.1 then
    let q := r.2.blockLines f b (len + 1) env.second
    (q.1, (judgeBlock q.2 t q.1).1, q.2)
  else (ls, g, r.2)

/-- The uncorrectable lines of a block are handed over one by one (R295). -/
def State.handBlock (s : State) (f b : Nat) (ls : List LineOut) : State :=
  ls.zipIdx.foldl (fun s (o, i) => match o with
    | .bad _ => s.handUe f (16 * b + i)
    | _ => s) s

/-- The reads of block `b`: the on-die length first, then at most one re-read (R475). -/
def State.blockPasses (s : State) (f b : Nat) (fr : Frame) (t : CodeTable) (env : ReadEnv) :
    List LineOut × Got × State :=
  let d := s.lenAt f fr b
  let q := d.2.blockLines f b (d.1 + 1) env.first
  let j := judgeBlock q.2 t q.1
  if j.2 then q.2.secondBlock f b (sget 0 fr.lens b) t env q.1 j.1 else (q.1, j.1, q.2)

/-- Read block `b` of frame `f` as stage 5 does: the on-die length, then at most one re-read with the
GDDR7 copy (R475). -/
def State.readBlock (s : State) (f b : Nat) (t : CodeTable) (env : ReadEnv) (scrub : Bool) : Got × State :=
  match s.frame f with
  | none => (.unwritten, s)
  | some fr =>
    if fr.blockEmpty b then (.unwritten, s)
    else if env.parity.any fun p => p.kind == 4 && paritySecond p && p.index == 64 * f + b then
      (.damaged, s.countDamage .damaged)
    else
      let r := s.blockPasses f b fr t env
      let s := (r.2.2.recordBlock f b r.1 scrub).countDamage r.2.1
      (r.2.1, if scrub then s else s.handBlock f b r.1)

/-- Store a block's 16 cells: encoded when all hold data, raw otherwise, with its length entries
(R159, R161, R168). -/
def State.writeBlock (s : State) (f b : Nat) (t : CodeTable) (cells : List Cell) : State :=
  let data := cells.filterMap fun c => match c with | .data v => some v | _ => none
  let stored : List Cell := if data.length = 16 then (encodeBlock t data).map .data else cells
  let s := stored.zipIdx.foldl (fun s (c, i) => s.writeCell f (16 * b + i) c) s
  s.modFrame f fun fr => { fr with
    lens := sput 0 fr.lens b (stored.length - 1), lenDie := sput 0 fr.lenDie b 0 }

end Sys2Proof.Machine
end

