-- ==== Sys2Proof/Machine/Memory.lean ====
section
/-! DEFINITION. Pages and logical lines: the flash images, fills, eviction, the merge buffer, and the
reading and writing of a logical line by every codec (R16 to R19, R26, R79 to R81, R90, R91, R130, R131,
R160 to R174, R298, R299, R408 to R411). -/

namespace Sys2Proof.Machine

open Sys2Proof

/-! ### Fills (R19, R26) -/

/-- Content of an image merged under what stores have put into a filling frame (R19, R298). -/
def fillLines (now : Count) (have_ : Sparse Cell) (img : Option Image) (lost : List Nat) : Sparse Cell :=
  match img with
  | none => have_
  | some i =>
    let ls : Sparse Cell := if i.lost then (List.range 1024).map fun l => (l, .marker 3 now) else i.lines
    let ls := lost.foldl (fun ls l => sins ls l (.marker 2 now)) ls
    have_.foldl (fun a (l, c) => sins a l c) ls

/-- Codeword `k` of a page image: its 64 lines come under what the frame holds (R19, R26). -/
def decodeLines (now : Count) (have_ : Sparse Cell) (img : Option Image) (lost : Bool) (k : Nat) : Sparse Cell :=
  (List.range 64).foldl (fun ls i =>
    let l := 64 * k + i
    if (sfind ls l).isSome then ls
    else if lost then sins ls l (.marker 2 now)
    else match img with
      | none => ls
      | some g => if g.lost then sins ls l (.marker 3 now)
        else match sfind g.lines l with
          | some c => sins ls l c
          | none => ls) have_

/-- A codeword of a FILLING page is decoded (R26): its lines stand in the frame, or are poison where it cannot be
recovered (R132). -/
def State.decodeCodeword (s : State) (n k : Nat) (lost : Bool) : State :=
  match s.frame n with
  | none => s
  | some fr =>
    if fr.st != 3 || fr.decoded.contains k then s
    else
      let img := s.source fr.ext fr.page fr.fillVer
      s.setFrame n { fr with
        lines := decodeLines s.now fr.lines img lost k
        lens := match img with
          | some i => (List.range 4).foldl (fun m b => sput 0 m (4 * k + b) (sget 0 i.lens (4 * k + b))) fr.lens
          | none => fr.lens
        decoded := k :: fr.decoded }

/-- The fill ends: the page is RESIDENT, or PINNED when PIN asked for it; a page that took stores is
dirty (R19, R26, R82). `lost` names lines of unrecoverable codewords (R132). -/
def State.finishFill (s : State) (n : Nat) (lost : List Nat) : State :=
  match s.frame n with
  | none => s
  | some fr =>
    if fr.st != 3 then s
    else
      let img := s.source fr.ext fr.page fr.fillVer
      let stored := fr.dirty || (s.dir.merge.any fun m => m.frame == n && m.dirty)
      let cur := match s.extent fr.ext with
        | some x => !x.versioned || x.proxy || (s.locate fr.ext fr.page x.ver == Loc.frame n : Bool)
        | none => true
      s.setFrame n { fr with
        lines := fillLines s.now fr.lines img lost
        lens := match img with | some i => i.lens | none => fr.lens
        st := if fr.pinned then 2 else if cur then 1 else 6
        dirty := stored, fillEmpty := false, decoded := [], cleaning := none }

/-- An internal access that needs the stored form of a FILLING frame waits for its fill (R24, R26); a proxy's
page comes with the home's answer. The access meets the codewords that cannot be recovered (R132). -/
def State.settle (s : State) (n : Nat) (env : ReadEnv) : State :=
  match s.frame n with
  | some fr =>
    if fr.st = 3 ∧ !((s.extent fr.ext).any Extent.proxy) then s.finishFill n (badLines env.flashBad fr.ext fr.page) else s
  | none => s

/-! ### The merge buffer (R166, R167, R172) -/

/-- The table that an EXP extent is bound to. -/
def State.tableOf (s : State) (x : Extent) : CodeTable := (s.codeTable x.slot).getD ⟨false, []⟩

/-- The merge-buffer entry of a span. -/
def State.mergeAt (s : State) (f span : Nat) : Option MergeEntry :=
  s.dir.merge.find? fun m => m.frame == f && m.span == span

/-- Replace or add an entry. -/
def State.setMerge (s : State) (m : MergeEntry) : State :=
  { s with dir := { s.dir with
      merge := (s.dir.merge.filter fun k => !(k.frame == m.frame && k.span == m.span)) ++ [m] } }

/-- Bytes of `old` under the mask replaced from `new`. -/
def mixLine (mask : BitVec 64) (new old : Line) : Line :=
  BitVec.ofNat 512 ((List.range 64).foldr (fun i a =>
    a * 256 + (if bitOf mask i then (byteOf new i).toNat else (byteOf old i).toNat)) 0)

/-- Stored offset of line `l` of a frame's page. -/
def Frame.offset (fr : Frame) (l : Nat) : Nat := fr.page * pageBytes + l * 64

/-- Bytes of the FXR data plane. -/
def Extent.planeBytes (x : Extent) : Nat := x.size * x.fxr.width / 16

/-- The masked value of one line of a span: stored bytes under the mask stay (R168, R172). `lost` is the
scale byte for a group that lost a line. -/
def mergeLine (x : Extent) (off : Nat) (mask : BitVec 64) (have_ : Option Cell) (got : LineOut)
    (now : Count) : Option Cell :=
  match have_, got with
  | some (.data v), .data w => some (.data (mixLine mask v w))
  | some (.data v), o =>
    if mask = BitVec.allOnes 64 then some (.data v)
    else
      let fill : Line :=
        if x.isFxr && decide (x.planeBytes ≤ off) then
          let b : Nat := if o = .marker 1 then 0xFD else 0xFE
          BitVec.ofNat 512 ((List.range 64).foldl (fun a _ => a * 256 + b) 0)
        else 0
      some (.data (mixLine mask v fill))
  | some c, _ => some c
  | none, .data w => some (.data w)
  | none, .marker r => if r = 1 then none else some (.marker r now)
  | none, .bad _ => some (.marker 2 now)

/-- Groups of a data-plane line that no store has written there. -/
def lostGroups (x : Extent) (off : Nat) (mask : BitVec 64) : List Nat :=
  let gb := 4 * x.fxr.width
  ((List.range 64).filter fun i => !bitOf mask i).map (fun i => (off + i) / gb) |>.eraseDups

/-- Bytes of a data cell under a mask replaced. -/
def pokeCell (mask : BitVec 64) (v : Line) : Cell → Cell
  | .data w => .data (mixLine mask v w)
  | c => c

/-- Replace bytes under a mask in the stored line at offset `off` of the planes that `fr` belongs to, where that line
stands and holds data: in a merge entry, in a frame, or in the image, which is programmed afresh (R131, R172). -/
def State.pokePlane (s : State) (fr : Frame) (off : Nat) (mask : BitVec 64) (v : Line) : State :=
  let p := off / pageBytes
  let l := off % pageBytes / 64
  let sh := if fr.st = 5 then s.shadowOf fr.ext p fr.set else none
  match (match sh with | some n => Loc.frame n | none => s.locate fr.ext p fr.ver) with
  | .frame n =>
    match s.mergeAt n (l / 16) with
    | some m => s.setMerge { m with
        lines := m.lines.map fun (k, c) => if k = l % 16 then (k, pokeCell mask v c) else (k, c), dirty := true }
    | none => match (s.frame n).bind fun f => (sfind f.lines l).map fun c => (f, c) with
      | some (f, .data w) => s.writeCell n l (.data (mixLine mask v (s.plain f l w)))
      | _ => s
  | .image k => match s.fls.images[k]? with
    | some i => match sfind i.lines l, s.extent fr.ext with
      | some (.data w), some x =>
        let w := s.encLine x (1024 * p + l) (mixLine mask v (s.decLine x (1024 * p + l) w))
        s.putImage { i with lines := sins i.lines l (.data w) } false
      | _, _ => s
    | none => s
  | .empty => s

/-- Contiguous byte mask of `n` bytes from `i`. -/
def byteMask (i n : Nat) : BitVec 64 := BitVec.ofNat 64 ((2 ^ n - 1) <<< i)

/-- Give group `g`, whose data or scale was lost, its poison scale byte (R172). -/
def State.pokeScale (s : State) (x : Extent) (fr : Frame) (g b : Nat) : State :=
  let off := x.planeBytes + g
  s.pokePlane fr off (byteMask (off % 64) 1) (BitVec.ofNat 512 (b <<< (8 * (off % 64))))

/-- Zero the data bytes of group `g`, whose scale was lost (R172). -/
def State.zeroGroup (s : State) (x : Extent) (fr : Frame) (g : Nat) : State :=
  let gb := 4 * x.fxr.width
  let off := g * gb
  let k := Nat.min gb (64 - off % 64)
  let s := s.pokePlane fr off (byteMask (off % 64) k) 0
  if k < gb then s.pokePlane fr (off + k) (byteMask 0 (gb - k)) 0 else s

/-- Groups whose scale byte stands in a scale-plane line where no store has written. -/
def lostScales (x : Extent) (off : Nat) (mask : BitVec 64) : List Nat :=
  ((List.range 64).filter fun i => !bitOf mask i).map fun i => off + i - x.planeBytes

/-- What is owed to groups of an FXR plane when the stored line at `off`, merged under `mask`, could not be read: a
poison scale byte where data was lost, zero data where the scale was (R172). -/
def State.payGroups (s : State) (x : Extent) (fr : Frame) (off : Nat) (mask : BitVec 64) (got : LineOut) : State :=
  let unread := match got with | .data _ => false | _ => true
  if !(x.isFxr && unread && mask != 0 && mask != BitVec.allOnes 64) then s
  else if off < x.planeBytes then
    (lostGroups x off mask).foldl (fun s g => s.pokeScale x fr g (if got = .marker 1 then 0xFD else 0xFE)) s
  else (lostScales x off mask).foldl (fun s g => s.zeroGroup x fr g) s

/-- What loading an entry has gathered: its lines, what each line read as, and the machine. -/
abbrev Gathered := Sparse Cell × List (Nat × LineOut) × State

/-- Line `i` of an entry is read and merged with what the entry holds (R168, R172). -/
def mergeLoadLine (x : Extent) (fr : Frame) (m : MergeEntry) (env : ReadEnv) (acc : Gathered) (i : Nat) : Gathered :=
  let l := 16 * m.span + i
  let r := acc.2.2.readLine m.frame l env false
  let ls := match mergeLine x (fr.offset l) (sget 0 m.mask i) (sfind m.lines i) r.1 r.2.now with
    | some c => sins acc.1 i c
    | none => acc.1
  (ls, acc.2.1 ++ [(i, r.1)], r.2)

/-- Line `i` of an entry of an EXP span, over the block that was read (R168). -/
def mergedOver (m : MergeEntry) (g : Got) (now : Count) (i : Nat) : Cell :=
  match sfind m.lines i with
  | some c => c
  | none => match g with
    | .ok cs => match cs.getD i (.marker 1 now) with
      | .marker 0 c => .marker 2 c
      | c => c
    | .unwritten => .marker 1 now
    | .uncorrectable => .marker 2 now
    | .damaged => .marker 8 now

/-- Load an entry from its stored form; groups whose data was lost get their scale bytes (R168,
R172). -/
def State.mergeLoad (s : State) (x : Extent) (m : MergeEntry) (env : ReadEnv) : MergeEntry × State :=
  if m.loaded then (m, s)
  else
    let s := s.settle m.frame env
    if x.codec = 1 then
      let r := s.readBlock m.frame m.span (s.tableOf x) env false
      ({ m with lines := (List.range 16).map fun i => (i, mergedOver m r.1 r.2.now i), loaded := true }, r.2)
    else
      match s.frame m.frame with
      | none => (m, s)
      | some fr =>
        let r := (List.range 16).foldl (mergeLoadLine x fr m env) ([], [], s)
        ({ m with lines := r.1, loaded := true }, r.2.1.foldl (fun s (i, o) =>
          s.payGroups x fr (fr.offset (16 * m.span + i)) (sget 0 m.mask i) o) r.2.2)

/-- Write a loaded entry's stored form (R159, R161). -/
def State.mergeStore (s : State) (x : Extent) (m : MergeEntry) : State :=
  if x.codec = 1 then
    s.writeBlock m.frame m.span (s.tableOf x) ((List.range 16).map fun i =>
      (sfind m.lines i).getD (.marker 1 s.now))
  else
    m.lines.foldl (fun s (i, c) => s.writeCell m.frame (16 * m.span + i) c) s

/-- Encode and write a dirty entry and keep it clean (R167). -/
def State.flushEntry (s : State) (m : MergeEntry) (env : ReadEnv) : State :=
  match (s.frame m.frame).bind fun fr => (s.extent fr.ext) with
  | none => { s with dir := { s.dir with merge := s.dir.merge.filter fun k => k != m } }
  | some x =>
    if !m.dirty then s
    else
      let (m, s) := s.mergeLoad x m env
      let s := s.mergeStore x m
      (s.setMerge { m with dirty := false, mask := [] })

/-- Set of an entry in the buffer (the spec gives 1,024 sets and not their index, assumption 14). -/
def mergeSet (f span : Nat) : Nat := (64 * f + span) % 1024

/-- Least recently used of a list of entries. -/
def oldest (l : List MergeEntry) : Option MergeEntry :=
  l.foldl (fun b m => match b with | none => some m | some k => if m.used < k.used then some m else b) none

/-- Make room for an entry: the victim is the least recently used, clean before dirty (R167). -/
def State.mergeRoom (s : State) (f span : Nat) (env : ReadEnv) : State :=
  let l := s.dir.merge.filter fun m => mergeSet m.frame m.span == mergeSet f span
  if l.length < 16 then s
  else
    match (match oldest (l.filter fun m => !m.dirty) with | some m => some m | none => oldest l) with
    | none => s
    | some m =>
      let s := s.flushEntry m env
      { s with dir := { s.dir with
          merge := s.dir.merge.filter fun k => !(k.frame == m.frame && k.span == m.span) } }

/-- An entry for a span, made when there is none. -/
def State.mergeEntry (s : State) (f span : Nat) (env : ReadEnv) : MergeEntry × State :=
  match s.mergeAt f span with
  | some m => (m, s)
  | none =>
    let s := s.mergeRoom f span env
    (⟨f, span, [], [], false, false, 0, 0⟩, s)

/-- What a loaded entry's line reads as before bytes are merged into it. -/
def heldOut : Option Cell → LineOut
  | some (.data v) => .data v
  | some (.marker r _) => .marker r
  | none => .marker 1

/-- Merge bytes of a line into its span, without waiting for the stored form (R166); where the entry is loaded and the
line was lost, its groups are marked as a load would mark them (R172). -/
def State.mergeBytes (s : State) (f l : Nat) (mask : BitVec 64) (c : Cell) (env : ReadEnv) : State :=
  let (m, s) := s.mergeEntry f (l / 16) env
  let i := l % 16
  let old := sfind m.lines i
  let own := (s.frame f).bind fun fr => (s.extent fr.ext).map fun x => (fr, x)
  let both := sget 0 m.mask i ||| mask
  let c := match old, c with
    | some (.data w), .data v => .data (mixLine mask v w)
    | o, .data v => match own with
      | some (fr, x) => if m.loaded then (mergeLine x (fr.offset l) both (some (.data v)) (heldOut o) s.now).getD c else c
      | none => c
    | _, c => c
  let clock := s.dir.clock + 1
  let s := { s with dir := { s.dir with clock := clock } }
  let s := s.setMerge { m with
    lines := sins m.lines i c, mask := sput 0 m.mask i both,
    dirty := true, since := if m.dirty then m.since else s.now, used := clock }
  let s := s.modFrame f Frame.changed
  match own with
  | some (fr, x) => if m.loaded then s.payGroups x fr (fr.offset l) both (heldOut old) else s
  | none => s

/-- Flush every entry of a frame (R167). -/
def State.flushFrame (s : State) (f : Nat) (env : ReadEnv) : State :=
  (s.dir.merge.filter fun m => m.frame == f).foldl (fun s m => s.flushEntry m env) s

/-! ### Write-back, eviction and fills (R26, R79, R81, R299) -/

/-- The image of a frame's content as a write-back reads it: a line that stays uncorrectable is carried as poison
(R298, R305). -/
def State.imageRead (s : State) (n : Nat) (f : Frame) (env : ReadEnv) : Image × State :=
  let r := f.lines.foldl (fun (acc : Sparse Cell × State) (l, c) =>
    match c with
    | .marker _ _ => (acc.1 ++ [(l, imageCell c)], acc.2)
    | .data v =>
      let o := acc.2.readLine n l env false
      let k : Cell := match o.1 with
        | .data _ => .data v
        | .marker r => imageCell (.marker r o.2.now)
        | .bad _ => .marker 7 o.2.now
      (acc.1 ++ [(l, k)], o.2)) ([], s)
  ({ s.imageOf f f.ver with lines := r.1 }, r.2)

/-- Write a dirty frame back and leave it clean: image, parity and map switch done (R131). -/
def State.writeBackNow (s : State) (n : Nat) (env : ReadEnv) : State :=
  let s := s.flushFrame n env
  match s.frame n with
  | none => s
  | some fr =>
    let s := { s with fls := { s.fls with programs := s.fls.programs.filter fun g => g.frame != some n } }
    let r := s.imageRead n fr env
    let s := r.2.putImage r.1 true
    s.modFrame n fun fr => { fr with dirty := false, st := if fr.st = 4 then 1 else fr.st, cleaning := none }

/-- A write-back of a proxy frame needs no flash: its copy is at the home (R376). -/
def State.isProxyFrame (s : State) (fr : Frame) : Bool :=
  match s.extent fr.ext with | some x => x.proxy | none => false

/-- Take a frame for a page: a FREE entry, a clean victim, or a dirty one after its write-back; none
when the set has neither (R81). A frame that the page `hold` will not give up again leaves what admitted commands have
reserved in the set (R477). -/
def State.takeFrame (s : State) (salt p : Nat) (hold : Option (Nat × Nat)) (env : ReadEnv) :
    Option (Nat × Nat) × State :=
  let k := setOf salt p
  if (match hold with | some ep => !s.setSpare k ep | none => false) then (none, s)
  else match s.freeWay k, s.freeNumber with
  | some w, some (n, g) => (some (n, 16 * k + w), { s with dir := { s.dir with rr := g } })
  | _, _ =>
    match s.cleanVictim k with
    | some v => (some (v, match s.frame v with | some f => f.entry | none => 16 * k), s.freeFrame v)
    | none =>
      match s.dirtyVictim k with
      | some v =>
        let e := match s.frame v with | some f => f.entry | none => 16 * k
        (some (v, e), (s.writeBackNow v env).freeFrame v)
      | none => (none, s)

/-- Hint level that EXT_HINT gives a page filled on demand (R80). -/
def State.hintLevel (s : State) (e : Nat) : Nat := fld (sget 1 s.dir.hint e) 0 2
/-- EXT_HINT.AHEAD. -/
def State.hintAhead (s : State) (e : Nat) : Nat := fld (sget 1 s.dir.hint e) 4 4

/-- Start a fill of page `p` at version `v`: a frame in FILLING (R26); none where no frame can be
taken. -/
def State.startFill (s : State) (e : Nat) (x : Extent) (p v level : Nat) (env : ReadEnv) :
    Option Nat × State :=
  let (t, s) := s.takeFrame x.salt p none env
  match t with
  | none => (none, s)
  | some (n, entry) =>
    let src := s.source e p v
    let s := if x.proxy then s else s.readFlash e p v
    let ver := match src with | some i => i.ver | none => if x.versioned then Nat.min v 1 else 0
    let fr := { Frame.fresh entry e p 3 (if x.proxy then v else ver) with
      hint := level, fillVer := v, fillEmpty := src.isNone && !x.proxy }
    (some n, (s.setFrame n fr).touch n)

/-- A STAGING frame for a FLASH_ONLY page: the one that holds the version, a free one of the 4,096, else the first in
(R79, R81, R89). -/
def State.stage (s : State) (e : Nat) (x : Extent) (p v : Nat) (env : ReadEnv) : Option Nat × State :=
  let img := s.source e p v
  let ver := match img with | some i => i.ver | none => 0
  match s.stagingOf e p ver with
  | some n => (some n, s.touch n)
  | none =>
    let s := s.readFlash e p v
    let used := s.dir.staging
    let (num, s) := if used.length < 4096 then
        (stagingBase + lowestFree (used.map fun n => 8 * (n - stagingBase)) 0 (used.length + 1) 0, s)
      else match used with
        | n :: _ => (n, (s.flushFrame n env).freeFrame n)
        | [] => (stagingBase, s)
    let k := setOf x.salt p
    let (w, s) := match (if s.setSpare k (e, p) then s.freeWay k else none) with
      | some w => (some w, s)
      | none =>
        let (t, s) := s.takeFrame x.salt p (some (e, p)) env
        (t.map fun (_, en) => en % 16, s)
    match w with
    | none => (none, s)
    | some w =>
      let fr := { Frame.fresh (16 * k + w) e p 8 ver with
        lines := fillLines s.now [] img (badLines env.flashBad e p), lens := match img with | some i => i.lens | none => [] }
      let s := { s with dir := { s.dir with staging := (s.dir.staging.filter (· != num)) ++ [num] } }
      (some num, (s.setFrame num fr).touch num)

/-- The frame in which an internal request reads page `p` at version `v`, filled first where it must be
(R24, R26, R79, R130); none is poison. A proxy's page is not fetched here (R376). -/
def State.fetch (s : State) (e : Nat) (x : Extent) (p v : Nat) (env : ReadEnv) : Option Nat × State :=
  match s.locate e p v with
  | .frame n =>
    let s := s.settle n env
    (some n, s.touch n)
  | _ =>
    if x.proxy ∨ x.tier = 0 then (none, s)
    else if x.tier = 2 then s.stage e x p v env
    else
      let (n, s) := s.startFill e x p v (s.hintLevel e) env
      match n with
      | some n => (some n, s.finishFill n (badLines env.flashBad e p))
      | none => (none, s)

/-! ### Logical reads (R16, R89, R90, R152, R411) -/

/-- What a logical read gives. -/
inductive Read where
  | ok (v : Line)
  /-- poison: marker reason, or 0 with no marker. -/
  | poison (reason : Nat)
  | uncorrectable
  | tag
  | damaged
  deriving DecidableEq, Repr

/-- The read returned data. -/
def Read.isOk : Read → Bool
  | .ok _ => true
  | _ => false

/-- Cells of a merge entry, when it is loaded or holds the line. -/
def State.mergedCell (s : State) (f l : Nat) : Option Cell :=
  (s.mergeAt f (l / 16)).bind fun m => sfind m.lines (l % 16)

/-- Bring an entry's stored form in before a read of its span, and make it the most recently used (R166, R167). -/
def State.mergeReady (s : State) (x : Extent) (f span : Nat) (env : ReadEnv) : State :=
  match s.mergeAt f span with
  | none => s
  | some m =>
    let (m, s) := s.mergeLoad x m env
    let clock := s.dir.clock + 1
    ({ s with dir := { s.dir with clock := clock } }).setMerge { m with used := clock }

/-- Read a stored line of a plane, from its merge entry when there is one. -/
def State.planeLine (s : State) (x : Extent) (f l : Nat) (env : ReadEnv) : LineOut × State :=
  let s := s.mergeReady x f (l / 16) env
  match s.mergeAt f (l / 16) with
  | some m => match sfind m.lines (l % 16) with
    | some (.data v) => (.data v, s)
    | some (.marker r _) => (.marker r, s)
    | none => (.marker 1, s)
  | none => s.readLine f l env false

/-- The frame that serves page `p` of a view: the writer's shadow frame when `l`'s copied bit is set,
else the base (R89, R90). -/
def State.viewFrame (s : State) (e : Nat) (x : Extent) (k v p l : Nat) (env : ReadEnv) : Option Nat × State :=
  let sh := (s.shadowOf e p k).bind fun n => match s.frame n with
    | some f => if f.copied.contains l then some n else none
    | none => none
  match sh with
  | some n => (some n, s.touch n)
  | none => s.fetch e x p v env

/-- Hand lines that stayed uncorrectable to the frame-state handling (R295). -/
def State.afterBad (s : State) (f l : Nat) (o : LineOut) : Read × State :=
  match o with
  | .data v => (.ok v, s)
  | .marker r => (.poison r, s)
  | .bad _ => (.uncorrectable, s.handUe f l)

/-- The stored line at offset `off` of an FXR extent's planes: where it stands and what it decodes to. -/
def State.fxrPart (s : State) (e : Nat) (x : Extent) (k v off : Nat) (env : ReadEnv) :
    Option Nat × LineOut × State :=
  let l := off % pageBytes / 64
  let r := s.viewFrame e x k v (off / pageBytes) l env
  match r.1 with
  | some fr =>
    let q := r.2.planeLine x fr l env
    (some (1024 * fr + l), q.1, q.2)
  | none => (none, .marker 0, r.2)

/-- Logical line of an FXR extent from its three stored parts (R172): at `doff` and `soff`. -/
def fxrValue (f : FxrFmt) (doff soff : Nat) (x y z : LineOut) : Option Read :=
  match x, y, z with
  | .data a, .data b, .data c =>
    let wide := a.toNat + (if doff / 64 = (doff + 4 * f.width - 1) / 64 then 0 else b.toNat <<< 512)
    match fxrDecode f (byteOf c (soff % 64)).toNat ((wide >>> (8 * (doff % 64))) % 2 ^ (32 * f.width)) with
    | some v => some (.ok v)
    | none => some (.poison (if (byteOf c (soff % 64)).toNat = 0xFD then 1 else 7))
  | _, _, _ => none

/-- Where an uncorrectable part stands. -/
def badPart : Option Nat × LineOut → Option Nat
  | (some f, .bad _) => some f
  | _ => none

/-- Read logical line `n` of an FXR extent (R172). -/
def State.readFxr (s : State) (e : Nat) (x : Extent) (k v n : Nat) (env : ReadEnv) : Read × State :=
  let f := x.fxr
  let doff := n * 4 * f.width
  let soff := x.planeBytes + n
  let p := s.fxrPart e x k v doff env
  let q := p.2.2.fxrPart e x k v (doff + 4 * f.width - 1) env
  let r := q.2.2.fxrPart e x k v soff env
  match fxrValue f doff soff p.2.1 q.2.1 r.2.1 with
  | some w => (w, r.2.2)
  | none =>
    match [(p.1, p.2.1), (q.1, q.2.1), (r.1, r.2.1)].filterMap badPart with
    | [] => (.poison (if [p.2.1, q.2.1, r.2.1].any (· == .marker 1) then 1 else 7), r.2.2)
    | bads => (.uncorrectable, bads.eraseDups.foldl (fun s k => s.handUe (k / 1024) (k % 1024)) r.2.2)

/-- Read line `l` of an EXP page in frame `fr`, through the merge buffer (R168). -/
def State.readExp (s : State) (x : Extent) (fr l : Nat) (env : ReadEnv) : Read × State :=
  let s := s.mergeReady x fr (l / 16) env
  match s.mergedCell fr l with
  | some (.data v) => (.ok v, s)
  | some (.marker r _) => (.poison r, s)
  | none =>
    let r := s.readBlock fr (l / 16) (s.tableOf x) env false
    match r.1 with
    | .ok cs => match cs.getD (l % 16) (.marker 1 0) with
      | .data v => (.ok v, r.2)
      | .marker 0 _ => (.uncorrectable, r.2)
      | .marker k _ => (.poison k, r.2)
    | .unwritten => (.poison 1, r.2)
    | .uncorrectable => (.uncorrectable, r.2)
    | .damaged => (.damaged, r.2)

/-- Whether the tag check of a sealed line fails, its second read included (R411). -/
def State.tagFails (s : State) (n : Nat) (env : ReadEnv) (miss : Bool) : Bool × State :=
  if env.tag1.contains n || miss then
    let r := s.rereadOk
    (miss || (env.tag1.contains n && (!r.1 || env.tag2.contains n)), r.2)
  else (false, s)

/-- The tag check of line `n` of a sealed extent, which read as `w` (R411). -/
def State.checkTag (s : State) (e : Nat) (x : Extent) (k v n : Nat) (w : Line) (env : ReadEnv) : Read × State :=
  let toff := x.size + 8 * n
  let l := toff % pageBytes / 64
  let r := s.viewFrame e x k v (toff / pageBytes) l env
  match r.1 with
  | none => (.tag, r.2)
  | some tf =>
    let q := r.2.planeLine x tf l env
    match q.1 with
    | .data t =>
      let c := q.2.tagFails n env (fld t (8 * (toff % 64)) 64 != q.2.tagOf x n w)
      (if c.1 then .tag else .ok w, c.2)
    | .marker _ => (.tag, q.2)
    | .bad _ => (.uncorrectable, q.2.handUe tf l)

/-- Read logical line `n` of an extent at version `v` under shadow set `k` (0: none). -/
def State.readLogical (s : State) (e : Nat) (x : Extent) (k v n : Nat) (env : ReadEnv) : Read × State :=
  if x.isFxr then s.readFxr e x k v n env
  else
    let l := n % 1024
    let r := s.viewFrame e x k v (n / 1024) l env
    match r.1 with
    | none => (.poison 0, r.2)
    | some fr =>
      if x.codec = 1 then r.2.readExp x fr l env
      else
        let o := r.2.readLine fr l env false
        let q := o.2.afterBad fr l o.1
        match q.1 with
        | .ok w => if x.sealed then q.2.checkTag e x k v n w env else q
        | _ => q

/-! ### Logical writes (R17, R19, R90, R172, R298) -/

/-- Mark written lines of a shadow frame as copied (R90). -/
def State.setCopied (s : State) (f : Nat) (ls : List Nat) : State :=
  s.modFrame f fun fr => if fr.st = 5 then
    { fr with copied := ls.foldl (fun c l => if c.contains l then c else l :: c) fr.copied } else fr

/-- Put a cell into a shadow frame, encrypted, its check symbols through the cache (R90, R110). -/
def State.copyCell (s : State) (dst l : Nat) (c : Cell) : State :=
  (s.checkWrite dst l).modFrame dst fun fr => { fr with lines := sins fr.lines l (s.coded fr l c) }

/-- Put one line of a frame as stored into a shadow frame, the unwritten state included (R90). -/
def State.moveLine (s : State) (src dst l : Nat) (env : ReadEnv) : State :=
  let s := match (s.frame src).bind fun b => sfind b.lines l with
    | none => s.modFrame dst fun fr => { fr with lines := sdel fr.lines l }
    | some (.marker r c) => s.copyCell dst l (.marker r c)
    | some (.data _) =>
      let (o, s) := s.readLine src l env false
      match o with
      | .data v => s.copyCell dst l (.data v)
      | .marker r => s.copyCell dst l (.marker r s.now)
      | .bad _ => s.copyCell dst l (.marker 2 s.now)
  s.setCopied dst [l]

/-- Copy one line that a shadow frame does not hold yet from its base (R90). -/
def State.copyLine (s : State) (src dst l : Nat) (env : ReadEnv) : State :=
  match s.frame dst with
  | none => s
  | some fr => if fr.copied.contains l then s else s.moveLine src dst l env

/-- Copy lines from the page image in flash where no frame can be taken for the base (R90). -/
def State.copyImage (s : State) (i : Image) (dst : Nat) (lines : List Nat) (bad : List Nat) : State :=
  lines.foldl (fun s l =>
    match s.frame dst with
    | none => s
    | some fr =>
      if fr.copied.contains l then s
      else
        let c := if bad.contains l then some (.marker 2 s.now) else if i.lost then some (.marker 3 s.now) else sfind i.lines l
        (s.modFrame dst fun fr => { fr with
          lines := match c with | some c => sins fr.lines l c | none => fr.lines
          lens := sput 0 fr.lens (l / 16) (sget 0 i.lens (l / 16)) }).setCopied dst [l]) s

/-- Copy `lines` of the base of a shadow frame (R90, R160); the record of lengths comes along. Lines whose base cannot
be had now stay without their copied bit. -/
def State.copyShadow (s : State) (n : Nat) (lines : List Nat) (env : ReadEnv) : State :=
  match s.frame n with
  | none => s
  | some fr =>
    match s.extent fr.ext with
    | none => s
    | some x =>
      let base := s.locate fr.ext fr.page fr.ver
      let (b, s) := s.fetch fr.ext x fr.page fr.ver env
      match b with
      | none => match base, s.source fr.ext fr.page fr.ver with
        | .empty, _ => s.setCopied n lines
        | _, some i => s.copyImage i n lines (badLines env.flashBad fr.ext fr.page)
        | _, none => s
      | some b =>
        let s := s.flushFrame b env
        let lens := match s.frame b with | some f => f.lens | none => []
        let s := s.modFrame n fun fr => { fr with
          lens := lines.foldl (fun m l =>
            if fr.copied.contains l then m else sput 0 m (l / 16) (sget 0 lens (l / 16))) fr.lens }
        lines.foldl (fun s l => s.copyLine b n l env) s

/-- Allocate a SHADOW frame of set `k` for writer `a` (R90); none when the set is full or no frame can be taken (R91).
A page written late into a set that is being published is copied whole and joins the publish (R94). -/
def State.newShadow (s : State) (e : Nat) (x : Extent) (a k v p : Nat) (env : ReadEnv) : Option Nat × State :=
  if k = 0 ∨ 65536 ≤ (s.shadowSet e k).length then (none, s)
  else
    let (t, s) := s.takeFrame x.salt p (some (e, p)) env
    match t with
    | none => (none, s)
    | some (n, entry) =>
      let s := (s.setFrame n { Frame.fresh entry e p 5 v with writer := a, set := k }).touch n
      match x.pubs.find? fun q => q.set == k && q.src.isNone && q.base != 2 ^ 32 with
      | some q => (some n, ((s.copyShadow n (List.range 1024) env).modFrame n fun f => { f with fillVer := q.ver }).modExtent e
          fun y => { y with pubs := y.pubs.map fun r => if r.set = k ∧ !r.pages.contains p then { r with pages := r.pages ++ [p] } else r })
      | none => (some n, s)

/-- A proxy's shadow frame that its home is being sent is written in a copy of its own (R94, R376). -/
def State.cloneShadow (s : State) (e : Nat) (x : Extent) (n : Nat) (env : ReadEnv) : Option Nat × State :=
  match s.frame n with
  | none => (none, s)
  | some fr =>
    let (t, s) := s.takeFrame x.salt fr.page (some (e, fr.page)) env
    match t with
    | none => (none, s)
    | some (m, entry) => (some m, (s.setFrame m { fr with entry := entry, ext := e, fillVer := 0 }).touch m)

/-- The frame that a write of allotment `a` under shadow set `k` and version `v` uses; a FILLING frame takes the write in
its fill buffer (R19, R90). None: no frame could be taken. -/
def State.writeFrame (s : State) (e : Nat) (x : Extent) (a k v p : Nat) (env : ReadEnv) : Option Nat × State :=
  if x.versioned then
    match s.shadowOf e p k with
    | some n => if x.proxy ∧ (s.frame n).any Frame.cut then s.cloneShadow e x n env else (some n, s.touch n)
    | none => s.newShadow e x a k v p env
  else
    match s.locate e p x.ver with
    | .frame n => (some n, s.touch n)
    | _ =>
      if x.tier = 0 then (none, s)
      else if x.tier = 2 then s.stage e x p x.ver env
      else s.startFill e x p x.ver (s.hintLevel e) env

/-- A FLASH_ONLY page's write goes through to flash: one write-through waits per page, and later writes
join it (R79, R139). -/
def State.writeThrough (s : State) (e : Nat) (x : Extent) (p n : Nat) (env : ReadEnv) : State :=
  if x.tier != 2 ∨ x.versioned then s
  else
    let s := s.flushFrame n env
    match s.frame n with
    | none => s
    | some fr =>
      let img := { s.imageOf fr x.ver with seq := s.fls.nextProg }
      let others := s.fls.programs.filter fun g => !(g.cmd.isNone && g.frame.isNone && g.img.ext == e && g.img.page == p)
      match s.fls.programs.find? fun g => g.cmd.isNone && g.frame.isNone && g.img.ext == e && g.img.page == p with
      | some g =>
        let open_ := s.fls.stripes.any fun r => r.group == dieGroup g.img.die && r.row == g.img.row && !r.closed
        let p := if open_ then ((g.img.die, g.img.row), s) else s.nextPlace
        { p.2 with fls := { p.2.fls with
            programs := others ++ [{ g with img := { img with die := p.1.1, row := p.1.2 } }], nextProg := p.2.fls.nextProg + 1 } }
      | none => s.program img none true none

/-- Before a partial write of a block or plane line into a shadow frame, the rest of it is copied from
the base, so that the codec form stays whole (R90, R166). -/
def State.prepareShadow (s : State) (x : Extent) (n l : Nat) (env : ReadEnv) : State :=
  match s.frame n with
  | some fr =>
    if fr.st = 5 ∧ (x.codec = 1 ∨ x.isFxr ∨ (x.sealed ∧ x.size ≤ fr.offset l)) then
      s.copyShadow n ((List.range 16).map fun i => l / 16 * 16 + i) env
    else s
  | none => s

/-- Put bytes of the stored line at offset `off` through the merge buffer. -/
def State.putPlane (s : State) (e : Nat) (x : Extent) (a k v off : Nat) (mask : BitVec 64) (val : Line)
    (env : ReadEnv) : Bool × State :=
  let p := off / pageBytes
  let l := off % pageBytes / 64
  let (n, s) := s.writeFrame e x a k v p env
  match n with
  | none => (false, s)
  | some n =>
    let s := s.prepareShadow x n l env
    let s := s.mergeBytes n l mask (.data val) env
    (true, (s.setCopied n [l]).writeThrough e x p n env)

/-- What is written to a logical line. -/
inductive Put where
  | data (v : Line)
  | poison (reason : Nat)
  deriving DecidableEq, Repr

/-- Frames for every stored page of a logical line are at hand: a write is done whole or not at all (R81, R91). -/
def State.framesFor (s : State) (e : Nat) (x : Extent) (a k v n : Nat) (env : ReadEnv) : Bool × State :=
  (x.linePages n).foldl (fun (acc : Bool × State) p =>
    if acc.1 then
      let r := acc.2.writeFrame e x a k v p env
      (r.1.isSome, r.2)
    else acc) (true, s)

/-- Write logical line `n` of an FXR extent: the group is quantised, and its data and scale bytes are merged (R171,
R172). -/
def State.writeFxr (s : State) (e : Nat) (x : Extent) (a k v n : Nat) (w : Put) (env : ReadEnv) : State :=
  let f := x.fxr
  let (scale, data, nan) := match w with
    | .data v => fxrQuant f v
    | .poison r => (if r = 1 then 0xFD else 0xFE, 0, false)
  let s := if nan then { s with cod := { s.cod with fxrNan := satAdd 32 s.cod.fxrNan 1 } } else s
  let gb := 4 * f.width
  let doff := n * gb
  let m := Nat.min gb (64 - doff % 64)
  let s := (s.putPlane e x a k v doff (byteMask (doff % 64) m) (BitVec.ofNat 512 (data <<< (8 * (doff % 64)))) env).2
  let s := if m < gb then
      (s.putPlane e x a k v (doff + m) (byteMask 0 (gb - m)) (BitVec.ofNat 512 (data >>> (8 * m))) env).2
    else s
  let soff := x.planeBytes + n
  (s.putPlane e x a k v soff (byteMask (soff % 64) 1) (BitVec.ofNat 512 (scale <<< (8 * (soff % 64)))) env).2

/-- Write logical line `n` of any other extent, a sealed one with its tag (R17, R166, R298, R410). -/
def State.writePlain (s : State) (e : Nat) (x : Extent) (a k v n : Nat) (w : Put) (env : ReadEnv) : State :=
  let l := n % 1024
  let (fr, s) := s.writeFrame e x a k v (n / 1024) env
  match fr with
  | none => s
  | some fr =>
    let cell : Cell := match w with | .data v => .data v | .poison r => .marker r s.now
    if x.codec = 1 then
      let s := s.prepareShadow x fr l env
      let s := s.mergeBytes fr l (BitVec.allOnes 64) cell env
      (s.setCopied fr [l]).writeThrough e x (n / 1024) fr env
    else
      let s := ((s.writeCell fr l cell).setCopied fr [l]).writeThrough e x (n / 1024) fr env
      match w with
      | .data d =>
        if x.sealed then
          let toff := x.size + 8 * n
          (s.putPlane e x a k v toff (byteMask (toff % 64) 8)
            (BitVec.ofNat 512 (s.tagOf x n d <<< (8 * (toff % 64)))) env).2
        else s
      | .poison _ => s

/-- Write logical line `n` for allotment `a` under shadow set `k` and version `v`; false when a frame that the line
needs cannot be taken, and then nothing has been written. -/
def State.writeLogical (s : State) (e : Nat) (x : Extent) (a k v n : Nat) (w : Put) (env : ReadEnv) :
    Bool × State :=
  let r := s.framesFor e x a k v n env
  if !r.1 then (false, s)
  else if x.isFxr then (true, r.2.writeFxr e x a k v n w env)
  else (true, r.2.writePlain e x a k v n w env)

end Sys2Proof.Machine
end

