-- ==== Sys2Proof/Machine/Tiles.lean ====
section
/-! DEFINITION. Composites and the matrix arithmetic: descriptors, tags, rolling out a tile, the synthesis
cache, the engines' jobs and operand buffers, and a read of any extent's line (R177 to R193, R196). -/

namespace Sys2Proof.Machine

open Sys2Proof

/-! ### Descriptors (R177, R180) -/

/-- Rows of W. -/
def dM (d : CompDesc) : Nat := bytesN d 0 4
/-- Columns of W. -/
def dN (d : CompDesc) : Nat := bytesN d 4 4
/-- Rank. -/
def dRank (d : CompDesc) : Nat := bytesN d 8 2
/-- Element type of U. -/
def dUType (d : CompDesc) : Nat := bytesN d 10 1
/-- Element type of V. -/
def dVType (d : CompDesc) : Nat := bytesN d 11 1
/-- B is present. -/
def dBase (d : CompDesc) : Bool := bitOf d 96
/-- Extents of U, V and B. -/
def dUExt (d : CompDesc) : Nat := bytesN d 16 2
@[inherit_doc dUExt] def dVExt (d : CompDesc) : Nat := bytesN d 18 2
@[inherit_doc dUExt] def dBExt (d : CompDesc) : Nat := bytesN d 20 2
/-- Offsets of U, V and B. -/
def dUOff (d : CompDesc) : Nat := bytesN d 24 8
@[inherit_doc dUOff] def dVOff (d : CompDesc) : Nat := bytesN d 32 8
@[inherit_doc dUOff] def dBOff (d : CompDesc) : Nat := bytesN d 40 8
/-- Row strides of U and V. -/
def dUStride (d : CompDesc) : Nat := bytesN d 48 4
@[inherit_doc dUStride] def dVStride (d : CompDesc) : Nat := bytesN d 52 4

/-- Bytes of an element of a type (R177). -/
def elemBytes (ty : Nat) : Nat := if ty < 2 then 2 else 1
/-- Tile columns T_C. -/
def tileCols (d : CompDesc) : Nat := dN d / 256
/-- Tiles T. -/
def tileCount (d : CompDesc) : Nat := dM d / 128 * tileCols d
/-- The composite's size S. -/
def compSize (d : CompDesc) : Nat := ceilDiv (tileCount d) 32 * mib2

/-- Extents that a descriptor names. -/
def dFactors (d : CompDesc) : List Nat := [dUExt d, dVExt d] ++ if dBase d then [dBExt d] else []

/-! ### Versions that a requester reads (R88, R92, R181) -/

/-- Versions that allotment `a` has open: its views, and the current version where it works in place. -/
def State.viewsOf (s : State) (a : Nat) : List (Nat × Nat) :=
  s.ext.tbl.filterMap fun (e, x) =>
    if x.inPlace a then some (e, x.ver) else (x.view a).map fun v => (e, v.ver)

/-- The version at which a requester with these open versions reads an extent; none without a view. -/
def State.verOf (s : State) (vers : List (Nat × Nat)) (e : Nat) : Option Nat :=
  (s.extent e).bind fun x =>
    if x.sharing = 0 then some x.ver
    else (vers.find? fun (n, _) => n == e).map fun (_, v) => if v = 0 then x.ver else v

/-- Tag of a composite's tiles for a requester (R181). -/
def State.tagFor (s : State) (vers : List (Nat × Nat)) (d : CompDesc) : Option (Nat × Nat × Nat) :=
  match s.verOf vers (dUExt d), s.verOf vers (dVExt d),
      (if dBase d then s.verOf vers (dBExt d) else some 0) with
  | some u, some v, some b => some (u, v, b)
  | _, _, _ => none

/-- The newest tag: the factors' current versions (R186). -/
def State.newestTag (s : State) (d : CompDesc) : Nat × Nat × Nat :=
  let v (e : Nat) := match s.extent e with | some x => x.ver | none => 0
  (v (dUExt d), v (dVExt d), if dBase d then v (dBExt d) else 0)

/-! ### Arithmetic (R184, R185) -/

/-- Value of an element code of a type. -/
def elemValue (ty c : Nat) : FV :=
  if ty = 0 then bf16.unpack c
  else if ty = 1 then Fmt.unpack ⟨5, 10⟩ c
  else if ty = 3 then Fmt.unpack ⟨5, 2⟩ c
  else if c % 128 = 127 then .nan
  else
    let ex := c / 8 % 16
    let neg := c / 128 % 2 = 1
    if ex = 0 then .fin neg (c % 8) (-9) else .fin neg (8 + c % 8) (ex - 10 : Int)

/-- One rounding to fp32. -/
def round32 (v : FV) : FV := fp32.unpack (fp32.pack v)

/-- Exact sum of a block's products. -/
def blockSum (a b : List FV) : FV :=
  match List.zipWith FV.mul a b with
  | [] => .fin false 0 0
  | p :: ps => ps.foldl FV.add p

/-- Accumulate `n` blocks of 16 terms in order. -/
def accBlocks : Nat → List FV → List FV → FV → FV
  | 0, _, _, acc => acc
  | n + 1, a, b, acc =>
    accBlocks n (a.drop 16) (b.drop 16) (round32 (acc.add (blockSum (a.take 16) (b.take 16))))

/-- One output element: dot product, addend, rounding to bf16 or fp32. -/
def outElem (k : Nat) (row col : List FV) (add : Option FV) (bf : Bool) : Nat :=
  let acc := accBlocks (ceilDiv k 16) row col (.fin false 0 0)
  let acc := match add with | some b => round32 (acc.add b) | none => acc
  if bf then bf16.pack acc else fp32.pack acc

/-- A value, or poison and whether a damaged block gave it (R183). -/
abbrev Lossy (α : Type) := Bool ⊕ α

/-- What depends on a poisoned value is poison; a damaged block's among them shows. -/
def lossyAll {α : Type} : List (Lossy α) → Lossy (List α)
  | [] => .inr []
  | .inr x :: l => match lossyAll l with
    | .inr xs => .inr (x :: xs)
    | .inl d => .inl d
  | .inl d :: l => match lossyAll l with
    | .inr _ => .inl d
    | .inl e => .inl (d || e)

/-- Poison from a damaged block. -/
def lossyDamage {α : Type} : Lossy α → Bool
  | .inl d => d
  | .inr _ => false

/-- One element of a tile from its row, its column and its addend (R183, R184). -/
def lossyElem (k : Nat) (bf : Bool) (row col : Lossy (List FV)) (add : Option (Lossy FV)) : Lossy Nat :=
  match row, col, add with
  | .inr r, .inr c, none => .inr (outElem k r c none bf)
  | .inr r, .inr c, some (.inr v) => .inr (outElem k r c (some v) bf)
  | r, c, a => .inl (lossyDamage r || lossyDamage c || a.any lossyDamage)

/-- Output of a tile: `cols` elements for each row of `a` (R183). -/
def tileOut (k : Nat) (a b : List (List (Lossy FV))) (cols : Nat) (add : Option (List (List (Lossy FV))))
    (bf : Bool) : List (List (Lossy Nat)) :=
  let colv := (List.range cols).map fun j => lossyAll (b.map fun r => r.getD j (.inl false))
  a.zipIdx.map fun (r, i) =>
    let rv := lossyAll r
    colv.zipIdx.map fun (c, j) =>
      lossyElem k bf rv c (add.map fun m => (m.getD i []).getD j (.inl false))

/-! ### Reading operands -/

/-- Elements of `n` values that a line read as. -/
def lineElems (f : Nat → FV) (eb n : Nat) : Read → List (Lossy FV)
  | .ok v => (List.range n).map fun j => .inr (f (bytesN v (eb * j) eb))
  | r => List.replicate n (.inl (r == .damaged))

/-- Read `n` elements of `eb` bytes from line `l` on. -/
def State.readElems (s : State) (rd : State → Nat → Read × State) (l eb n : Nat) (f : Nat → FV) :
    List (Lossy FV) × State :=
  let per := 64 / eb
  (List.range (ceilDiv n per)).foldl (fun (acc : List (Lossy FV) × State) i =>
    let r := rd acc.2 (l + i)
    (acc.1 ++ lineElems f eb (Nat.min per (n - per * i)) r.1, r.2)) ([], s)

/-- Read a panel of rows at a stride from byte `off`, a multiple of 64. -/
def State.readPanel (s : State) (rd : State → Nat → Read × State) (off stride eb rows n : Nat) (f : Nat → FV) :
    List (List (Lossy FV)) × State :=
  (List.range rows).foldl (fun (acc : List (List (Lossy FV)) × State) i =>
    let r := acc.2.readElems rd ((off + i * stride) / 64) eb n f
    (acc.1 ++ [r.1], r.2)) ([], s)

/-- Lines of a tile of 128 × 256 bf16 values (R180, R183). -/
def tileLines (out : List (List (Lossy Nat))) : List (Lossy Line) :=
  out.flatMap fun row => (List.range 8).map fun j => match lossyAll ((row.drop (32 * j)).take 32) with
    | .inr vs => .inr (BitVec.ofNat 512 (vs.foldr (fun v a => v + a * 65536) 0))
    | .inl d => .inl d

/-- What a read of a tile's line answers. -/
def lossyRead : Lossy Line → Read
  | .inr v => .ok v
  | .inl true => .damaged
  | .inl false => .poison 5

/-! ### Operand buffers (R193) -/

/-- Lines that an engine's operand buffer holds: 4 MiB. -/
def opLines : Nat := 65536

/-- Entries of a buffer that fit, the last used first. -/
def opFit : Nat → List OpEntry → List OpEntry
  | _, [] => []
  | n, q :: l => if q.lines ≤ n then q :: opFit (n - q.lines) l else []

/-- Frame and span from which an operand line is read at version `v` under shadow set `k`. -/
def State.opPlace (s : State) (e k v n : Nat) : Option (Nat × Frame) :=
  match (match s.shadowOf e (n / 1024) k with | some f => Loc.frame f | none => s.locate e (n / 1024) v) with
  | .frame f => (s.frame f).map fun fr => (f, fr)
  | _ => none

/-- The engine's buffer holds the span. -/
def State.opHit (s : State) (eng f span st : Nat) : Bool :=
  (sget [] s.mxe.bufs eng).any fun q => q.frame == f && q.span == span && q.st == st

/-- A span is used by an engine: its entry comes first, and the least recently used ones leave a full buffer. -/
def State.opUse (s : State) (eng f span st lines : Nat) : State :=
  let rest := (sget [] s.mxe.bufs eng).filter fun q => !(q.frame == f && q.span == span)
  { s with mxe := { s.mxe with bufs := sput [] s.mxe.bufs eng (opFit opLines (⟨f, span, st, lines⟩ :: rest)) } }

/-- Read operand line `n` for an engine: from its buffer, which GDDR7 errors do not reach, or from the tier, and into the
buffer (R193). -/
def State.opRead (s : State) (eng : Option Nat) (e : Nat) (x : Extent) (k v n : Nat) (env : ReadEnv) : Read × State :=
  match eng with
  | none => s.readLogical e x k v n env
  | some g =>
    let span := n % 1024 / 16
    match (s.opPlace e k v n).filter fun (f, fr) => s.opHit g f span fr.st with
    | some (f, fr) =>
      let clean := s.modFrame f fun fr => { fr with errs := [] }
      let r := clean.readLogical e x k v n noEnv
      (r.1, s.opUse g f span fr.st (((sget [] s.mxe.bufs g).find? fun q => q.frame == f && q.span == span).elim 16 (·.lines)))
    | none =>
      let r := s.readLogical e x k v n env
      match r.1, r.2.opPlace e k v n with
      | .ok _, some (f, fr) =>
        (r.1, r.2.opUse g f span fr.st
          (if x.codec = 1 ∧ (r.2.mergeAt f span).isNone then sget 0 fr.lens (n % 1024 / 16) + 1 else 16))
      | _, _ => r

/-- Line `n` of a factor at its version, never through a shadow set (R184). -/
def State.factorLine (eng : Option Nat) (e v : Nat) (env : ReadEnv) (s : State) (n : Nat) : Read × State :=
  match s.extent e with
  | some x => s.opRead eng e x 0 v n env
  | none => (.poison 0, s)

/-- The base of a tile: 128 rows of 256 bf16 elements, rows of 512 bytes one after another (R178, R181). -/
def State.tileBase (rd : State → Nat → Read × State) (addr : Nat) (s : State) :
    Option (List (List (Lossy FV))) × State :=
  let b := s.readPanel rd addr 512 2 128 256 (elemValue 0)
  (some b.1, b.2)

/-- Roll out tile `p` of a composite at a tag, never through a shadow set (R181, R183, R184). -/
def State.synthTile (s : State) (eng : Option Nat) (d : CompDesc) (p : Nat) (tag : Nat × Nat × Nat) (env : ReadEnv) :
    List (Lossy Line) × State :=
  let k := dRank d
  let r := p / tileCols d
  let c := p % tileCols d
  let u := s.readPanel (State.factorLine eng (dUExt d) tag.1 env) (dUOff d + 128 * r * dUStride d) (dUStride d)
    (elemBytes (dUType d)) 128 k (elemValue (dUType d))
  let v := u.2.readPanel (State.factorLine eng (dVExt d) tag.2.1 env) (dVOff d + 256 * c * elemBytes (dVType d))
    (dVStride d) (elemBytes (dVType d)) k 256 (elemValue (dVType d))
  let b := if dBase d then State.tileBase (State.factorLine eng (dBExt d) tag.2.2 env) (dBOff d + p * pageBytes) v.2
    else (none, v.2)
  (tileLines (tileOut k u.1 v.1 256 b.1 true), b.2)

/-! ### The synthesis cache (R186 to R188) -/

/-- Composites share entries: equal descriptors and key slot, both CACHED (R188). -/
def Extent.sharesTiles (x y : Extent) : Bool :=
  x.composite && y.composite && x.tier == 1 && y.tier == 1 && x.desc == y.desc && x.keySlot == y.keySlot

/-- The entry that serves tile `p` of composite `e` at a tag. -/
def State.tileEntry (s : State) (e : Nat) (x : Extent) (p : Nat) (tag : Nat × Nat × Nat) : Option Nat :=
  (s.dir.frames.find? fun (_, f) => f.st == 7 && f.page == p && f.tag == tag &&
    (f.ext == e || (match s.extent f.ext with | some y => x.sharesTiles y | none => false))).map (·.1)

/-- Every component of a tag is the other's version or an older one. -/
def tagLe (a b : Nat × Nat × Nat) : Bool := verLe a.1 b.1 && verLe a.2.1 b.2.1 && verLe a.2.2 b.2.2

/-- Entries of tile `p` that composite `e` uses, shared ones included (R186, R188). -/
def State.tileEntries (s : State) (e : Nat) (x : Extent) (p : Nat) : List (Nat × Frame) :=
  s.dir.frames.filter fun (_, f) => f.st == 7 && f.page == p &&
    (f.ext == e || (match s.extent f.ext with | some y => x.sharesTiles y | none => false))

/-- The entry with the newest tag of a tile. -/
def State.newestEntry (s : State) (e : Nat) (x : Extent) (p : Nat) : Option Nat :=
  ((s.tileEntries e x p).foldl (fun (b : Option (Nat × Frame)) q => match b with
    | none => some q
    | some k => if tagLe k.2.tag q.2.tag then some q else some k) none).map (·.1)

/-- The newest entry of a tile is pinned (R189). -/
def State.pinTile (s : State) (e : Nat) (x : Extent) (p : Nat) : State :=
  match s.newestEntry e x p with
  | some n => s.modFrame n fun f => { f with pinned := true, charged := true }
  | none => s

/-- Keep a tile in the cache at a hint level, pinned or not; a tile with a poisoned line, or for which no
frame can be taken, is not kept, and an entry that already serves the tile stays. The entry with the newest tag of a
PINNED composite's tile has its charged frame, the older one being counted against the floor; an entry whose tag is not
the newest is at COLD (R17, R183, R186, R189). -/
def State.keepTile (s : State) (e : Nat) (x : Extent) (p : Nat) (tag : Nat × Nat × Nat) (t : List (Lossy Line))
    (level : Nat) (pin : Bool) (env : ReadEnv) : State :=
  let s := { s with mxe := { s.mxe with tiles := (s.mxe.tiles + 1) % 2 ^ 64 } }
  match lossyAll t, s.tileEntry e x p tag with
  | .inl _, _ => s
  | .inr _, some _ => if pin && x.tier == 1 then s.pinTile e x p else s
  | .inr ls, none =>
    let top := (s.tileEntries e x p).all fun (_, f) => tagLe f.tag tag
    let again := s.mxe.repin.contains (e, p)
    let pinned := x.tier == 1 && top && (pin || again)
    let charged := top && (x.tier == 0 || pinned)
    let r := s.takeFrame x.salt p (if charged then some (e, p) else none) env
    match r.1 with
    | none => { r.2 with mxe := { r.2.mxe with uncached := satAdd 32 r.2.mxe.uncached 1 } }
    | some (n, entry) =>
      let s := r.2
      let s := if x.tier = 0 ∧ top then
          { s with dir := { s.dir with frames := s.dir.frames.map fun (k, g) =>
              if g.st = 7 ∧ g.ext = e ∧ g.page = p then (k, { g with charged := false, hint := 0 }) else (k, g) } }
        else s
      let s := if pinned then { s with mxe := { s.mxe with repin := s.mxe.repin.erase (e, p) } } else s
      let s := (s.setFrame n { Frame.fresh entry e p 7 0 with
        hint := if tag == s.newestTag x.desc then level else 0, pinned := pinned, charged := charged, tag := tag
        lines := ls.zipIdx.map fun (v, l) => (l, Cell.data (s.encLine x (1024 * p + l) v)) }).touch n
      if pin && x.tier == 1 && !top then s.pinTile e x p else s

/-- Entries whose tag no held version resolves to are freed (R186). -/
def State.releaseTiles (s : State) : State :=
  let held (e v : Nat) : Bool := match s.extent e with
    | some x => (s.heldVersions e x).contains v
    | none => false
  let dead := s.dir.frames.filter fun (_, f) => f.st == 7 && (match s.extent f.ext with
    | some x =>
      let d := x.desc
      !(held (dUExt d) f.tag.1 && held (dVExt d) f.tag.2.1 && (!dBase d || held (dBExt d) f.tag.2.2))
    | none => true)
  dead.foldl (fun s (n, _) => s.freeFrame n) s

/-- Free what R101 no longer holds of an extent, tiles included, and test RETAIN_HIGH again. -/
def State.release (s : State) (e : Nat) : State := ((s.release101 e).releaseTiles).retainTest

/-- Whether tile `p` reads page `q` of factor `f` (R187). -/
def tileReads (d : CompDesc) (f p q : Nat) : Bool :=
  let lo := q * pageBytes
  let hi := lo + pageBytes
  let r := p / tileCols d
  let c := p % tileCols d
  let rows (off stride len : Nat) (n : List Nat) : Bool :=
    n.any fun i => decide (off + i * stride < hi) && decide (lo < off + i * stride + len)
  (dUExt d == f && rows (dUOff d) (dUStride d) (dRank d * elemBytes (dUType d))
    ((List.range 128).map fun i => 128 * r + i)) ||
  (dVExt d == f && rows (dVOff d + 256 * c * elemBytes (dVType d)) (dVStride d) (256 * elemBytes (dVType d))
    (List.range (dRank d))) ||
  (dBase d && dBExt d == f && decide (dBOff d + p * pageBytes < hi) &&
    decide (lo < dBOff d + p * pageBytes + pageBytes))

/-- A tag with the component of factor `f` changed from `v` to `w`. -/
def retag (d : CompDesc) (f v w : Nat) (t : Nat × Nat × Nat) : Nat × Nat × Nat :=
  (if dUExt d = f ∧ t.1 = v then w else t.1,
    if dVExt d = f ∧ t.2.1 = v then w else t.2.1,
    if dBase d ∧ dBExt d = f ∧ t.2.2 = v then w else t.2.2)

/-- Retagging at a commit that raises factor `f` from `v` to `w` with these pages; entries left behind
are stale at COLD, and a stale pinned entry hands its pin on (R187, R189). -/
def State.retagTiles (s : State) (f v w : Nat) (pages : List Nat) : State :=
  let frames := s.dir.frames.map fun (n, g) =>
    match (if g.st = 7 then (s.extent g.ext).filter fun x => (dFactors x.desc).contains f else none) with
    | none => (n, g)
    | some x =>
      if pages.any fun q => tileReads x.desc f g.page q then
        (n, { g with hint := 0, pinned := false, charged := g.charged && !g.pinned })
      else (n, { g with tag := retag x.desc f v w g.tag })
  let lost := (s.dir.frames.zip frames).filterMap fun ((_, a), (_, b)) =>
    if a.pinned && !b.pinned && a.st == 7 then some (a.ext, a.page) else none
  { s with dir := { s.dir with frames := frames }, mxe := { s.mxe with repin := s.mxe.repin ++ lost } }

/-! ### Jobs (R182, R190 to R192) -/

/-- The job that rolls out tile `p` of a composite at a tag, for it or for one that shares its tiles (R182, R188). -/
def State.tileJob (s : State) (e : Nat) (x : Extent) (p : Nat) (tag : Nat × Nat × Nat) : Option SynthJob :=
  s.mxe.jobs.find? fun j => j.tile == p && j.tag == tag &&
    (j.ext == e || (match s.extent j.ext with | some y => x.sharesTiles y | none => false))

/-- Job `a` is taken before `b`: COMMAND work in promise order; MISS work by effective priority, then stamp, tiles asked
for ahead only after every demand miss; equal ones as they came (R189, R191). -/
def SynthJob.before (a b : SynthJob) : Bool :=
  if a.command then decide (a.promise < b.promise) || (a.promise == b.promise && decide (a.id < b.id))
  else if a.ahead != b.ahead then b.ahead
  else if a.eff != b.eff then decide (b.eff < a.eff)
  else decide (a.stamp < b.stamp) || (a.stamp == b.stamp && decide (a.id < b.id))

/-- Engines of a role. -/
def State.roleEngines (s : State) (command : Bool) : List Nat :=
  if command then s.commandEngines else s.missEngineList s.plan.cur.miss

/-- Engines of a role that run no job. -/
def State.freeEngines (s : State) (command : Bool) : List Nat :=
  (s.roleEngines command).filter fun e => !(s.mxe.jobs.any fun j => j.eng == some e)

/-- The free engine that a job takes: the first of its role in the role's order (the choice is the model's, assumption
87), another one than that of its residue error where the role has another (R199). -/
def State.engineOf (s : State) (j : SynthJob) : Option Nat :=
  (s.freeEngines j.command).find? fun e => j.avoid != some e || (s.roleEngines j.command).length == 1

/-- The job that a role's engines take next, among those for which one is free. -/
def State.nextJob (s : State) (command : Bool) : Option SynthJob :=
  s.mxe.jobs.foldl (fun (b : Option SynthJob) j =>
    if j.command != command || j.eng.isSome || (s.engineOf j).isNone then b
    else match b with
      | none => some j
      | some k => if j.before k then some j else some k) none

/-- Jobs that wait start on the free engines of their role. -/
def State.startJobs (command : Bool) : Nat → State → State
  | 0, s => s
  | k + 1, s =>
    match s.nextJob command with
    | some j => State.startJobs command k { s with mxe := { s.mxe with
        jobs := s.mxe.jobs.map fun i => if i.id = j.id then { i with eng := s.engineOf j } else i } }
    | none => s

/-- The promise that ranks after every other. -/
def lastPromise : Count := 0xFFFFFFFFFFFFFFFF

/-- Misses that wait while no engine has the MISS role are COMMAND work, after all work with a promise (R192). -/
def State.orphanMisses (s : State) : State :=
  if s.missCount s.plan.cur.miss != 0 then s
  else { s with mxe := { s.mxe with jobs := s.mxe.jobs.map fun j =>
    if !j.command && j.eng.isNone then { j with command := true, promise := lastPromise } else j } }

/-- Both roles take what waits. -/
def State.runJobs (s : State) : State :=
  let s := s.orphanMisses
  State.startJobs true s.mxe.jobs.length (State.startJobs false s.mxe.jobs.length s)

/-- Start a synthesis job (R182, R191, R192). -/
def State.newJob (s : State) (j : SynthJob) : Nat × State :=
  let id := s.mxe.jobs.foldl (fun m i => Nat.max m (i.id + 1)) 0
  (id, ({ s with mxe := { s.mxe with jobs := s.mxe.jobs ++ [{ j with id := id }] } }).runJobs)

/-- A job of a load or peer read, or of one to be rolled out ahead of it. -/
def missJob (e p : Nat) (tag : Nat × Nat × Nat) (command : Bool) (level eff : Nat) (stamp promise : Count) (ahead : Bool) :
    SynthJob :=
  { id := 0, ext := e, tile := p, tag := tag, command := command, restarted := false, level := level, pin := false
    cmd := none, readers := [], eff := eff, stamp := stamp, promise := promise, ahead := ahead, joined := [], eng := none
    avoid := none }

/-- A job on a COMMAND engine for a command. -/
def cmdJob (e p : Nat) (tag : Nat × Nat × Nat) (level : Nat) (pin : Bool) (cmd : Option Nat) (readers : List Nat)
    (promise : Count) : SynthJob :=
  { missJob e p tag true level 0 0 promise false with pin := pin, cmd := cmd, readers := readers }

/-! ### Reading a line of any extent -/

/-- Read a line of a composite for an internal request (R181, R191). A command `id` whose tile is missing waits: the tile
is named in `want`; a read for no command rolls the tile out on the first COMMAND engine. -/
def State.readTile (s : State) (id : Option Nat) (e : Nat) (x : Extent) (tag : Nat × Nat × Nat) (n : Nat) (env : ReadEnv) :
    Read × State :=
  let p := n / 1024
  if tileCount x.desc ≤ p then (.ok 0, s)
  else
    match s.tileEntry e x p tag with
    | some f =>
      let s := { s with mxe := { s.mxe with hits := (s.mxe.hits + 1) % 2 ^ 64 } }
      let s := s.touch f
      let (o, s) := s.readLine f (n % 1024) env false
      s.afterBad f (n % 1024) o
    | none =>
      match s.mxe.outs.find? fun o => some o.cmd == id && o.ext == e && o.tile == p && o.tag == tag with
      | some o => (lossyRead (o.lines.getD (n % 1024) (.inl false)), s)
      | none =>
        if s.activeEngines = 0 then (.poison 5, s)
        else if id.isSome then
          (.poison 5, { s with mxe := { s.mxe with
            want := if s.mxe.want.contains (e, p, tag) then s.mxe.want else s.mxe.want ++ [(e, p, tag)] } })
        else
          let eng := s.commandEngines.head?
          let (t, s) := s.synthTile eng x.desc p tag env
          let s := match eng with
            | some g => { s with mxe := { s.mxe with
                jobsDone := sput 0 s.mxe.jobsDone g ((sget 0 s.mxe.jobsDone g + 1) % 2 ^ 32) } }
            | none => s
          let s := s.keepTile e x p tag t (s.hintLevel e) false env
          (lossyRead (t.getD (n % 1024) (.inl false)), s)

/-- The tiles that a command's reads found missing are rolled out for it: those with a job already get one more reader
(R182, R191). -/
def State.wantTiles (s : State) (id : Nat) (promise : Count) (l : List (Nat × Nat × (Nat × Nat × Nat))) : State :=
  l.foldl (fun s (e, p, tag) => match s.extent e with
    | none => s
    | some x => match s.tileJob e x p tag with
      | some j => { s with mxe := { s.mxe with jobs := s.mxe.jobs.map fun i =>
          if i.id = j.id ∧ !(i.readers.contains id) then { i with readers := i.readers ++ [id] } else i } }
      | none => (s.newJob (cmdJob e p tag (s.hintLevel e) false none [id] promise)).2) s

/-- Run work of a command that may read composites: where a tile is missing, the work waits for its job and nothing else
of it happens now (false); else what it read from output buffers is given up (R24, R182). -/
def State.withTiles (s : State) (id : Nat) (promise : Count) (run : State → State) : Bool × State :=
  let t := run s
  if t.mxe.want.isEmpty then (true, { t with mxe := { t.mxe with outs := t.mxe.outs.filter fun o => o.cmd != id } })
  else (false, s.wantTiles id promise t.mxe.want)

/-- Read logical line `n` of any extent for a requester with these open versions and shadow sets, on an engine when `eng`
names one; `id` names the command that reads. -/
def State.readAny (s : State) (id eng : Option Nat) (e a : Nat) (vers sets : List (Nat × Nat)) (n : Nat) (env : ReadEnv) :
    Read × State :=
  match s.extent e with
  | none => (.poison 0, s)
  | some x =>
    if x.composite then
      match s.tagFor vers x.desc with
      | some tag => s.readTile id e x tag n env
      | none => (.poison 0, s)
    else
      match s.verOf vers e with
      | some v => s.opRead eng e x (x.cmdSet a e sets) v n env
      | none => (.poison 0, s)

end Sys2Proof.Machine
end

