-- ==== Sys2Proof/Machine/Space.lean ====
section
/-! DEFINITION. Operations that several families share: Tamian messages, capacity events, revocation, lost
frames and on-die SRAM parity (R64 to R69, R75, R122, R302, R303, R311, R312, R318, R349, R372 to R380). -/

namespace Sys2Proof.Machine

open Sys2Proof

/-! ### Proxies and their homes (R58, R375, R376) -/

/-- Home expander and home address of a proxy's page (R58, R375). -/
def Extent.home (x : Extent) : Nat := x.pool.getD 0 / 2 ^ 48
@[inherit_doc Extent.home] def Extent.homeAddr (x : Extent) (p : Nat) : Nat := x.pool.getD 0 % 2 ^ 48 + p * pageBytes

/-- Start the fill of a proxy's page: a FILLING frame and a PAGE_READ (R376, R379). -/
def State.proxyFill (s : State) (e : Nat) (x : Extent) (p v cls : Nat) (env : ReadEnv) : Option Nat × State :=
  let (n, s) := s.startFill e x p v (s.hintLevel e) env
  match n with
  | none => (none, s)
  | some n =>
    let (_, s) := s.tamRequest (s.message 0x10 cls x.home 0 (x.homeAddr p) [v]) e p none
    (some n, s)

/-- Tell a proxy's home that its view has ended; kept until it is answered (R376, R378). -/
def State.closeRemote (s : State) (e : Nat) (x : Extent) : State :=
  let (_, s) := s.tamRequest (s.message 0x17 0 x.home 0 (x.homeAddr 0) []) e 0 none
  { s with tam := { s.tam with closing := if s.tam.closing.contains e then s.tam.closing else s.tam.closing ++ [e] } }

/-! ### Windows (R72, R85) -/

/-- Aperture base, target and size of a window. -/
def Window.base (w : Window) : Nat := fld w.apt 21 19 * mib2
@[inherit_doc Window.base] def Window.to (w : Window) : Nat := fld w.target 21 27 * mib2
@[inherit_doc Window.base] def Window.len (w : Window) : Nat := fld w.size 0 20 * mib2
/-- In use. -/
def Window.on (w : Window) : Bool := bitOf w.ctrl 0 && fld w.size 0 20 != 0

/-- STALE of live windows over an extent's bytes from `lo` on; no request passes them until a commit replaces them (R75).
-/
def State.staleWindows (s : State) (x : Extent) (only : Option Nat) (lo : Nat) : State :=
  (List.range 64).foldl (fun s n =>
    if only.isSome && only != some n then s
    else
      let a := s.allot n
      let hit := a.live.filter fun (_, w) => w.on && decide (x.base ≤ w.to) &&
        decide (w.to < x.base + x.size) && decide (x.base + lo < w.to + w.len)
      if hit.isEmpty then s
      else s.setAllot n { a with
        winStale := hit.foldl (fun v (k, _) => setBit v k true) a.winStale
        winDead := hit.foldl (fun v (k, _) => setBit v k true) a.winDead }) s

/-! ### Dynamic capacity (R64, R68, R349) -/

/-- Put a record into a logical device's dynamic-capacity log and raise that log's vector. -/
def State.dcdEvent (s : State) (n kind e : Nat) : State :=
  let k := s.ldOf n
  let s := s.modLd k fun d => { d with dcdLog := d.dcdLog ++ [(d.logHandle, kind, e)], logHandle := d.logHandle + 1 }
  match sfind (s.ld k).logVec 4 with
  | some v => s.interrupt n v
  | none => s

/-- Offer capacity to an allotment's logical device. -/
def State.offer (s : State) (n e base size : Nat) : State :=
  let s := s.modLd (s.ldOf n) fun d => { d with offered := d.offered ++ [(base, size)] }
  (s.dcdEvent n 0 e).emit (.addCapacity (s.ldOf n) e base size)

/-- Parts of accepted ranges outside [lo, hi). -/
def cutRange (lo hi : Nat) (l : List (Nat × Nat × Count)) : List (Nat × Nat × Count) :=
  l.flatMap fun (b, n, c) =>
    if b + n ≤ lo ∨ hi ≤ b then [(b, n, c)]
    else (if b < lo then [(b, lo - b, c)] else []) ++ (if hi < b + n then [(hi, b + n - hi, c)] else [])

/-- Take capacity back from an allotment's logical device (R349). -/
def State.takeBack (s : State) (n e base size : Nat) : State :=
  let k := s.ldOf n
  let s := s.modLd k fun d => { d with
    accepted := cutRange base (base + size) d.accepted
    offered := d.offered.filter fun (b, l) => decide (b + l ≤ base) || decide (base + size ≤ b) }
  (s.dcdEvent n 2 e).emit (.releaseCapacity k base size)

/-- Owner and members of an extent. -/
def Extent.holders (x : Extent) : List Nat := x.owner :: x.members.map (·.1)

/-- An EXTENT event (R255). -/
def State.extentEvent (s : State) (n kind e : Nat) (x : Extent) : State :=
  s.post n 4 [(16, 1, kind), (18, 2, e), (20, 4, x.attr.toNat), (24, 8, x.base), (32, 8, x.size)]

/-! ### Revocation (R67 to R69, R377) -/

/-- A view ends: the issuer's held commands keep the version and the shadow set that it held (R477). -/
def State.keepView (s : State) (e a : Nat) (x : Extent) : State :=
  match x.view a with
  | none => s
  | some v =>
    { s with cmds := s.cmds.map fun c =>
        if c.phase = .held ∧ c.allot = a then { c with vers := (e, v.ver) :: c.vers, sets := (e, v.set) :: c.sets } else c }

/-- End views of an extent by a revocation; a proxy whose last view ends tells its home. -/
def State.endViews (s : State) (e : Nat) (only : Option Nat) : State :=
  match s.extent e with
  | none => s
  | some x =>
    let gone := (x.views.map (·.allot)).filter fun a => only.isNone || only == some a
    let left := x.views.filter fun v => !gone.contains v.allot
    let s := gone.foldl (fun s a => s.keepView e a x) s
    let s := s.setExtent e { x with views := left, endedViews := x.endedViews ++ gone.map fun a => (a, (x.view a).elim 0 (·.set)) }
    if x.proxy && !gone.isEmpty && left.isEmpty then s.closeRemote e x else s

/-- Free the frames of a shadow set. -/
def State.dropShadows (s : State) (e k : Nat) : State :=
  (s.shadowSet e k).foldl (fun s (n, _) => s.freeFrame n) s

/-- The revoke count of an extent is reached: views end, windows become stale, remote parts are told. -/
def State.revokeReached (s : State) (e : Nat) : State :=
  match s.extent e with
  | none => s
  | some x =>
    let s := (s.endViews e none).staleWindows x none 0
    x.remoteViews.foldl (fun s (id, _) =>
      s.tamSend (s.message 0x18 0 id 0 x.base [x.revoke.getD s.now])) s

/-- Tiles `from` on of a composite that loses them pass to a composite that shares them: entries, jobs and the pins that
wait for the next entry (R188, R189). -/
def State.passTiles (s : State) (e : Nat) (x : Extent) (first : Nat) : State :=
  match s.ext.tbl.find? fun (n, y) => n != e && x.sharesTiles y with
  | none => s
  | some (h, _) => { s with
      dir := { s.dir with frames := s.dir.frames.map fun (n, f) =>
        if f.st = 7 ∧ f.ext = e ∧ first ≤ f.page then (n, { f with ext := h }) else (n, f) }
      mxe := { s.mxe with
        jobs := s.mxe.jobs.map fun j => if j.ext = e ∧ first ≤ j.tile then { j with ext := h } else j
        repin := s.mxe.repin.map fun (k, p) => if k = e ∧ first ≤ p then (h, p) else (k, p) } }

/-- Remove an extent: frames, images and programs discarded, nonce erased, capacity taken back, range and
number free (R68). A tile that another composite shares passes to it (R188). -/
def State.dropExtent (s : State) (e : Nat) : State :=
  match s.extent e with
  | none => s
  | some x =>
    let s := s.passTiles e x 0
    let dead := s.dir.frames.filter fun (_, f) => f.ext == e
    let s := dead.foldl (fun s (n, _) => s.freeFrame n) s
    let s := { s with
      fls := { s.fls with images := s.fls.images.filter (·.ext != e),
                          programs := s.fls.programs.filter (·.img.ext != e) }
      ext := { s.ext with tbl := sdel s.ext.tbl e }
      mxe := { s.mxe with jobs := s.mxe.jobs.filter (·.ext != e),
                          repin := s.mxe.repin.filter (·.1 != e) }
      tam := { s.tam with closing := s.tam.closing.filter (· != e) }
      sec := { s.sec with erasePending := true, nonces := sdel s.sec.nonces e } }
    x.holders.foldl (fun s n => s.takeBack n e x.base x.size) s

/-- A command or request on an extent is still unfinished. -/
def State.busyExtent (s : State) (e : Nat) : Bool :=
  s.waiting.any (·.ext == e) || s.cmds.any fun c => c.exts.contains e && pkOp c.pkt != 0x51

/-- Remove extents that were revoked without a REVOKE command and whose last request has ended (R312). -/
def State.reap (s : State) : State :=
  let dead := s.ext.tbl.filter fun (e, x) =>
    (match x.revoke with | some r => decide (r ≤ s.now) | none => false) && !s.busyExtent e &&
    !(s.cmds.any fun c => pkOp c.pkt == 0x51 && pk c.pkt 24 1 == 0 && pk c.pkt 32 2 == e)
  dead.foldl (fun s (e, _) => s.dropExtent e) s

/-- Revoke an extent as REVOKE does, at this count and without a completion (R312). -/
def State.revokeLost (s : State) (e : Nat) : State :=
  match s.extent e with
  | none => s
  | some x =>
    let s := s.setExtent e { x with revoke := some (match x.revoke with | some r => Nat.min r s.now | none => s.now) }
    let s := s.faultTo x.holders 0 5 0 e x.base
    let s := (s.revokeReached e)
    (x.holders.foldl (fun s n => s.extentEvent n 3 e x) s).reap

/-! ### Lost frames (R122) -/

/-- Receiver of a line's FAULT event: the writer of a shadow, else the owner. -/
def State.lineOwner (s : State) (fr : Frame) : Nat :=
  if fr.st = 5 then fr.writer else match s.extent fr.ext with | some x => x.owner | none => 0

/-- Local address of a frame's page. -/
def State.frameAddr (s : State) (fr : Frame) : Nat :=
  match s.extent fr.ext with | some x => x.base + fr.page * pageBytes | none => 0

/-- Lines of a frame are lost: refetched, discarded, or marked with a reason and reported (R122). A proxy's clean
frame is freed, and the next read fetches its page from the home again. -/
def State.loseLines (s : State) (n : Nat) (ls : List Nat) (reason code : Nat) : State :=
  match s.frame n with
  | none => s
  | some fr =>
    if fr.st = 1 ∧ !fr.dirty then
      if (s.extent fr.ext).any Extent.proxy then s.freeFrame n
      else (s.readFlash fr.ext fr.page fr.ver).setFrame n { fr with
        st := 3, lines := [], errs := [], decoded := [], fillVer := fr.ver
        fillEmpty := (s.source fr.ext fr.page fr.ver).isNone }
    else if fr.st = 3 then s.setFrame n { fr with decoded := [] }
    else if fr.st = 7 ∨ fr.st = 8 then s.freeFrame n
    else
      let s := s.setFrame n { fr with
        lines := ls.foldl (fun m l => sins m l (.marker reason s.now)) fr.lines
        errs := ls.foldl (fun m l => sdel m l) fr.errs }
      s.faultTo [s.lineOwner fr] 0 code 0 fr.ext (s.frameAddr fr)

/-! ### Retired channels (R121 to R125) -/

/-- Free, live slots of the reserve (R124): live ones less those assigned, a retired channel's 262,144 positions
without the frames of its group that are out of service. -/
def State.reserveFree (s : State) : Int :=
  589824 - 8192 * s.drm.retired.length -
    (sumN (s.drm.retired.map fun c => 262144 - (s.dir.gone.filter fun f => f % 8 == c / 9).length) : Nat)

/-- Requests that wait for a frame wait for the one its page has moved to. -/
def State.moveWaits (s : State) (f n : Nat) : State :=
  { s with waiting := s.waiting.map fun r =>
      if (r.wait = .fill ∨ r.wait = .wipe) ∧ r.on = f then { r with on := n } else r }

/-- Move the page of a frame that goes out of service, or lose it where no frame is left (R125). -/
def State.vacate (s : State) (f : Nat) : State :=
  match s.frame f with
  | none => s
  | some fr =>
    if (fr.st = 1 ∧ !fr.dirty) ∨ fr.st = 7 ∨ fr.st = 8 then s.freeFrame f
    else
      let s := s.flushFrame f noEnv
      match s.frame f with
      | none => s
      | some fr =>
        if fr.st = 1 ∨ fr.st = 4 then
          (if s.isProxyFrame fr then s else s.putImage (s.imageOf fr fr.ver) true).freeFrame f
        else match s.freeNumber with
          | some (n, rr) =>
            let s := s.freeFrame f
            (({ s with dir := { s.dir with rr := rr } }).setFrame n fr).moveWaits f n
          | none => s.loseLines f (List.range 1024) 3 2

/-- Take the highest-numbered announced frames of a group out of service (R125). -/
def State.takeFrames (s : State) (ch n : Nat) : State :=
  let g := ch / 9
  let have_ := (s.dir.gone.filter fun f => f % 8 == g).length
  let fs := (List.range n).map fun i => 8 * (253951 - have_ - i) + g
  let s := { s with dir := { s.dir with gone := s.dir.gone ++ fs }, drm := { s.drm with reserveEmpty := true } }
  (fs.foldl (fun s f => s.vacate f) s).fault0 1 0x13 ch

/-- A channel retires: the chunks in use there are to be moved, its positions get slots, the plan counts it as absent,
and then it is reported (R121, R124, R125). -/
def State.retireChannel (s : State) (ch reason : Nat) : State :=
  if s.drm.retired.contains ch then s
  else
    let s := s.modChan ch fun c => { c with todo := s.chunksOn ch }
    let s := { s with drm := { s.drm with retired := s.drm.retired ++ [ch] } }
    let short := (-s.reserveFree).toNat
    let k := (s.drm.retired.filter fun c => c / 9 == ch / 9).length
    let s := s.retirePlan
    let s := ({ s with drm := { s.drm with retiredNew := true } }).fault0 1 reason ch
    if short = 0 then s else s.takeFrames ch (ceilDiv short k)

/-- The channel is out of service: the life record holds it (R121, R122). -/
def State.recordChannel (s : State) (ch : Nat) : State :=
  { s with drm := { s.drm with recorded := if s.drm.recorded.contains ch then s.drm.recorded else s.drm.recorded ++ [ch] } }

/-- Loss handling of R122: what the channel still holds is lost, by each frame's state; its chunks have their slots, and
it is out of service. -/
def State.channelLost (s : State) (ch : Nat) : State :=
  let held := s.dir.frames.filterMap fun (f, _) => match s.posOn ch f with
    | [] => none
    | ps => some (f, (ps.flatMap (linesAt f)).eraseDups)
  let s := held.foldl (fun s (f, ls) => s.loseLines f ls 3 2) s
  let s := { s with drm := { s.drm with dataLost := true } }
  let s := if s.drm.retired.contains ch then s.fault0 1 0x12 ch else s.retireChannel ch 0x12
  (s.modChan ch fun c => { c with st := 5, todo := [], copied := none, lastChange := s.now }).recordChannel ch

/-- Channels being evacuated that fail too many reads are lost. -/
def State.testEvacuating (s : State) (fails : List (Nat × Nat)) : State :=
  fails.foldl (fun s (ch, _) =>
    if (s.chan ch).st = 3 ∧ 16 < (s.chan ch).readFails.2 then s.channelLost ch else s) s

/-! ### On-die SRAM parity (R303, R311, R312) -/

/-- Count a parity error by structure and index; the third within 24 h of the first is SRAM_HARD (R311). -/
def State.sramCount (s : State) (p : ParityFault) : State :=
  let old := s.flt.sram.filter fun (k, i, _) => k == p.kind && i == p.index
  let rest := s.flt.sram.filter fun (k, i, _) => !(k == p.kind && i == p.index)
  let times := recent (old.flatMap fun (_, _, l) => l) s.now dayCc
  let s := { s with flt := { s.flt with sram := rest ++ [(p.kind, p.index, times)] } }
  if times.length = 3 then ({ s with flt := { s.flt with sramHard := true } }).fault0 7 0x71 0 else s

/-- Write a PARITY marker and log it for the line's owner (R303). -/
def State.parityMark (s : State) (f l : Nat) : State :=
  match s.frame f with
  | none => s
  | some fr =>
    let s := s.writeCell f l (.marker 4 s.now)
    let a := s.frameAddr fr + 64 * l
    s.err (s.lineOwner fr) 0x0D 0 0 a 0xFFFF fr.ext

/-- A dirty merge-buffer entry lost the lines or bytes in its mask (R303, R168). -/
def State.parityMerge (s : State) (f span : Nat) (env : ReadEnv) : State :=
  match s.mergeAt f span, s.frame f with
  | some m, some fr =>
    match s.extent fr.ext with
    | none => s
    | some x =>
      if x.codec = 1 then
        let lost := m.mask.map (·.1)
        let m := { m with lines := lost.foldl (fun ls l => sins ls l (.marker 4 s.now)) m.lines, dirty := true }
        let s := lost.foldl (fun s l =>
          s.err (s.lineOwner fr) 0x0D 0 0 (s.frameAddr fr + 64 * (16 * span + l)) 0xFFFF fr.ext) s
        (s.setMerge m).flushEntry m env
      else
        let s := { s with dir := { s.dir with merge := s.dir.merge.filter fun k => k != m } }
        m.mask.foldl (fun s (i, w) =>
          let off := fr.offset (16 * span + i)
          let bytes := (List.range 64).filter fun j => bitOf w j
          if !x.isFxr then s.parityMark f (16 * span + i)
          else if off < x.planeBytes then
            (bytes.map fun j => (off + j) / (4 * x.fxr.width)).eraseDups.foldl
              (fun s g => s.pokeScale x fr g 0xFE) s
          else bytes.foldl (fun s j => s.pokeScale x fr (off + j - x.planeBytes) 0xFE) s) s
  | _, _ => s

/-- An allotment whose own state is lost enters FAULTED (R318). -/
def State.faultAllot (s : State) (n : Nat) : State :=
  let s := s.modAllot n fun a => { a with state := 3, cause := setFld a.cause 0 2 1 }
  ({ s with flt := { s.flt with allotFaulted := true } }).fault0 7 0x72 n

/-- Both copies of a key slot failed: it is reloaded from its wrapped copy, and where that fails too every extent bound
to it is revoked (R312, R396). -/
def State.reloadSlot (s : State) (k : Nat) : State :=
  match (sfind s.sec.wrapped k).bind unwrapKey with
  | some key => s.modSlot k fun v => { v with key := key }
  | none => if (s.slot k).loaded then
      (s.ext.tbl.filter fun (_, x) => x.keySlot == k).foldl (fun s (e, _) => s.revokeLost e) s
    else s

/-- Check line `i` leaves the check-line cache. -/
def State.dropCheck (s : State) (i : Nat) : State :=
  { s with drm := { s.drm with checks := s.drm.checks.filter (·.1 != i) } }

/-- One parity error that the part sees (R303, R312). -/
def State.parityFault (s : State) (p : ParityFault) (env : ReadEnv) : State :=
  if !paritySeen p || (p.kind = 0 && !s.drm.checks.contains (p.index, false)) ||
    (p.kind = 1 && !s.drm.checks.contains (p.index, true)) then s
  else
  let s := { (s.intBit 5) with int := { (s.intBit 5).int with parityReread := satAdd 16 s.int.parityReread 1 } }
  let s := s.sramCount p
  if !paritySecond p then
    if p.kind = 4 then s.modFrame (p.index / 64) fun f => { f with lenDie := sput 0 f.lenDie (p.index % 64) 0 } else s
  else
    let s := { (s.intBit 6) with int := { (s.intBit 6).int with parityPoison := satAdd 16 s.int.parityPoison 1 } }
    let s := if 10 ≤ p.kind then { s with flt := { s.flt with stateLost := true } } else s
    match p.kind with
    | 0 => s.dropCheck p.index
    | 1 =>
      let f := p.index / 128
      let s := (s.dropCheck p.index)
      let s := (List.range 8).foldl (fun s j => s.parityMark f (128 * j + p.index % 128)) s
      match s.frame f with
      | some fr => s.faultTo [s.lineOwner fr] 0 4 0 fr.ext (s.frameAddr fr)
      | none => s
    | 2 => { s with dir := { s.dir with merge := s.dir.merge.filter fun m =>
        !(m.frame == p.index / 64 && m.span == p.index % 64 && !m.dirty) } }
    | 3 => s.parityMerge (p.index / 64) (p.index % 64) env
    | 6 => { s with mxe := { s.mxe with bufs := s.mxe.bufs.map fun (g, l) =>
        (g, l.filter fun q => !(q.frame == p.index / 64 && q.span == p.index % 64)) } }
    | 10 => s.loseLines p.index (List.range 1024) 3 5
    | 11 => s.revokeLost p.index
    | 12 => s.reloadSlot p.index
    | 14 => s.faultAllot p.index
    | 15 => (s.ext.tbl.filter fun (_, x) => x.keySlot == p.index).foldl (fun s (e, _) => s.revokeLost e) s
    | _ => s

/-- A command with a read environment begins: its parity errors and link-check failures are met (R118,
R303). -/
def State.meetEnv (s : State) (t : Count) (env : ReadEnv) : State :=
  let s := s.start t
  let s := env.parity.foldl (fun s p => s.parityFault p env) s
  ((s.linkCheck false env.linkFails).linkCheck true env.writeFails).testEvacuating env.linkFails

end Sys2Proof.Machine
end

