-- ==== Sys2Proof/Machine/HostPath.lean ====
section
/-! DEFINITION. Loads, stores and peer requests: translation, the meter, the order of the directory stage,
and their responses (R11 to R26, R70 to R75, R88 to R91, R104, R111, R181, R192, R223, R227, R298 to R301, R315,
R326 to R329, R337, R366, R383). -/

namespace Sys2Proof.Machine

open Sys2Proof

/-- Version of a request without a view. -/
def noView : Nat := 2 ^ 32

/-- A write, not a read. -/
def HostReq.write (r : HostReq) : Bool := r.kind % 2 == 1
/-- SOURCE of R325: 0 load or store, 1 peer. -/
def HostReq.source (r : HostReq) : Nat := r.kind / 2

/-- The allotment that a logical device's requests belong to: the enabled one, else one that names it. -/
def State.boundAllot (s : State) (k : Nat) : Option Nat :=
  match s.allotOf k with
  | some n => some n
  | none => (List.range 64).find? fun n => (s.allot n).bind != 0 && (s.allot n).ldk == k

/-! ### Responses (R16, R18, R71, R337, R366) -/

/-- DevLoad of a response: 0 light, 1 optimal, 2 moderate, 3 severe (R366). -/
def HostReq.devLoad (r : HostReq) : Nat :=
  if r.metered then 3 else if r.demoted then 2 else if r.urgency != 0 then 1 else 0

/-- Count a CXL.mem response's DevLoad on its logical device. -/
def State.countLoad (s : State) (r : HostReq) : State :=
  if r.kind < 2 then
    s.modLd (s.ldOf r.allot) fun d => { d with
      devload := setNth d.devload r.devLoad (satAdd 16 (nth d.devload r.devLoad) 1), lastLoad := r.devLoad }
  else s

/-- The request ends: its response leaves, and its counts with it. -/
def State.respond (s : State) (r : HostReq) (o : Out) : State :=
  ((((s.countLoad r).emit o).leaveLs r).hashFlush r.allot).reap

/-- Data response; a parity failure of the read buffers poisons it (R303). -/
def State.readDone (s : State) (r : HostReq) (poison : Bool) (v : Line) : State :=
  let s := s.hashAdd r.allot r.kind poison r.laddr v r.stamp
  s.respond r (.readData r.id poison [if poison then 0 else v] r.devLoad)

/-- Write completion of a performed write. -/
def State.writeDone (s : State) (r : HostReq) : State :=
  let s := s.hashAdd r.allot r.kind r.poison r.laddr r.data r.stamp
  s.respond r (.writeDone r.id r.devLoad)

/-- A request fails with a code: a read returns poison, a write is completed unperformed (R71). -/
def State.failReq (s : State) (r : HostReq) (code : Nat) (log hash : Bool) : State :=
  let s := if log then s.err r.allot code r.source r.addr r.laddr 0xFFFF (if r.laddr = 0 then 0xFFFF else r.ext) else s
  if r.write then s.respond r (.writeDone r.id r.devLoad)
  else
    let s := if hash then s.hashAdd r.allot r.kind true r.laddr 0 r.stamp else s
    s.respond r (.readData r.id true [0] r.devLoad)

/-! ### Order of requests (R13, R20, R21, R24, R326, R328) -/

/-- Request `a` comes before `b`: by stamp; equal stamps by the sequencing key when both were stamped in ordered mode,
else as they were granted, which is as they arrived. -/
def HostReq.before (a b : HostReq) : Bool :=
  if a.stamp != b.stamp then decide (a.stamp < b.stamp)
  else if a.ordered && b.ordered then
    if a.allot != b.allot then decide (a.allot < b.allot)
    else if a.lane != b.lane then decide (a.lane < b.lane) else decide (a.id < b.id)
  else decide (a.id < b.id)

/-- A command comes before a request: by its effective count, by the key, or as it was admitted. -/
def Cmd.beforeReq (c : Cmd) (r : HostReq) : Bool :=
  if c.eff != r.stamp then decide (c.eff < r.stamp)
  else if r.ordered && c.allot != r.allot then decide (c.allot < r.allot)
  else if r.ordered then true
  else decide (c.id < r.after)

/-- A command's ranges hold the line of a request, one of the two writing it; a write under another allotment's shadow
set is to another line (R89). -/
def Cmd.meets (c : Cmd) (r : HostReq) : Bool :=
  (r.set == 0 || r.allot == c.allot) &&
  let on (l : List (Nat × Nat)) : Bool := l.any fun (a, n) => decide (a < r.laddr / 64 * 64 + 64) && decide (r.laddr / 64 * 64 < a + n)
  on c.writes || (r.write && on c.reads)

/-- Ranges whose content a command changes for those that come after it. A SNAPSHOT's destination reads as the previous
image or the new one meanwhile (R143). -/
def Cmd.fixes (c : Cmd) : List (Nat × Nat) := if pkOp c.pkt = 0x40 then [] else c.writes

/-- A command's work has still to be done. -/
def Cmd.unfinished (c : Cmd) : Bool := c.phase == .held || c.phase == .running

/-- Two requests touch one line, one of them writing; under two allotments' shadow sets they are two lines (R89). -/
def HostReq.meets (a b : HostReq) : Bool :=
  a.laddr / 64 == b.laddr / 64 && (a.write || b.write) && (a.set == 0 || b.set == 0 || a.allot == b.allot)

/-- A PUBLISH on a proxy waits at its cut count for the writes stamped before it (R94, R376). -/
def Cmd.cutWaits (c : Cmd) : Bool := pkOp c.pkt == 0x31 && c.phase == .running && c.left == [2 ^ 64]

/-- A write comes at or after the cut count of a PUBLISH of its issuer that still waits for earlier ones (R94). -/
def State.behindCut (s : State) (e a : Nat) (c : Count) : Bool :=
  s.cmds.any fun d => d.cutWaits && d.allot == a && pk d.pkt 24 2 == e && decide (d.eff ≤ c)

/-- An earlier request or an earlier command has still to touch the line of `r` (R20, R21, R24). -/
def State.blocked (s : State) (r : HostReq) : Bool :=
  (r.write && s.behindCut r.ext r.allot r.stamp) ||
  (s.waiting.any fun q => q.id != r.id && q.before r && q.meets r) ||
  s.cmds.any fun c => c.unfinished && c.beforeReq r && ({ c with writes := c.fixes } : Cmd).meets r

/-- Put a request among the waiting ones, in order (R14). -/
def State.waitFor (s : State) (r : HostReq) (w : Wait) (on : Nat) : State :=
  { s with waiting := insBy HostReq.before { r with wait := w, on := on } s.waiting }

/-! ### The snoop filter (R104) -/

/-- Line entries that a port's filter holds. -/
def snoopSize : Nat := 1048576

/-- Issue a back-invalidation for an entry. -/
def State.backInvalidate (s : State) (port ld line : Nat) : State :=
  let k := ldKey port ld
  if (s.ld k).bisnp.contains line then s
  else (s.modLd k fun d => { d with bisnp := d.bisnp ++ [line] }).emit (.biSnp k line)

/-- Track a line that a logical device has read; 4,096 entries are kept free in the background. A line read again
counts as the newest (assumption 89). -/
def State.track (s : State) (k line : Nat) : State :=
  let p := k / 16
  let s := s.modHport p fun h => { h with snoop := (k % 16, line) :: h.snoop.filter (· != (k % 16, line)) }
  let excess := (s.hport p).snoop.length - (snoopSize - 4096)
  ((s.hport p).snoop.reverse.take excess).foldl (fun s (l, n) => s.backInvalidate p l n) s

/-- A read is tracked: HDM-DB is on and the extent is shared. -/
def State.tracks (s : State) (r : HostReq) (x : Extent) : Bool :=
  r.kind == 0 && (s.ld (s.ldOf r.allot)).hdmDb && x.sharing != 0

/-! ### Stage 4 (R26, R80, R81, R89, R300) -/

/-- Stored lines that a logical line is read from: page and line (R170, R410). -/
def Extent.lineSlots (x : Extent) (n : Nat) : List (Nat × Nat) :=
  let at' (o : Nat) : Nat × Nat := (o / pageBytes, o % pageBytes / 64)
  if x.isFxr then
    let gb := 4 * x.fxr.width
    [at' (n * gb), at' (n * gb + gb - 1), at' (x.planeBytes + n)]
  else if x.sealed then [(n / 1024, n % 1024), at' (x.size + 8 * n)]
  else [(n / 1024, n % 1024)]

/-- Whether a read can go on in a page. -/
inductive Ready where
  | yes
  | wait (w : Wait) (n : Nat)
  | poison
  | full
  deriving DecidableEq, Repr

/-- Start the fills that EXT_HINT.AHEAD asks for after a demand miss (R80); pages without a frame are
skipped (R81); the fills take the extent's class (R220). -/
def State.fillAhead (s : State) (e : Nat) (x : Extent) (p v : Nat) (env : ReadEnv) : State :=
  (List.range (s.hintAhead e)).foldl (fun s i =>
    let q := p + i + 1
    if x.pages ≤ q then s
    else match s.locate e q v with
      | .frame _ => s
      | _ => if x.proxy then (s.proxyFill e x q v x.cls env).2
        else (s.startFill e x q v (s.hintLevel e) env).2) s

/-- Make a page ready for a read of a view's lines: a demand miss starts a fill, and in a FILLING page the codewords
that hold the lines must have been decoded (R26). -/
def State.readReady (s : State) (r : HostReq) (x : Extent) (p : Nat) (env : ReadEnv) : Ready × State :=
  let ls := ((x.lineSlots ((r.laddr - x.base) / 64)).filter fun q => q.1 == p).map (·.2)
  let sh := (s.shadowOf r.ext p r.set).bind s.frame
  let own := match sh with
    | some f => ls.all f.copied.contains
    | none => false
  if own then (.yes, s)
  else
    match s.locate r.ext p r.ver with
    | .frame n =>
      match s.frame n with
      | none => (.yes, s)
      | some f =>
        if f.wipe.isSome then (if f.promoted then .wait .wipe n else .poison, s)
        else if f.st = 3 ∧ !f.fillEmpty ∧ !(ls.all fun l => f.decoded.contains (l / 64)) then (.wait .fill n, s)
        else (.yes, s)
    | _ =>
      if x.tier != 1 then (.yes, s)
      else
        let (n, s) := if x.proxy then s.proxyFill r.ext x p r.ver r.cls env
          else s.startFill r.ext x p r.ver (s.hintLevel r.ext) env
        match n with
        | none => (.full, s)
        | some n =>
          let s := s.fillAhead r.ext x p r.ver env
          match s.frame n with
          | some f => (if f.fillEmpty then .yes else .wait .fill n, s)
          | none => (.full, s)

/-- A read's answer from what the codec gives (R16, R163, R295). -/
def State.finishRead (s : State) (r : HostReq) (o : Read) (env : ReadEnv) : State :=
  match o with
  | .ok v =>
    if env.parity.any fun p => p.kind == 7 && paritySecond p then s.readDone r true 0 else s.readDone r false v
  | .poison _ => s.readDone r true 0
  | .uncorrectable => s.failReq r 0x0A true true
  | .tag => s.failReq r 0x0B true true
  | .damaged => s.failReq r 0x0C true true

/-- Steps of a tile on an engine (R194). -/
def tileSteps (m n k eb cl cr ca addKiB : Nat) : Nat :=
  let a := ceilDiv m 64 * ceilDiv n 64 * k / (if eb = 1 then 2 else 1)
  let kl := ceilDiv (m * k * eb) 1024
  let kr := ceilDiv (n * k * eb) 1024
  let main := Nat.max a (Nat.max (cl * kl) (cr * kr))
  let idle := 2 * main - cl * kl - cr * kr
  main + ceilDiv (ca * addKiB - idle) 2

/-- Expander cost of an operand extent (R194). -/
def Extent.expander (x : Extent) : Nat := if x.codec = 1 then 15 else 4

/-- Demands of one tile of a composite: engine steps in 1/1,024 step and GDDR7 bytes in 1/16 B (R198). -/
def State.tileDemand (s : State) (d : CompDesc) : List (Nat × Nat) :=
  let c (e : Nat) := match s.extent e with | some x => x.expander | none => 4
  let eb := elemBytes (dUType d)
  let k := dRank d
  let b := if dBase d then pageBytes else 0
  [(3, 1024 * tileSteps 128 256 k eb (c (dUExt d)) (c (dVExt d)) (c (dBExt d)) (b / 1024)),
    (0, 16 * (128 * k * eb + 256 * k * eb + b + pageBytes))]

/-- A load that waits for an engine is counted (R191, R192). -/
def State.countMissWait (s : State) : State :=
  { s with mxe := { s.mxe with missWait := true, missWaits := satAdd 32 s.mxe.missWaits 1 } }

/-- Record horizons, when every share has a rate, and give the promise they make (R42, R43). -/
def State.booked (s : State) : Option (List (Nat × Option Reservation × Count)) → Count × State
  | some fs => (promiseOf s.now 0 fs, s.setHorizons fs)
  | none => (lastPromise, s)

/-- A tile is booked as an internal job of one tile on the unreserved pools, as a MISS count of 0 asks: its promise
(R192); without a rate left there it has none, and ranks last. -/
def State.bookTile (s : State) (r : HostReq) (x : Extent) : Count × State :=
  s.booked (s.finishes r.allot 0 false s.now (demand (s.tileDemand x.desc)))

/-- Synthesis of tile `q` ahead of a read, when it is neither kept nor on its way (R182, R189). -/
def State.tileAhead (s : State) (r : HostReq) (x : Extent) (tag : Nat × Nat × Nat) (command : Bool) (q : Nat) : State :=
  if tileCount x.desc ≤ q ∨ (s.tileEntry r.ext x q tag).isSome ∨ (s.tileJob r.ext x q tag).isSome then s
  else
    let b := if command then s.bookTile r x else (0, s)
    (b.2.newJob (missJob r.ext q tag command (s.hintLevel r.ext) 0 r.stamp b.1 true)).2

/-- A read whose tile is not kept starts its synthesis and waits for it (R182, R191, R192). -/
def State.missTile (s : State) (r : HostReq) (x : Extent) (p : Nat) (tag : Nat × Nat × Nat) : State :=
  let none_ := s.missCount s.plan.cur.miss == 0
  let b := if none_ then s.bookTile r x else (0, s)
  let j := b.2.newJob (missJob r.ext p tag none_ (s.hintLevel r.ext) r.eff r.stamp b.1 false)
  let s := if none_ || (j.2.mxe.jobs.any fun i => i.id == j.1 && i.eng.isNone) then j.2.countMissWait else j.2
  let s := s.waitFor r .synth j.1
  (List.range (s.hintAhead r.ext)).foldl (fun s i => s.tileAhead r x tag none_ (p + i + 1)) s

/-- A read of a composite's line by a host (R181, R182, R189 to R192). -/
def State.serveTile (s : State) (r : HostReq) (x : Extent) (env : ReadEnv) : State :=
  let n := (r.laddr - x.base) / 64
  let p := n / 1024
  match r.tag with
  | none => s.failReq r 0x06 true true
  | some tag =>
    if tileCount x.desc ≤ p then s.readDone r false 0
    else if (s.tileEntry r.ext x p tag).isSome then
      let (o, s) := s.readTile none r.ext x tag n env
      s.finishRead r o env
    else
      match s.tileJob r.ext x p tag with
      | some j => s.waitFor r .synth j.id
      | none =>
        if s.activeEngines = 0 then s.failReq r 0x02 true true else s.missTile r x p tag

/-- A tracked load finds its port's filter full: the oldest entry is invalidated, and the load waits (R104). -/
def State.filterFull (s : State) (r : HostReq) (x : Extent) : Bool :=
  s.tracks r x && decide (snoopSize ≤ (s.hport (s.ldOf r.allot / 16)).snoop.length) &&
    !((s.hport (s.ldOf r.allot / 16)).snoop.contains (s.ldOf r.allot % 16, r.laddr / 64))

@[inherit_doc State.filterFull] def State.waitFilter (s : State) (r : HostReq) : State :=
  let s := s.pubBit 1
  let s := match (s.hport (s.ldOf r.allot / 16)).snoop.getLast? with
    | some (l, v) => s.backInvalidate (s.ldOf r.allot / 16) l v
    | none => s
  s.waitFor r .filter 0

/-- A read of an extent with data of its own. -/
def State.serveRead (s : State) (r : HostReq) (x : Extent) (env : ReadEnv) : State :=
  let n := (r.laddr - x.base) / 64
  let (g, s) := (x.linePages n).foldl (fun (acc : Ready × State) p =>
    let (g, s) := acc
    let (h, s) := s.readReady r x p env
    (if g = .yes then h else g, s)) (.yes, s)
  match g with
  | .wait w k => s.waitFor r w k
  | .poison => s.readDone r true 0
  | .full => s.failReq r 0x11 true true
  | .yes =>
    let (o, s) := s.readLogical r.ext x r.set r.ver n env
    s.finishRead r o env

/-- Frames with a wipe pending that a write touches (R300). -/
def State.wipeFrames (s : State) (e : Nat) (x : Extent) (n : Nat) : List Nat :=
  if x.versioned then []
  else (x.linePages n).filterMap fun p => match s.locate e p x.ver with
    | .frame k => if ((s.frame k).bind (·.wipe)).isSome then some k else none
    | _ => none

/-- The arbiter of a line is this part (R383); until a partner is back, the part that it returns to (R387). -/
def State.isArbiter (s : State) (laddr : Nat) : Bool :=
  if s.tam.pair = 5 then true else if s.tam.pair = 4 then false else s.isLead == (laddr / pageBytes % 2 == 0)

/-- Send a written line to the partner (R383). -/
def State.mirrorLine (s : State) (tag laddr stamp allot : Nat) (poison : Bool) (v : Line) : State :=
  s.portSend 3 { s.message 0x20 0 s.partnerId tag laddr [stamp, allot] with lines := [(0, if poison then 2 else 0, v)] }

/-- Perform a store in this part; on success the caller acknowledges it (R17 to R19, R90, R91, R298). -/
def State.performStore (s : State) (r : HostReq) (x : Extent) (env : ReadEnv) : Bool × State :=
  let n := (r.laddr - x.base) / 64
  let lost := env.parity.any fun p => p.kind == 8 && paritySecond p
  let s := if lost then s.err x.owner 0x0D r.source r.addr r.laddr 0xFFFF r.ext else s
  let w : Put := if lost then .poison 4 else if r.poison then .poison 6 else .data r.data
  let misses := if x.versioned ∨ x.tier != 1 then [] else (x.linePages n).filter fun p =>
    match s.locate r.ext p x.ver with | .frame _ => false | _ => true
  let gone := x.versioned && !x.setLive r.set
  let (ok, s) := if gone then (true, s) else s.writeLogical r.ext x r.allot r.set r.ver n w env
  let x' := (s.extent r.ext).getD x
  let s := if ok && x'.written.isNone then s.setExtent r.ext { x' with written := some r.stamp } else s
  (ok, if ok then misses.foldl (fun s p => s.fillAhead r.ext x p x.ver env) s else s)

/-- The view whose writes go to a shadow set, or the publish that has taken the set, is SPOILED (R91, R95). -/
def State.spoil (s : State) (e k : Nat) : State :=
  s.modExtent e fun y => { y with
    views := y.views.map fun v => if v.set = k then { v with spoiled := true } else v
    pubs := y.pubs.map fun q => if q.set = k ∧ q.base != 2 ^ 32 then { q with bad := true } else q }

/-- A write that could not be performed (R81, R91). -/
def State.storeFails (s : State) (r : HostReq) (x : Extent) : State :=
  if x.versioned then ((s.spoil r.ext r.set).pubBit 2).failReq r 0x07 true false
  else s.failReq r 0x11 true false

/-- A store that was acknowledged from the fill buffer ends without a second completion (R18, R19). -/
def State.storeEnds (s : State) (r : HostReq) (x : Extent) (ok : Bool) : State :=
  if r.acked then
    if ok then s.reap
    else if x.versioned then (((s.spoil r.ext r.set).pubBit 2).err r.allot 0x07 r.source r.addr r.laddr 0xFFFF r.ext).reap
    else (s.err r.allot 0x11 r.source r.addr r.laddr 0xFFFF r.ext).reap
  else if ok then s.writeDone r else s.storeFails r x

/-- A write at a byte of the extent stamped so is refused by a SNAPSHOT (R143). -/
def Extent.lockedAt (x : Extent) (o stamp : Nat) : Bool :=
  x.locks.any fun k => decide (k.lo ≤ o) && decide (o < k.hi) && decide (k.since ≤ stamp) &&
    (match k.til with | some c => decide (stamp < c) | none => true)

/-- A store or a line of a peer write. -/
def State.serveWrite (s : State) (r : HostReq) (x : Extent) (env : ReadEnv) : State :=
  let o := r.laddr - x.base
  let wipes := s.wipeFrames r.ext x (o / 64)
  if !r.acked && x.lockedAt o r.stamp then s.failReq r 0x08 true false
  else match wipes with
  | k :: _ =>
    let s := wipes.foldl (fun s k => s.modFrame k fun f => { f with promoted := true }) s
    (s.intBit 7).waitFor r .wipe k
  | [] =>
    if s.onePlan ∧ r.wait != .arbiter then
      let tag := s.tam.nextTag % 65536
      let s := { s with tam := { s.tam with nextTag := tag + 1, mirrors := s.tam.mirrors ++ [(tag, r.id)] } }
      if s.isArbiter r.laddr then
        let (ok, s) := s.performStore r x env
        if ok then (s.mirrorLine tag r.laddr r.stamp r.allot r.poison r.data).waitFor r .arbiter tag
        else ({ s with tam := { s.tam with mirrors := s.tam.mirrors.filter (·.1 != tag) } }).storeFails r x
      else (s.mirrorLine tag r.laddr r.stamp r.allot r.poison r.data).waitFor r .arbiter tag
    else
      let (ok, s) := s.performStore r x env
      s.storeEnds r x ok

/-- A request must wait for earlier ones on its line; a store to a frame that is FILLING is held in the fill buffer, and
acknowledged from there (R18 to R20). -/
def State.holdBack (s : State) (r : HostReq) (x : Extent) : State :=
  let p := (r.laddr - x.base) / pageBytes
  let filling := !x.versioned && (match s.locate r.ext p x.ver with
    | .frame n => (s.frame n).any fun f => f.st == 3
    | _ => false)
  if r.write && filling && !r.acked && !s.onePlan && !x.lockedAt (r.laddr - x.base) r.stamp then
    (s.writeDone r).waitFor { r with acked := true, inBudget := false } .order 0
  else s.waitFor r .order 0

/-- Stage 4 and later for a request that has left stage 3. -/
def State.serve (s : State) (r : HostReq) (env : ReadEnv) : State :=
  match s.extent r.ext with
  | none => s.failReq r 0x03 true false
  | some x =>
    let moved := match x.moving with | some (_, c) => decide (c ≤ r.stamp) | none => false
    if s.ep.exiting then s.waitFor r .exit 0
    else if moved then s.waitFor r .move r.ext
    else if x.sharing != 0 && r.ver == noView then s.failReq r 0x06 true true
    else if r.write && !r.acked && x.lockedAt (r.laddr - x.base) r.stamp then s.failReq r 0x08 true false
    else if s.blocked r then s.holdBack r x
    else if r.write then s.serveWrite r x env
    else if s.tam.pair = 4 then
      let (tag, s) := s.tamRequest (s.message 0x10 r.cls s.partnerId 0 r.laddr [r.ver, r.allot]) r.ext
        ((r.laddr - x.base) / pageBytes) none
      s.waitFor r .remote tag
    else if s.filterFull r x then s.waitFilter r
    else
      let s := if s.tracks r x then s.track (s.ldOf r.allot) (r.laddr / 64) else s
      if x.composite then s.serveTile r x env else s.serveRead r x env

/-- A waiting request with the passes that the schedulers counted for it (R111). -/
def passedIn (l : List HostReq) (q : HostReq) : HostReq :=
  match l.find? fun p => p.id == q.id with
  | some p => { q with passed := p.passed }
  | none => q

/-- Requests that nothing earlier holds back any longer are served, the next one as the schedulers choose it
(R15, R20, R111). -/
def State.orderDrain (env : ReadEnv) : Nat → State → State
  | 0, s => s
  | k + 1, s =>
    let queue := s.waiting.filter fun (r : HostReq) => r.wait == Wait.order && !(s.blocked r)
    match s.nextReqOf HostReq.before queue with
    | none => s
    | some r =>
      let o := s.opensRow r (queue.filter (·.id != r.id))
      let s := { o.1 with waiting := (o.1.waiting.filter fun (q : HostReq) => q.id != r.id).map (passedIn o.2) }
      State.orderDrain env k (s.serve r env)

/-- Serve what no longer waits for earlier requests. -/
def State.drainOrder (s : State) (env : ReadEnv) : State := s.orderDrain env s.waiting.length

/-- Requests that wait for a thing go on (R14). -/
def State.wake (s : State) (w : Wait) (on : Nat) (env : ReadEnv) : State :=
  ({ s with waiting := s.waiting.map fun (r : HostReq) =>
      if r.wait == w && r.on == on then { r with wait := .order, on := 0 } else r }).drainOrder env

/-! ### Stages 1 to 3 (R11, R70, R71, R227, R301) -/

/-- DPA of a host address in a committed decoder (R70). -/
def dpaOf (d : HdmDecoder) (hpa : Nat) : Nat :=
  let o := hpa - d.base
  d.dpaBase + o / (d.gran * d.ways) * d.gran + o % d.gran

/-- The committed decoder that covers a host address, and the DPA. -/
def State.decodeHpa (s : State) (k hpa : Nat) : Option (Nat × Nat) :=
  if (s.ld k).memEn then
    ((s.ld k).decoders.find? fun (_, d) => decide (d.base ≤ hpa) && decide (hpa < d.base + d.size)).map
      fun (i, d) => (i, dpaOf d hpa)
  else none

/-- Class of a load or store through decoder `i` (R220). -/
def State.loadClass (s : State) (n i : Nat) (x : Extent) : Nat :=
  let c := sget 0x000F0000 s.old.ldClass n
  if bitOf c (16 + i) then x.cls else fld c (4 * i) 4

/-- Checks 3 to 5 of R71 for a local address: an error code, or the extent. -/
def State.access (s : State) (n laddr : Nat) (stamp : Count) (write : Bool) : Nat × Nat × Option Extent :=
  match s.extentAt laddr with
  | none => (0x02, 0xFFFF, none)
  | some (e, x) =>
    let acc := (s.ld (s.ldOf n)).accepted.any fun (b, l, c) => decide (b ≤ laddr) && decide (laddr < b + l) && decide (c ≤ stamp)
    if !acc then (0x02, e, none)
    else if x.rights n = 0 then (0x01, e, none)
    else if x.isRevoked n stamp (laddr - x.base) then (0x03, e, none)
    else if write && (x.rights n != 2 || x.composite) then (0x04, e, none)
    else (0, e, some x)

/-- Requests of a Gate lane that wait at the meter. -/
def State.laneHeld (s : State) (lane : Nat) : Nat := s.waiting.countP fun r => r.wait == .meter && r.lane == lane

/-- A Gate lane applies back-pressure: a request of it waits behind a full meter queue, and those behind wait with it
(R15, R227, R366). -/
def State.backPressure (s : State) (r : HostReq) : State :=
  ({ s with waiting := s.waiting.map fun (q : HostReq) => if q.lane = r.lane then { q with metered := true } else q }).waitFor
    { r with metered := true } .gate 0

/-- The Colander's decision on a request: an exempt one passes the meter; another waits while the meter is not positive,
and behind those that wait, at most 256 of a lane. A GUARANTEED request to a PINNED extent over its budget is demoted
here (R223, R227). -/
def State.decide3 (s : State) (r : HostReq) (x : Extent) (env : ReadEnv) : State :=
  if s.exempt r (x.tier == 0) then
    let (r, s) := s.classify r
    (s.chargeMeter x.codec).serve r env
  else
    let beyond := r.kd == 2 && x.tier == 0 && !r.demoted
    let s := if beyond then s.countDemoted else s
    let r := if beyond then { r with demoted := true, eff := 0 } else r
    if s.meterHeld || decide (s.col.meter ≤ 0) then
      if 256 ≤ s.laneHeld r.lane then s.backPressure r else s.waitFor { r with metered := true } .meter 0
    else
      let (r, s) := s.classify r
      (s.chargeMeter x.codec).serve r env

/-- Stage 3: behind a request that its lane holds back, a request of the lane waits too (R15). -/
def State.stage3 (s : State) (r : HostReq) (x : Extent) (env : ReadEnv) : State :=
  if s.waiting.any fun q => q.wait == .gate && q.lane == r.lane then s.backPressure r else s.decide3 r x env

/-- A tie comes before another by the sequencing key (R326). -/
def Tie.before (a b : Tie) : Bool :=
  if a.stamp != b.stamp then decide (a.stamp < b.stamp)
  else if a.allot != b.allot then decide (a.allot < b.allot)
  else if a.lane != b.lane then decide (a.lane < b.lane) else decide (a.n < b.n)

/-- Put a request among those of the ordered ties. -/
def State.tie (s : State) (t : Tie) : State := { s with ties := insBy Tie.before t s.ties }

/-- A merge point waits for requests of the same stamp: in ordered mode, and behind such requests (R328, R329). -/
def State.tied (s : State) : Bool := bitOf s.old.det 0 || !s.ties.isEmpty

/-- A translated request enters stage 3, at once or by its key among those of its stamp. -/
def State.arrive (s : State) (r : HostReq) (x : Extent) (env : ReadEnv) : State :=
  if s.tied then s.tie ⟨r.stamp, r.allot, 4096 + r.lane, r.id, .host r, env, s.old⟩ else s.stage3 r x env

/-- Host requests at the head of the ties whose count is past enter stage 3; a packet among them waits for a merge point
that takes packets. -/
def State.releaseHosts : Nat → State → State
  | 0, s => s
  | k + 1, s => match s.ties with
    | ⟨st, _, _, _, .host r, env, _⟩ :: rest =>
      if s.now = st then s
      else
        let s := { s with ties := rest }
        State.releaseHosts k (match s.extent r.ext with
          | some x => s.stage3 r x env
          | none => s.serve r env)
    | _ => s

/-- A command with a read environment begins: what it meets, then requests of ordered ties and those that earlier ones
held back go on (R20, R118, R303, R329). -/
def State.startEnv (s : State) (t : Count) (env : ReadEnv) : State :=
  let s := s.meetEnv t env
  (State.releaseHosts s.ties.length s).drainOrder env

/-- A request on a Gate lane as it stands before translation. -/
def HostReq.blank (id kind lane allot addr : Nat) (stamp : Count) (data : Line) (poison : Bool) : HostReq :=
  { id := id, kind := kind, lane := lane, allot := allot, addr := addr, laddr := 0, cls := 0, eff := 0,
    demoted := false, inBudget := false, stamp := stamp, urgency := 0, metered := false, data := data,
    poison := poison, ext := 0xFFFF, ver := noView, set := 0, tag := none, kd := 0, pr := 0, budget := 0, ordered := false
    after := 0, acked := false, passed := 0, wait := .meter, on := 0 }

/-- Take a number for a request. -/
def State.newReq (s : State) : Nat × State := (s.nextReq, { s with nextReq := s.nextReq + 1 })

/-- Check 1 of R71 and the part's own states: none lets the request pass. -/
def State.barred (s : State) (n : Nat) : Option Bool :=
  let a := s.allot n
  if a.state = 2 then some false
  else if !a.enabled || a.state == 3 || s.tam.pair == 3 then some true
  else none

/-- Translate a local address for a request and let it enter stage 3. -/
def State.enter (s : State) (r : HostReq) (laddr : Nat) (cls : Extent → Nat) (env : ReadEnv) : State :=
  let (code, e, x) := s.access r.allot laddr r.stamp r.write
  let r := { r with laddr := laddr, ext := e }
  match x with
  | none => s.failReq r code true false
  | some x =>
    let s := if r.write then s.stampWrite e r.stamp else s
    let vers := s.viewsOf r.allot
    let c := cls x
    s.arrive { r with
      cls := c, ver := (s.verOf vers e).getD noView, set := x.cmdSet r.allot e []
      tag := if x.composite then s.tagFor vers x.desc else none
      kd := s.kindNow c, pr := s.prioNow c, budget := s.lsBudgetNow r.allot c
      ordered := bitOf s.old.det 0, after := s.nextCmd } x env

/-- A CXL.mem request of a logical device (R11, R70, R71). One on a logical device that no allotment names gets no
response (assumption 90). -/
def State.cxlMem (s : State) (port ld : Nat) (r : Nat → Nat → HostReq) (env : ReadEnv) : State :=
  let k := ldKey port ld
  match s.boundAllot k with
  | none => s
  | some n =>
    if (s.ld k).dstate = 3 then s
    else
      let (id, s) := s.newReq
      let r := r id n
      match s.barred n with
      | some log => s.failReq r 0x01 log false
      | none =>
        match s.decodeHpa k r.addr with
        | none => s.failReq r 0x02 true false
        | some (i, dpa) => s.enter r (dpa / 64 * 64) (fun x => s.loadClass n i x) env

/-- LOAD: a CXL.mem read of one line (R16). -/
def execLoad (t port ld hpa : Nat) (env : ReadEnv) (s : State) : Host.Outcome State Fault Refusal :=
  let s := s.startEnv t env
  .next (s.cxlMem port ld (fun id n => .blank id 0 port n hpa s.now 0 false) env)

/-- A sub-line write is completed, logged and counted, and touches nothing (R301). -/
def State.partialWrite (s : State) (r : HostReq) : State :=
  let s := s.err r.allot 0x09 r.source r.addr 0 0xFFFF 0xFFFF
  let s := { s with int := { s.int with partials := satAdd 32 s.int.partials 1 } }
  s.respond r (.writeDone r.id r.devLoad)

/-- STORE: a CXL.mem write of one line (R17, R301). -/
def execStore (t port ld hpa : Nat) (data : Line) (be : BitVec 64) (poison : Bool) (env : ReadEnv)
    (s : State) : Host.Outcome State Fault Refusal :=
  let s := s.startEnv t env
  if be != BitVec.allOnes 64 then
    match s.boundAllot (ldKey port ld) with
    | none => .next s
    | some n =>
      let (id, s) := s.newReq
      .next (s.partialWrite (.blank id 1 port n hpa s.now data poison))
  else .next (s.cxlMem port ld (fun id n => .blank id 1 port n hpa s.now data poison) env)

/-! ### Peer requests (R72 to R75, R352) -/

/-- The window set in force for requests with a stamp (R73). -/
def Allot.windows (a : Allot) (stamp : Count) : Sparse Window :=
  match a.winPend with
  | some (c, w) => if c ≤ stamp then w else a.live
  | none => a.live

/-- The window of an aperture offset for a request's stamp, with its number. -/
def State.windowAt (s : State) (n off : Nat) (stamp : Count) : Option (Nat × Window) :=
  let k := s.ldOf n
  if 2 ^ (s.ld k).aperture ≤ off ∨ (s.ld k).aperture = 0 then none
  else ((s.allot n).windows stamp).find? fun (_, w) => w.on && decide (w.base ≤ off) &&
    decide (off < w.base + w.len) && decide (w.base + w.len ≤ 2 ^ (s.ld k).aperture)

/-- A window of the set in force lost its extent, or the range it reached, and no commit has replaced it (R75). -/
def Allot.dead (a : Allot) (k stamp : Nat) : Bool :=
  bitOf a.winDead k && !(match a.winPend with | some (c, _) => decide (c ≤ stamp) | none => false)

/-- One line of a peer request through a window; through one that R75 has stopped it fails as revoked
(assumption 88). -/
def State.peerLine (s : State) (port n kind off : Nat) (req : BitVec 16) (stamp : Count) (data : Line)
    (poison : Bool) (env : ReadEnv) : State :=
  let (id, s) := s.newReq
  let r := HostReq.blank id kind port n off stamp data poison
  match s.barred n with
  | some log => s.failReq r 0x01 log false
  | none =>
    match s.windowAt n off stamp with
    | none => s.failReq r 0x02 true false
    | some (k, w) =>
      let laddr := (w.to + (off - w.base)) / 64 * 64
      if (s.allot n).dead k stamp then s.failReq { r with laddr := laddr } 0x03 true false
      else if bitOf w.ctrl 3 && fld w.ctrl 16 16 != req.toNat then s.failReq { r with laddr := laddr } 0x05 true false
      else if !bitOf w.ctrl (if kind = 2 then 1 else 2) then s.failReq { r with laddr := laddr } 0x01 true false
      else s.enter r laddr (fun _ => fld w.ctrl 4 4) env

/-- BAR4 requests reach the aperture of an enabled allotment while Memory Space Enable is 1 (R352). -/
def State.barOpen (s : State) (k : Nat) : Option Nat :=
  (s.allotOf k).filter fun _ => (s.ld k).mse && (s.ld k).dstate == 0

/-- PEER_READ: a peer read of any length, each line of it served as a load (R72). -/
def execPeerRead (t port ld off len : Nat) (req : BitVec 16) (env : ReadEnv) (s : State) :
    Host.Outcome State Fault Refusal :=
  let s := s.startEnv t env
  match s.barOpen (ldKey port ld) with
  | none => .next (s.emit (.unsupported len))
  | some n =>
    let first := off / 64
    .next ((List.range (ceilDiv (off + len) 64 - first)).foldl (fun s i =>
      s.peerLine port n 2 (64 * (first + i)) req s.now 0 false env) s)

/-- PEER_WRITE: whole aligned lines are stores; any other write is a partial write (R72, R301). -/
def execPeerWrite (t port ld off len : Nat) (req : BitVec 16) (data : List Line) (poison : Bool)
    (env : ReadEnv) (s : State) : Host.Outcome State Fault Refusal :=
  let s := s.startEnv t env
  match s.barOpen (ldKey port ld) with
  | none => .next (s.emit (.unsupported len))
  | some n =>
    if off % 64 != 0 || len % 64 != 0 || data.length != len / 64 then
      let (id, s) := s.newReq
      .next (s.partialWrite (.blank id 3 port n off s.now 0 poison))
    else
      .next (data.zipIdx.foldl (fun s (v, i) => s.peerLine port n 3 (off + 64 * i) req s.now v poison env) s)

/-! ### Waiting requests -/

/-- Requests that a lane held back come to the Colander in their order while its queue at the meter has room
(R15, R227). -/
def State.gateDrain (env : ReadEnv) (lane : Nat) : Nat → State → State
  | 0, s => s
  | k + 1, s =>
    match (if s.laneHeld lane < 256 then s.waiting.find? fun r => r.wait == .gate && r.lane == lane else none) with
    | none => s
    | some r =>
      let s := { s with waiting := s.waiting.filter (·.id != r.id) }
      State.gateDrain env lane k (match s.extent r.ext with
        | some x => s.decide3 r x env
        | none => s.serve r env)

/-- Requests leave the meter in stamp order while it is positive, and their lanes go on (R227). -/
def State.meterDrain (env : ReadEnv) : Nat → State → State
  | 0, s => s
  | k + 1, s =>
    match (if 0 < s.col.meter then s.waiting.find? fun r => r.wait == .meter else none) with
    | none => s
    | some r =>
      let s := { s with waiting := s.waiting.filter (·.id != r.id) }
      let (r, s) := s.classify r
      let codec := match s.extent r.ext with | some x => x.codec | none => 0
      let s := (s.chargeMeter codec).serve r env
      State.meterDrain env k (s.gateDrain env r.lane s.waiting.length)

/-- METER_RELEASE: waiting requests leave stage 3 while the meter is positive (R227). -/
def execMeterRelease (t : Nat) (env : ReadEnv) (s : State) : Host.Outcome State Fault Refusal :=
  let s := s.startEnv t env
  .next ((s.meterDrain env s.waiting.length).drainOrder env)

/-- URGENCY_RAISE: a queued request's urgency rises; a load or store that reaches 3 is counted for its lane
(R112, R113). -/
def execUrgencyRaise (t id : Nat) (s : State) : Host.Outcome State Fault Refusal :=
  let s := s.start t
  match s.req id with
  | none => .next s
  | some r =>
    let u := s.urgencyOf r
    let s := { s with waiting := s.waiting.map fun q => if q.id = id then { q with urgency := u } else q }
    .next (if u = 3 ∧ r.urgency < 3 ∧ r.kind < 2 then
      { s with drm := { s.drm with late := sput 0 s.drm.late r.lane ((sget 0 s.drm.late r.lane + 1) % 2 ^ 32) } }
    else s)

end Sys2Proof.Machine
end

