-- ==== Sys2Proof/Machine/Fills.lean ====
section
/-! DEFINITION. The flash tier's background work: fills, write-backs, reads and their recovery,
rebuild, relocation, shadow copies and the merge buffer's own events (R26, R81, R90, R127,
R131 to R137, R166 to R168). -/

namespace Sys2Proof.Machine

open Sys2Proof

/-- MERGE_BUFFER_FILL: the stored form of a span is read into its entry (R166, R168). -/
def execMergeBufferFill (t frame span : Nat) (env : ReadEnv) (s : State) : Host.Outcome State Fault Refusal :=
  let s := s.startEnv t env
  match (s.frame frame).bind fun f => s.extent f.ext with
  | some x => .next (if (s.mergeAt frame span).any (·.loaded) then s else s.mergeReady x frame span env)
  | none => .next s

/-- MERGE_FLUSH_AGE: a dirty entry as old as FLUSH_AGE is encoded and written (R167). -/
def execMergeFlushAge (t frame span : Nat) (env : ReadEnv) (s : State) : Host.Outcome State Fault Refusal :=
  let s := s.startEnv t env
  match s.mergeAt frame span with
  | some m => .next (if m.dirty ∧ m.since + 1000 * fld s.cod.ctrl 0 16 ≤ s.now then s.flushEntry m env else s)
  | none => .next s

/-- FILL_COMPLETE: the codewords of a fill have arrived (R19, R26). -/
def execFillComplete (t ext page ver : Nat) (lost : List Nat) (env : ReadEnv) (s : State) :
    Host.Outcome State Fault Refusal :=
  let s := s.startEnv t env
  match (s.framesOf ext page).find? fun (_, f) => f.st == 3 && f.fillVer == ver with
  | some (n, _) => .next ((s.finishFill n lost).wake .fill n env)
  | none =>
    let on := ((s.waiting.filter fun r => r.wait == .fill && r.ext == ext).map (·.on)).eraseDups
    .next (on.foldl (fun s n => s.wake .fill n env) s)

/-- WRITE_BACK: a dirty RESIDENT frame begins to be written back (R79, R81). -/
def execWriteBack (t frame : Nat) (env : ReadEnv) (s : State) : Host.Outcome State Fault Refusal :=
  let s := s.startEnv t env
  match s.frame frame with
  | some f =>
    if f.st = 1 ∧ f.dirty then
      let s := s.flushFrame frame env
      match s.frame frame with
      | some f =>
        let r := s.imageRead frame f env
        .next ((r.2.program r.1 (some frame) true none).modFrame frame fun f =>
          { f with st := 4, cleaning := some r.2.fls.nextProg })
      | none => .next s
    else .next s
  | none => .next s

/-! ### Reads, rebuild and relocation (R131, R132, R134, R135) -/

/-- The image that a codeword of a page is read from: what the page's FILLING frame is filled from, else the current
one. -/
def State.codewordImage (s : State) (ext page : Nat) : Option Image :=
  match (s.framesOf ext page).find? fun (_, f) => f.st == 3 with
  | some (_, f) => s.source ext page f.fillVer
  | none => s.fls.images.find? fun i => i.ext == ext && i.page == page && !i.retained

/-- A codeword was reconstructed: it is counted, its image rewritten, and more than 64 within 1 s retire the die (R132,
R134). -/
def State.reconstructed (s : State) (i : Image) : State :=
  let times := recent (s.die i.die).reconTimes s.now 1000000000
  let s := (s.countRecon i.die 1).modDie i.die fun v => { v with reconTimes := times }
  let s := s.moveImages s.anyGroup [i]
  if 64 < times.length then s.retireDie i.die else s

/-- FLASH_READ_DONE: a codeword decodes at one of the four steps of R132, or at none (`step` above 4), and the reads that
wait for its lines are served. A die out of service is read by reconstruction in any case, which was counted as the read
began (R26, R132 to R135). -/
def execFlashReadDone (t ext page cw step : Nat) (s : State) : Host.Outcome State Fault Refusal :=
  let s := s.start t
  let s := match s.codewordImage ext page with
    | some i => if step = 4 ∧ (s.die i.die).st = 0 then s.reconstructed i else s
    | none => s
  match (s.framesOf ext page).find? fun (_, f) => f.st == 3 with
  | some (n, _) => .next ((s.decodeCodeword n cw (decide (4 < step))).wake .fill n noEnv)
  | none => .next s

/-- REBUILD_IMAGE: one image of a retired die moves to a remaining member of its group; after the last the
die is RETIRED (R135). -/
def execRebuildImage (t die : Nat) (s : State) : Host.Outcome State Fault Refusal :=
  let s := s.start t
  if (s.die die).st != 1 then .next s
  else
    let s := match s.fls.images.find? fun i => i.die == die && !i.lost with
      | some i => s.moveImages [dieGroup die] [i]
      | none => s
    .next (if s.fls.images.any fun i => i.die == die && !i.lost then s
      else s.modDie die fun v => { v with st := 2 })

/-- Stripe rows without a valid image are reclaimed. -/
def State.reclaimRows (s : State) : State :=
  { s with fls := { s.fls with stripes := s.fls.stripes.filter fun r => !r.closed || !(s.rowImages r).isEmpty } }

/-- RELOCATION: `n` valid images leave a block of a die that holds superseded ones, and rows left without images are
reclaimed (R131). -/
def execRelocation (t die block n : Nat) (s : State) : Host.Outcome State Fault Refusal :=
  let s := s.start t
  let l := (s.fls.images.filter fun i => i.die == die && i.row / Config.blockPages == block && !i.lost).take n
  .next ((s.moveImages s.anyGroup l).reclaimRows)

/-- SHADOW_COPY: the next `n` lines of a shadow frame without their copied bit are copied (R90). -/
def execShadowCopy (t frame n : Nat) (env : ReadEnv) (s : State) : Host.Outcome State Fault Refusal :=
  let s := s.startEnv t env
  match s.frame frame with
  | some f =>
    if f.st = 5 then
      .next (s.copyShadow frame (((List.range 1024).filter fun l => !f.copied.contains l).take n) env)
    else .next s
  | none => .next s

end Sys2Proof.Machine
end

