-- ==== Sys2Proof/Machine/Commands.lean ====
section
/-! DEFINITION. What the opcodes share: operand checks, demands, room for shadows, the order of commands, the
reads and writes of a command, and its end (R20, R24, R42 to R46, R71, R88, R91, R92, R209, R214, R217, R262, R263,
R279, R300, R383, R477). -/

namespace Sys2Proof.Machine

open Sys2Proof

/-- A command under check: issuer, queue, N of R326, packet, stamp and effective count. -/
structure Ask where
  a : Nat
  q : Nat
  n : Nat
  p : Packet
  stamp : Count
  eff : Count
  deriving DecidableEq, Repr

/-- An operand range in local addresses. -/
structure Rng where
  addr : Nat
  len : Nat
  write : Bool
  deriving DecidableEq, Repr

/-! ### Operand checks (R71, R88, R143, R262) -/

/-- Why an operand fails R71: 0 it passes, ST_ACCESS or ST_REVOKED. -/
def State.operandFault (s : State) (a : Nat) (stamp : Count) (r : Rng) : Nat :=
  match s.extentAt r.addr with
  | none => 0x0C
  | some (_, x) =>
    let o := r.addr - x.base
    if x.rights a = 0 then 0x0C
    else if x.isRevoked a stamp o || x.isRevoked a stamp (o + r.len - 1) then 4
    else if r.write && x.rights a != 2 then 0x0C
    else if x.sharing != 0 && !x.inPlace a && (x.view a).isNone then 0x0C
    else if x.composite && (s.tagFor (s.viewsOf a) x.desc).isNone then 0x0C
    else 0

/-- The first failing operand decides. -/
def State.operandsFault (s : State) (a : Nat) (stamp : Count) (l : List Rng) : Nat :=
  (l.map (s.operandFault a stamp)).foldl (fun v w => if v = 0 then w else v) 0

/-- A range leaves the extent in which it starts. -/
def State.leaves (s : State) (r : Rng) : Bool := (s.rangeExtent r.addr r.len).isNone

/-- Two ranges share a byte. -/
def Rng.overlaps (r q : Rng) : Bool := decide (r.addr < q.addr + q.len) && decide (q.addr < r.addr + r.len)

/-- A written range is write-locked by a SNAPSHOT at the command's stamp (R143). -/
def State.writeLocked (s : State) (stamp : Count) (r : Rng) : Bool :=
  r.write && match s.extentAt r.addr with
  | some (_, x) => x.locks.any fun k => decide (x.base + k.lo < r.addr + r.len) &&
      decide (r.addr < x.base + k.hi) && decide (k.since ≤ stamp) &&
      (match k.til with | some c => decide (stamp < c) | none => true)
  | none => false

/-- Extents that ranges lie in. -/
def State.extentsOf (s : State) (l : List Rng) : List Nat :=
  (l.filterMap fun r => (s.extentAt r.addr).map (·.1)).eraseDups

/-! ### Demands (R42, R198, R214, R300, R380, R383) -/

/-- Pages with a wipe pending in a written range. -/
def State.wipesIn (s : State) (r : Rng) : List Nat :=
  match s.extentAt r.addr with
  | some (e, x) =>
    if !r.write ∨ x.versioned then []
    else (x.bytePages (r.addr - x.base) r.len).filter fun p => match s.locate e p x.ver with
      | .frame k => ((s.frame k).bind (·.wipe)).isSome
      | _ => false
  | none => []

/-- Bound of R380 for a proxy. -/
def State.proxyBound (s : State) (x : Extent) : Nat :=
  400000 + 200000 * (match s.route x.home with | some (_, h) => h | none => 0)

/-- First port of the route to a proxy's home. -/
def State.proxyPort (s : State) (x : Extent) : Nat := match s.route x.home with | some (p, _) => p | none => 0

/-- Demand of an operand range of which `bytes` count: GDDR7, flash or Tamian for what is not resident at
the worst, synthesis misses, wipes and mirrored writes (resource, amount). -/
def State.rangeDemand (s : State) (r : Rng) (bytes : Nat) : List (Nat × Nat) :=
  match s.extentAt r.addr with
  | none => []
  | some (_, x) =>
    (0, 16 * bytes) ::
    (if x.proxy then [(5 + s.proxyPort x, 16 * 70400 * (x.bytePages (r.addr - x.base) r.len).length)]
      else if x.composite then
        let tiles := (r.addr - x.base + r.len - 1) / pageBytes + 1 - (r.addr - x.base) / pageBytes
        (s.tileDemand x.desc).map fun (i, d) => (i, tiles * d)
      else if x.tier = 0 then [] else [(1, 16 * bytes)]) ++
    (if r.write then [(0, 16 * pageBytes * (s.wipesIn r).length)] else []) ++
    (if r.write ∧ (s.tam.pair = 1 ∨ s.tam.pair = 5) then [(8, 16 * bytes)] else [])

/-- The allowance for data that is not resident (R42, R380). -/
def State.flashTerm (s : State) (l : List Rng) : Nat :=
  let one (x : Extent) : Nat := if x.proxy then s.proxyBound x else if x.tier = 0 then 0 else 400000
  maxN 0 (l.map fun r => match s.extentAt r.addr with
    | none => 0
    | some (_, x) =>
      if x.composite then
        maxN 0 ((dFactors x.desc).map fun e => match s.extent e with | some y => one y | none => 0)
      else one x)

/-- 64 KiB spans that a range touches. -/
def spans (addr len : Nat) : Nat := if len = 0 then 0 else (addr + len - 1) / pageBytes + 1 - addr / pageBytes

/-- Two lists of ranges share a 64 KiB span. -/
def shareSpan (a b : List (Nat × Nat)) : Bool :=
  a.any fun (x, n) => b.any fun (y, m) => n != 0 && m != 0 &&
    decide (x / pageBytes ≤ (y + m - 1) / pageBytes) && decide (y / pageBytes ≤ (x + n - 1) / pageBytes)

/-- Ranges read and written, as a command keeps them. -/
def readsOf (l : List Rng) : List (Nat × Nat) := (l.filter fun r => !r.write).map fun r => (r.addr, r.len)
@[inherit_doc readsOf] def writesOf (l : List Rng) : List (Nat × Nat) :=
  (l.filter (·.write)).map fun r => (r.addr, r.len)

/-- Latest promise among commands stamped earlier on shared spans (R209). -/
def State.spanRaise (s : State) (stamp : Count) (l : List Rng) : Count :=
  let rd := readsOf l
  let wr := writesOf l
  maxN 0 ((s.cmds.filter fun c => decide (c.stamp < stamp) && (shareSpan c.writes (rd ++ wr) || shareSpan c.reads wr)).map (·.promise))

/-- Latest promise among commands that write a byte of the ranges. -/
def State.writersPromise (s : State) (l : List Rng) : Count :=
  maxN 0 ((s.cmds.filter fun c => c.writes.any fun (a, n) => l.any fun r => r.overlaps ⟨a, n, true⟩).map (·.promise))

/-! ### Room for shadow frames (R91, R92, R477) -/

/-- The shadow frames that written ranges need cannot be had. -/
def State.noShadowRoom (s : State) (a : Nat) (l : List (Nat × Nat)) : Bool :=
  let need := s.shadowNeed a [] l
  if need.isEmpty then false
  else
    let own := (s.cmds.filter (·.allot == a)).flatMap fun c => s.shadowNeed a c.sets c.writes
    let all := (need ++ own).eraseDups
    ((all.map (·.1)).eraseDups.any fun e => match s.extent e with
      | some x => decide (65536 < (s.shadowSet e (x.cmdSet a e [])).length + (all.filter (·.1 == e)).length)
      | none => false) ||
    need.any fun ep =>
      let k := s.pageSet ep
      decide (s.setRoom k < s.setHeld k (0x10000, 0) +
        (need.filter fun q => s.pageSet q == k && !(own.contains q)).length)

/-- `some 0` when R92 refuses the written ranges. -/
def State.room92 (s : State) (a : Nat) (l : List Rng) : Option (BitVec 96) :=
  if s.noShadowRoom a (writesOf l) then some 0 else none

/-- What the Colander is asked for by a command that works on ranges. -/
def State.wantRanges (s : State) (c : Ask) (l : List Rng) (dem : List (Nat × Nat)) (tOp : Nat) : Want :=
  { dem := demand dem, tOp := tOp + s.flashTerm l, reads := readsOf l, writes := writesOf l,
    exts := s.extentsOf l, noRoom := s.room92 c.a l }

/-! ### Reading and writing for a command (R24, R89, R92, R300, R477) -/

/-- The command works on data of the extents that it names: all but OPEN, CLOSE, GRANT, REVOKE, RESIZE and QUERY. -/
def Cmd.readsData (c : Cmd) : Bool :=
  let op := pkOp c.pkt
  op != 0x30 && op != 0x32 && !(decide (0x50 ≤ op) && decide (op ≤ 0x53))

/-- Shadow sets that a command reads and writes through when its work begins: those of its issuer's views (R89, R92).
-/
def State.captureSets (s : State) (c : Cmd) : List (Nat × Nat) :=
  (s.extentsOf ((c.reads ++ c.writes).map fun (a, n) => ⟨a, n, true⟩)).filterMap fun e => match s.extent e with
    | some x => if x.versioned then some (e, x.cmdSet c.allot e c.sets) else none
    | none => none

/-- Versions that a command reads when its work begins: views open now, then those that ended since
its admission. -/
def State.captureVers (s : State) (c : Cmd) : List (Nat × Nat) :=
  let es := if !c.readsData then [] else c.exts ++ c.exts.flatMap fun e => match s.extent e with
    | some x => if x.composite then dFactors x.desc else []
    | none => []
  ((s.viewsOf c.allot) ++ c.vers).filter fun (e, _) => es.contains e

/-- Read a line for a command; a line that stays uncorrectable or fails its tag is logged (R295). -/
def State.cmdReadOn (s : State) (c : Cmd) (eng : Option Nat) (addr : Nat) (env : ReadEnv) : Read × State :=
  match s.extentAt addr with
  | none => (.poison 0, s)
  | some (e, x) =>
    let (r, s) := s.readAny (some c.id) eng e c.allot c.vers c.sets ((addr - x.base) / 64) env
    match r with
    | .uncorrectable => (r, s.err c.allot 0x0A 2 addr addr c.queue e)
    | .tag => (r, s.err c.allot 0x0B 2 addr addr c.queue e)
    | r => (r, s)

@[inherit_doc State.cmdReadOn] def State.cmdRead (s : State) (c : Cmd) (addr : Nat) (env : ReadEnv) : Read × State :=
  s.cmdReadOn c none addr env

/-- Wipe a frame: every line unwritten (R299). -/
def State.wipeFrame (s : State) (n : Nat) : State :=
  s.modFrame n fun f => { f with wipe := none, promoted := false, lines := [], errs := [], lens := [], lenDie := [] }

/-- Commands that a pair applies to both parts (R386, R442). -/
def isPairOp (op : Nat) : Bool :=
  [0x30, 0x31, 0x32, 0x40, 0x41, 0x42, 0x50, 0x51, 0x52, 0x60, 0x61, 0x80, 0x81, 0xF0, 0xF1, 0xF2].contains op

/-- The lines that a command of a paired part writes go to both parts (R383); a command that both parts apply writes on
each. -/
def State.mirrors (s : State) (c : Cmd) : Bool := (s.tam.pair == 1 || s.tam.pair == 5) && !(isPairOp (pkOp c.pkt))

/-- A line that a command has written waits, as a store does, until both parts hold it; it needs no completion (R383). -/
def State.farWrite (s : State) (c : Cmd) (e : Nat) (x : Extent) (addr : Nat) (w : Put) : State :=
  let tag := s.tam.nextTag % 65536
  let v : Line := match w with | .data v => v | .poison _ => 0
  let bad := match w with | .data _ => false | .poison _ => true
  let r : HostReq := { HostReq.blank s.nextReq 5 13 c.allot addr c.eff v bad with
    laddr := addr, ext := e, ver := (s.verOf c.vers e).getD x.ver, set := x.cmdSet c.allot e c.sets, acked := true
    after := c.id + 1, ordered := c.keyed }
  let s := { s with nextReq := s.nextReq + 1
                    tam := { s.tam with nextTag := tag + 1, mirrors := s.tam.mirrors ++ [(tag, r.id)] } }
  (s.mirrorLine tag addr c.eff c.allot bad v).waitFor r .arbiter tag

/-- Lines that a command has written are not held by both parts yet (R383). -/
def State.farOpen (s : State) (id : Nat) : Bool := s.waiting.any fun r => r.kind == 5 && r.after == id + 1

/-- Write a line for a command: promoted wipes first, then the issuer's write path; on a paired part its arbiter performs
it first (R383). -/
def State.cmdWrite (s : State) (c : Cmd) (addr : Nat) (w : Put) (env : ReadEnv) : State :=
  match s.extentAt addr with
  | none => s
  | some (e, x) =>
    let n := (addr - x.base) / 64
    let k := x.cmdSet c.allot e c.sets
    if x.versioned && !x.setLive k then s
    else if s.mirrors c && !s.isArbiter addr then s.farWrite c e x addr w
    else
      let s := (s.wipeFrames e x n).foldl (fun s k => (s.wipeFrame k).wake .wipe k env) s
      let (ok, s) := s.writeLogical e x c.allot k ((s.verOf c.vers e).getD x.ver) n w env
      if !ok then
        if x.versioned then ((s.spoil e k).pubBit 2).err c.allot 0x07 2 addr addr c.queue e
        else s.err c.allot 0x11 2 addr addr c.queue e
      else
        let s := s.modExtent e fun y => if y.written.isNone then { y with written := some c.stamp } else y
        if s.mirrors c then s.farWrite c e x addr w else s

/-- Proxy pages in the ranges that a command reads, or copies shadows from, which are not here: fills start
for those not yet asked for; whether the command must wait (R376, R380). -/
def State.proxyWait (s : State) (c : Cmd) (env : ReadEnv) : Bool × State :=
  (c.reads ++ c.writes).foldl (fun (acc : Bool × State) (addr, n) =>
    match acc.2.extentAt addr with
    | none => acc
    | some (e, x) =>
      if !x.proxy then acc
      else
        let v := (acc.2.verOf c.vers e).getD x.ver
        (x.bytePages (addr - x.base) n).foldl (fun (acc : Bool × State) p =>
          let (b, s) := acc
          match s.locate e p v with
          | .frame k => (b || (match s.frame k with | some f => f.st == 3 | none => false), s)
          | _ =>
            let (k, s) := s.proxyFill e x p v c.cls env
            (b || k.isSome, s)) acc) (false, s)

/-! ### The order of commands (R20, R24, R44, R209, R328) -/

/-- The sequencing key of command `a` is below that of `b` (R326). -/
def Cmd.keyBefore (a b : Cmd) : Bool :=
  if a.eff != b.eff then decide (a.eff < b.eff)
  else if a.allot != b.allot then decide (a.allot < b.allot)
  else if a.queue != b.queue then decide (a.queue < b.queue) else decide (a.n < b.n)

/-- Command `a` comes before `b`: by effective count; equal ones by the sequencing key when both were stamped in ordered
mode, else as they were admitted. -/
def Cmd.before (a b : Cmd) : Bool :=
  if a.eff = b.eff ∧ !(a.keyed && b.keyed) then decide (a.id < b.id) else a.keyBefore b

/-- Two lists of ranges share a byte. -/
def sharesByte (a b : List (Nat × Nat)) : Bool :=
  a.any fun (x, n) => b.any fun (y, m) => decide (x < y + m) && decide (y < x + n)

/-- Command `b` must find a line as the earlier `a` leaves it, or leave it as `a` must find it. -/
def Cmd.clash (a b : Cmd) : Bool :=
  sharesByte a.writes b.writes || sharesByte a.fixes b.reads || sharesByte a.reads b.writes

/-- An extent of the command is being resized, and the command comes at or after the RESIZE's count (R66). -/
def State.inMove (s : State) (c : Cmd) : Bool :=
  pkOp c.pkt != 0x52 && c.exts.any fun e => match (s.extent e).bind (·.moving) with
    | some (_, k) => decide (k ≤ c.eff)
    | none => false

/-- An earlier request or command has still to touch a line of the command (R20, R24, R209), or its layout is moving. -/
def State.cmdBlocked (s : State) (c : Cmd) : Bool :=
  s.inMove c || (!c.writes.isEmpty && c.exts.any fun e => s.behindCut e c.allot c.eff) ||
  (s.waiting.any fun r => !(c.beforeReq r) && c.meets r) ||
  s.cmds.any fun d => d.id != c.id && d.unfinished && d.before c && d.clash c

/-- The reservation whose shares carry a command's work; none is the unreserved pools (R44, R228). -/
def State.shareOf (s : State) (c : Cmd) : Option (Nat × Nat) :=
  if s.kind c.cls = 2 && c.inBudget && (s.reservation c.allot c.cls).isSome then some (c.allot, c.cls) else none

/-- No command with an earlier promise has work for the same share of a station that it could do now (R44). -/
def State.promiseFirst (s : State) (c : Cmd) (station : Nat) : Bool :=
  !(s.cmds.any fun d => d.id != c.id && d.phase == .running && d.stations.contains station &&
    s.shareOf d == s.shareOf c && !(s.cmdBlocked d) &&
    (decide (d.promise < c.promise) || (d.promise == c.promise && d.keyed && c.keyed && d.keyBefore c)))

/-! ### The end of a command (R45, R51, R217, R246, R279) -/

/-- Queue number of a command that this part applies for its partner (R386). -/
def pairQueue : Nat := 4097

/-- A command that the partner has not applied yet, or lines of which it does not hold yet (R383, R386). -/
def State.pairWaits (s : State) (id : Nat) : Bool :=
  (s.tam.waits.any fun w => w.type == 0x22 && w.cmd == some id) || s.farOpen id

/-- The command's entry is handed to its queue; what it held is free. The partner hears of the end of one that was
applied for it. -/
def State.releaseCmd (s : State) (c : Cmd) : State :=
  let s := { s with
    cmds := s.cmds.filter (·.id != c.id)
    mxe := { s.mxe with outs := s.mxe.outs.filter fun o => o.cmd != c.id } }
  let s := if c.queue = pairQueue then
    s.portSend 3 { s.message 0x22 0 s.partnerId c.n 0 [1, c.status] with flags := 2 } else s
  let s := s.complete c.queue (entryOf (pkTag c.pkt) c.status (s.plan.cur.ver != c.plan) c.poison c.plan
    c.promise c.result) c.promise c.intr (if c.inBudget then some (16 * c.allot + c.cls) else none)
  let s := c.vers.foldl (fun s (e, _) => s.release e) s
  s.reap

/-- A command whose work is done may be released: its promise is reached when it is paced, and both parts of a pair
have applied it. -/
def State.releasable (s : State) (c : Cmd) : Bool := !(c.paced && decide (s.now < c.promise)) && !s.pairWaits c.id

/-- Work done: released at once, or held until it may be. -/
def State.finishOne (s : State) (id status : Nat) (poison : Bool) (res : BitVec 96) : State :=
  match s.cmd id with
  | none => s
  | some c =>
    let c := { c with status := status, poison := poison, result := res, phase := .paced }
    if s.releasable c then s.releaseCmd c else s.modCmd id fun _ => c

/-- FENCEs whose covered commands have all been handed on are done (R279). -/
def State.fences : Nat → State → State
  | 0, s => s
  | k + 1, s =>
    match s.cmds.find? fun c => pkOp c.pkt == 0x70 && c.phase == .running &&
        !(c.covers.any fun i => (s.cmd i).isSome) with
    | some c => State.fences k (s.finishOne c.id 0 false (result [(20, 4, c.covers.length)]))
    | none => s

/-- A command's work is done. -/
def State.finishCmd (s : State) (id status : Nat) (poison : Bool) (res : BitVec 96) : State :=
  (s.finishOne id status poison res).fences s.cmds.length

/-- Status and POISON_SEEN of a command that met poison (R163, R183, R215). -/
def poisonStatus (poison damaged : Bool) : Nat := if damaged then 7 else if poison then 6 else 0

/-- A held command ends without work (R252). -/
def State.masterOff (s : State) (id : Nat) : State :=
  match s.cmd id with
  | some c => (s.releaseCmd { c with status := 8, poison := false, result := 0 }).fences s.cmds.length
  | none => s

/-- Among ordered commands that are ready, the Ladle posts the first in key order (R217, R327). -/
def State.ladleFirst (s : State) (c : Cmd) : Bool :=
  !c.ordered || !(s.cmds.any fun d => d.id != c.id && d.phase == .paced && d.ordered && s.releasable d && d.keyBefore c)

/-- PACED_RELEASE: the count reaches a held completion's promise (R45, R217, R218). -/
def execPacedRelease (t cmd : Nat) (s : State) : Host.Outcome State Fault Refusal :=
  let s := s.start t
  match s.cmd cmd with
  | some c =>
    if c.phase = .paced ∧ s.releasable c ∧ s.ladleFirst c then .next ((s.releaseCmd c).fences s.cmds.length) else .next s
  | none => .next s

end Sys2Proof.Machine
end

