-- ==== Sys2Proof/Machine/Recipes.lean ====
section
/-! DEFINITION. Recipes: images, validation, micro-operations, accumulators and the built-in recipes
(R201 to R211). Values are fp32 codes; a poisoned value is `none`. -/

namespace Sys2Proof.Machine

open Sys2Proof

/-! ### Element types (R205, R207) -/

/-- Bytes of an element of TYPE 0–4. -/
def typeBytes (ty : Nat) : Nat := if ty = 4 then 4 else elemBytes ty

/-- A format's exponent and mantissa bits by TYPE. -/
def typeFmt (ty : Nat) : Fmt :=
  if ty = 0 then bf16 else if ty = 1 then ⟨5, 10⟩ else if ty = 2 then ⟨4, 3⟩ else if ty = 3 then ⟨5, 2⟩ else fp32

/-- Exact fp32 code of a stored element; a NaN keeps its sign. -/
def toF32 (ty c : Nat) : Nat :=
  if ty = 4 then c
  else match elemValue ty c with
    | .nan => c / 2 ^ (8 * typeBytes ty - 1) % 2 * 2 ^ 31 + 0x7FC00000
    | v => fp32.pack v

/-- Stored code of a value as an output of a type, with or without SAT (R207). -/
def storeAs (ty : Nat) (sat : Bool) (v : FV) : Nat :=
  let f := typeFmt ty
  let top := if ty = 2 then 0x7E else (2 ^ f.eb - 1) * 2 ^ f.mb - 1
  let sign (n : Bool) := if n then 2 ^ (f.eb + f.mb) else 0
  let beyond (n : Bool) := if sat then sign n + top else if ty = 2 then 0x7F else sign n + top + 1
  match v with
  | .nan => if ty = 2 then 0x7F else f.pack .nan
  | .inf n => beyond n
  | .fin n m e =>
    let c := if ty = 2 then
        if m = 0 then 0
        else
          let ex := max ((Nat.log2 m : Int) + e) (-6)
          (ex + 6).toNat * 8 + rne m (e - (ex - 3))
      else f.pack (.fin false m e)
    if top < c then beyond n else sign n + c

/-! ### Micro-operations (R203, R210) -/

/-- A step record (R203). -/
structure Micro where
  op : Nat
  dst : Nat
  a : Nat
  b : Nat
  c : Nat
  imm : Nat
  flags : Nat
  deriving DecidableEq, Repr

/-- A recipe. -/
structure Recipe where
  steps : List Micro
  inMask : Nat
  outMask : Nat
  accMask : Nat
  deriving DecidableEq, Repr

/-- Operands that an operation uses. -/
def opArity (op : Nat) : Nat :=
  if op = 0 then 0
  else if op = 5 ∨ op = 6 ∨ op = 7 ∨ op = 0x0E ∨ op = 0x13 then 3
  else if op = 2 ∨ op = 3 ∨ op = 4 ∨ op = 8 ∨ op = 0x0C ∨ op = 0x0D ∨ op = 0x11 ∨ (0x14 ≤ op ∧ op ≤ 0x17) ∨
    op = 0x20 ∨ op = 0x22 then 2
  else 1

/-- Cost in lane-steps per element (R210). -/
def opCost (op : Nat) : Nat := if 8 ≤ op ∧ op ≤ 0x0B then 4 else 1

/-- Cost of a recipe. -/
def Recipe.cost (r : Recipe) : Nat := sumN (r.steps.map fun m => opCost m.op)

/-- 1.0 or 0.0. -/
def truth (b : Bool) : Nat := if b then 0x3F800000 else 0

/-- The canonical NaN. -/
def qnan : Nat := 0x7FC00000

/-- Smaller of two values, −0 below +0; NaN for a NaN. -/
def minF (a b : Nat) : Nat :=
  let x := fp32.unpack a
  let y := fp32.unpack b
  if x = .nan ∨ y = .nan then qnan
  else if x.lt y then a else if y.lt x then b else if 2 ^ 31 ≤ a then a else b

/-- Larger of two values, +0 above −0; NaN for a NaN. -/
def maxF (a b : Nat) : Nat :=
  let x := fp32.unpack a
  let y := fp32.unpack b
  if x = .nan ∨ y = .nan then qnan
  else if x.lt y then b else if y.lt x then a else if 2 ^ 31 ≤ a then b else a

/-- Product and sum with one rounding. -/
def fmaF (a b : Nat) (c : FV) : Nat := fp32.pack (((fp32.unpack a).mul (fp32.unpack b)).add c)

/-- Reciprocal square root with one rounding. -/
def rsqrtF (a : Nat) : Nat :=
  match fp32.unpack a with
  | .nan => qnan
  | .inf n => if n then qnan else 0
  | .fin n m e =>
    if m = 0 then fp32.pack (.inf n)
    else if n then qnan
    else
      let m' := if e % 2 = 0 then m else 2 * m
      let e' := if e % 2 = 0 then e else e - 1
      let k := 64 + Nat.log2 m'
      let r := isqrt (2 ^ (2 * k) / m')
      fp32.pack (.fin false (2 * r + if r * r * m' = 2 ^ (2 * k) then 0 else 1) (-(e' / 2) - k - 1))

/-- Rounding to an integer: 0 nearest even, 1 floor, 2 toward zero. -/
def roundInt (how a : Nat) : Nat :=
  match fp32.unpack a with
  | .nan => qnan
  | .inf n => fp32.pack (.inf n)
  | .fin n m e =>
    if 0 ≤ e ∨ m = 0 then a
    else
      let d := 2 ^ (-e).toNat
      let q := if how = 0 then rne m e else if how = 1 ∧ n then (m + d - 1) / d else m / d
      fp32.pack (.fin n q 0)

/-- Result of a micro-operation on fp32 codes; `a`, `b`, `c` are its operands. -/
def microOp (m : Micro) (a b c : Nat) : Nat :=
  let x := fp32.unpack a
  let y := fp32.unpack b
  let z := fp32.unpack c
  let zero (v : FV) : Bool := match v with | .fin _ 0 _ => true | _ => false
  match m.op with
  | 0x01 => fp32.pack x
  | 0x02 => addF a b
  | 0x03 => fp32.pack (x.add y.neg)
  | 0x04 => mulF a b
  | 0x05 => fmaF a b z
  | 0x06 => fmaF a b z.neg
  | 0x07 => fp32.pack ((x.mul y).neg.add z)
  | 0x08 => fp32.pack (x.div y)
  | 0x09 => fp32.pack ((FV.fin false 1 0).div x)
  | 0x0A => fp32.pack x.sqrt
  | 0x0B => rsqrtF a
  | 0x0C => minF a b
  | 0x0D => maxF a b
  | 0x0E => minF (maxF a b) c
  | 0x0F => if x = .nan then qnan else a % 2 ^ 31
  | 0x10 => fp32.pack x.neg
  | 0x11 => if x = .nan then qnan else a % 2 ^ 31 + b / 2 ^ 31 * 2 ^ 31
  | 0x12 => if x = .nan then qnan else if zero x then a else if 2 ^ 31 ≤ a then 0xBF800000 else 0x3F800000
  | 0x13 => if zero x ∨ x = .nan then fp32.pack z else fp32.pack y
  | 0x14 => truth (x.eqv y)
  | 0x15 => truth (!(x.eqv y))
  | 0x16 => truth (x.lt y)
  | 0x17 => truth (x.lt y || x.eqv y)
  | 0x18 => truth (x = .nan)
  | 0x19 => truth (match x with | .inf _ => true | _ => false)
  | 0x1A => truth (match x with | .fin .. => false | _ => true)
  | 0x1B => roundInt 0 a
  | 0x1C => roundInt 1 a
  | 0x1D => roundInt 2 a
  | 0x1E => fp32.pack (match m.imm with
      | 4 => x
      | ty => elemValue ty (storeAs ty (m.flags % 2 = 1) x))
  | 0x1F => fp32.pack (match x with
      | .fin n k e => .fin n k (e + (if m.imm < 128 then (m.imm : Int) else (m.imm : Int) - 256))
      | v => v)
  | 0x22 => if x = .nan then fp32.pack y else fp32.pack x
  | _ => fp32.pack x

/-- Starting value of an accumulator operation (R211). -/
def accStart (op : Nat) : Nat :=
  if op = 0x25 then 0xFF800000 else if op = 0x26 then 0x7F800000 else if op = 0x29 then 0xFFFFFFFF else 0

/-- An accumulator takes an element (R210). -/
def accTake (op acc a j : Nat) : Nat :=
  let x := fp32.unpack a
  let hit := match x with | .fin _ 0 _ => false | _ => true
  match op with
  | 0x23 => addF acc a
  | 0x24 => fmaF a a (fp32.unpack acc)
  | 0x25 => maxF acc a
  | 0x26 => minF acc a
  | 0x27 => maxF acc (if x = .nan then qnan else a % 2 ^ 31)
  | 0x28 => if hit then Nat.min (acc + 1) 0xFFFFFFFF else acc
  | _ => if hit then Nat.min acc j else acc

/-- Combining operation of two partials (R211). -/
def accJoin (op p q : Nat) : Nat :=
  match op with
  | 0x23 => addF p q
  | 0x24 => addF p q
  | 0x25 => maxF p q
  | 0x26 => minF p q
  | 0x27 => maxF p q
  | 0x28 => Nat.min (p + q) 0xFFFFFFFF
  | _ => Nat.min p q

/-- The fixed tree of R211 over a list; `n` bounds its depth. -/
def treeJoin (f : Nat → Nat → Nat) : Nat → List Nat → Nat
  | 0, l => l.headD 0
  | n + 1, l =>
    if l.length ≤ 1 then l.headD 0
    else
      let rec pair : List Nat → List Nat
        | x :: y :: r => f x y :: pair r
        | r => r
      treeJoin f n (pair l)

/-- Accumulator operation of `a_i` in a recipe, 0 when unused. -/
def Recipe.accOp (r : Recipe) (i : Nat) : Nat :=
  match r.steps.find? fun m => decide (0x23 ≤ m.op) && m.dst == 0x40 + i with
  | some m => m.op
  | none => 0

/-! ### Running one element (R207, R210, R215) -/

/-- An input element: its stored code and its type; none when its line is poison. -/
abbrev InElem := Option (Nat × Nat)

/-- What running the steps on an element leaves: registers, outputs as raw codes or values, and
accumulators with their poison. -/
structure Lane where
  regs : Sparse (Option Nat)
  outs : Sparse (Option (Bool × Nat))
  accs : List Nat
  bad : List Nat
  deriving DecidableEq, Repr

/-- fp32 value of an operand code. -/
def operandVal (ln : Lane) (ins : List InElem) (ks : List Nat) (c : Nat) : Option Nat :=
  if c < 0x10 then sget none ln.regs c
  else if c < 0x18 then (ins.getD (c - 0x10) none).map fun (v, ty) => toF32 ty v
  else if 0x20 ≤ c ∧ c < 0x30 then some (nth ks (c - 0x20))
  else some 0

/-- One step on element `j`. -/
def laneStep (ins : List InElem) (ks : List Nat) (j : Nat) (ln : Lane) (m : Micro) : Lane :=
  let val c := operandVal ln ins ks c
  if m.op = 0 then ln
  else if 0x23 ≤ m.op then
    let i := m.dst - 0x40
    match val m.a with
    | some a => { ln with accs := setNth ln.accs i (accTake m.op (nth ln.accs i) a j) }
    | none => { ln with bad := if ln.bad.contains i then ln.bad else i :: ln.bad }
  else
    let raw := m.op = 0x21
    let r : Option Nat :=
      if raw then
        if 0x20 ≤ m.a then some (nth ks (m.a - 0x20)) else (ins.getD (m.a - 0x10) none).map (·.1)
      else if m.op = 0x20 then
        match ins.getD (m.a - 0x10) none, ins.getD (m.b - 0x10) none with
        | some (a, _), some (b, _) => some (truth (a != b))
        | _, _ => none
      else
        match val m.a, (if 2 ≤ opArity m.op then val m.b else some 0),
            (if 3 ≤ opArity m.op then val m.c else some 0) with
        | some a, some b, some c => some (microOp m a b c)
        | _, _, _ => none
    if m.dst < 0x10 then { ln with regs := sins ln.regs m.dst r }
    else { ln with outs := sins ln.outs (m.dst - 0x30) (r.map fun v => (decide raw, v)) }

/-- Run a recipe on element `j`. -/
def Recipe.run (r : Recipe) (ins : List InElem) (ks : List Nat) (j : Nat) (accs bad : List Nat) : Lane :=
  r.steps.foldl (laneStep ins ks j) ⟨[], [], accs, bad⟩

/-- Stored code of an output (R207). -/
def outCode (ty : Nat) (sat : Bool) (o : Bool × Nat) : Nat :=
  if o.1 then o.2 % 2 ^ (8 * typeBytes ty) else storeAs ty sat (fp32.unpack o.2)

/-! ### Images and slots (R203, R204, R206) -/

/-- Byte `i` of a recipe image kept as words. -/
def imgByte (m : Sparse Reg32) (i : Nat) : Nat := bytesN (sget 0 m (i / 4)) (i % 4) 1

/-- Step `i` of an image. -/
def imgStep (m : Sparse Reg32) (i : Nat) : Micro :=
  let b (k : Nat) := imgByte m (64 + 8 * i + k)
  ⟨b 0, b 1, b 2, b 3, b 4, b 5, b 6⟩

/-- The recipe of an image. -/
def recipeOf (m : Sparse Reg32) : Recipe :=
  ⟨(List.range (imgByte m 0)).map (imgStep m), imgByte m 1, imgByte m 2, imgByte m 3⟩

/-- An operand code suits operand position `k` of an operation. -/
def operandOk (op k c : Nat) : Bool :=
  let v := decide (c < 0x10)
  let i := decide (0x10 ≤ c) && decide (c < 0x18)
  let q := decide (0x20 ≤ c) && decide (c < 0x30)
  if opArity op ≤ k then c == 0xFF
  else if op = 0x20 then i
  else if op = 0x21 then i || q
  else v || i || q

/-- A destination code suits an operation. -/
def dstOk (op d : Nat) : Bool :=
  let o := decide (0x30 ≤ d) && decide (d < 0x34)
  if op = 0 then d == 0xFF
  else if 0x23 ≤ op then decide (0x40 ≤ d) && decide (d < 0x43)
  else if op = 0x21 then o
  else decide (d < 0x10) || o

/-- A step is well-formed by itself. -/
def Micro.ok (m : Micro) : Bool :=
  decide (m.op ≤ 0x29) && dstOk m.op m.dst && operandOk m.op 0 m.a && operandOk m.op 1 m.b &&
  operandOk m.op 2 m.c && (m.op == 0x1F || (m.op == 0x1E && decide (m.imm ≤ 3)) || m.imm == 0) &&
  (m.flags == 0 || (m.op == 0x1E && m.flags == 1))

/-- Operand codes that a step reads. -/
def Micro.reads (m : Micro) : List Nat := [m.a, m.b, m.c].take (opArity m.op)

/-- Registers are written before they are read. -/
def regsOk : List Nat → List Micro → Bool
  | _, [] => true
  | w, m :: l =>
    (m.reads.all fun c => decide (0x10 ≤ c) || w.contains c) &&
    regsOk (if m.dst < 0x10 then m.dst :: w else w) l

/-- The checks of R204 on an image. -/
def imageOk (m : Sparse Reg32) : Bool :=
  let n := imgByte m 0
  let r := recipeOf m
  let rd := r.steps.flatMap Micro.reads
  decide (1 ≤ n) && decide (n ≤ 64) && decide (r.outMask < 16) && decide (r.accMask < 8) &&
  ((List.range 60).all fun i => imgByte m (4 + i) == 0) &&
  ((List.range n).all fun i => imgByte m (71 + 8 * i) == 0) &&
  r.steps.all Micro.ok && regsOk [] r.steps &&
  ((List.range 8).all fun i => rd.contains (0x10 + i) == (r.inMask / 2 ^ i % 2 == 1)) &&
  ((List.range 4).all fun i =>
    (r.steps.filter fun s => s.dst == 0x30 + i && s.op != 0).length == r.outMask / 2 ^ i % 2) &&
  (List.range 3).all fun i =>
    let l := (r.steps.filter fun s => decide (0x23 ≤ s.op) && s.dst == 0x40 + i).map (·.op)
    (l.eraseDups.length == r.accMask / 2 ^ i % 2)

/-- A step of a built-in recipe. -/
def mk (op dst a b c : Nat) : Micro := ⟨op, dst, a, b, c, 0, 0⟩

/-- Steps that ADAM and ADAMW share (steps 1 to 9). -/
def adamHead : List Micro :=
  [mk 4 0 0x11 0x28 0xFF, mk 4 1 0x12 0x20 0xFF, mk 5 1 0 0x21 1, mk 4 2 0x13 0x22 0xFF, mk 4 3 0 0 0xFF,
   mk 5 2 3 0x23 2, mk 0x0A 4 2 0xFF 0xFF, mk 5 4 4 0x26 0x24, mk 8 5 1 4 0xFF]

/-- Their stores. -/
def adamTail : List Micro :=
  [mk 1 0x30 6 0xFF 0xFF, mk 1 0x31 1 0xFF 0xFF, mk 1 0x32 2 0xFF 0xFF, mk 1 0x33 6 0xFF 0xFF]

/-- Built-in recipes, slots 0–8. -/
def builtinRecipe (slot : Nat) : Option Recipe :=
  match slot with
  | 0 => some ⟨adamHead ++ [mk 7 6 5 0x25 0x10] ++ adamTail, 15, 15, 0⟩
  | 1 => some ⟨adamHead ++ [mk 4 6 0x10 0x27 0xFF, mk 7 6 5 0x25 6] ++ adamTail, 15, 15, 0⟩
  | 2 => some ⟨[mk 4 0 0x11 0x28 0xFF, mk 4 1 0x12 0x20 0xFF, mk 5 1 0 0x21 1, mk 0x12 2 1 0xFF 0xFF,
      mk 4 3 0x10 0x27 0xFF, mk 7 3 2 0x25 3, mk 4 4 0x12 0x22 0xFF, mk 5 4 0 0x23 4,
      mk 1 0x30 3 0xFF 0xFF, mk 1 0x31 4 0xFF 0xFF, mk 1 0x33 3 0xFF 0xFF], 7, 11, 0⟩
  | 3 => some ⟨[mk 4 0 0x11 0x28 0xFF, mk 4 1 0x12 0x20 0xFF, mk 5 1 0 0x21 1, mk 4 2 0x10 0x27 0xFF,
      mk 7 2 1 0x25 2, mk 1 0x30 2 0xFF 0xFF, mk 1 0x31 1 0xFF 0xFF, mk 1 0x33 2 0xFF 0xFF], 7, 11, 0⟩
  | 4 => some ⟨[mk 4 0 0x10 0x28 0xFF, mk 0x24 0x40 0 0xFF 0xFF, mk 0x27 0x41 0 0xFF 0xFF,
      mk 0x1A 1 0 0xFF 0xFF, mk 0x28 0x42 1 0xFF 0xFF], 1, 0, 7⟩
  | 5 => some ⟨[mk 4 0 0x10 0x20 0xFF, mk 1 0x30 0 0xFF 0xFF, mk 0x27 0x40 0x10 0xFF 0xFF], 1, 1, 1⟩
  | 6 => some ⟨[mk 0x21 0x30 0x20 0xFF 0xFF], 0, 1, 0⟩
  | 7 => some ⟨[mk 0x21 0x30 0x10 0xFF 0xFF], 1, 1, 0⟩
  | 8 => some ⟨[mk 0x20 0 0x10 0x11 0xFF, mk 0x28 0x40 0 0xFF 0xFF, mk 0x29 0x41 0 0xFF 0xFF], 3, 0, 3⟩
  | _ => none

/-- The recipe in a slot, as it stood before writes of the present count (R472). -/
def State.recipe (s : State) (slot : Nat) : Option Recipe :=
  if slot < 16 then builtinRecipe slot else (sfind s.old.recipes slot).map recipeOf

/-- Allowance mask of a slot (R219, R472). -/
def State.allowed (s : State) (slot a : Nat) : Bool := bitOf (sget (BitVec.allOnes 64) s.old.allow slot) a

/-- An image as lines, which a command of its slot keeps. -/
def imageLines (m : Sparse Reg32) : List Line :=
  (List.range 9).map fun i => BitVec.ofNat 512
    ((List.range 16).foldr (fun k a => (sget 0 m (16 * i + k)).toNat + a * 2 ^ 32) 0)

/-- Lines of an image as its words. -/
def lineWords (l : List Line) : Sparse Reg32 :=
  (List.range 144).map fun i => (i, BitVec.ofNat 32 (bytesN (l.getD (i / 16) 0) (i % 16 * 4) 4))

/-! ### Slivers (R201, R202, R216) -/

/-- Sliver number of a local address. -/
def sliver (addr : Nat) : Nat :=
  let n := addr / 65536
  (n ^^^ (n >>> 12) ^^^ (n >>> 24)) % 4096

/-- Physical positions of a plot that were not retired at start-up; the lowest 128 serve its logical positions, and the
others are spares (R202). -/
def coreSlots (atStart : List Nat) : List Nat := (List.range 132).filter fun p => !atStart.contains p

/-- Physical positions that serve the logical positions of a plot, after the retirements since start-up in order; each
logical position passes to the lowest-numbered spare (R202, R216). -/
def plotHolders (atStart later : List Nat) : List (Option Nat) :=
  (later.foldl (fun (acc : List (Option Nat) × List Nat) e =>
    let (hold, spare) := acc
    let spare := spare.filter (· != e)
    if hold.contains (some e) then
      match spare with
      | x :: rest => (hold.map fun h => if h == some e then some x else h, rest)
      | [] => (hold.map fun h => if h == some e then none else h, [])
    else (hold, spare))
    (((coreSlots atStart).take 128).map some, (coreSlots atStart).drop 128)).1

/-- Positions of a plot among physical cores. -/
def plotCores (plot : Nat) (l : List Nat) : List Nat := (l.filter fun c => c / 132 == plot).map (· % 132)

/-- Positions that serve a plot's logical positions. -/
def State.holders (s : State) (plot : Nat) : List (Option Nat) :=
  plotHolders (plotCores plot (s.spr.retired.take s.spr.boot)) (plotCores plot (s.spr.retired.drop s.spr.boot))

/-- The physical core that serves a span: its logical position's, or one of the plot's remaining cores, counted in the
order of their logical positions (assumption 91). -/
def State.coreOf (s : State) (addr : Nat) : Option Nat :=
  let v := sliver addr
  let plot := v % 32
  let hold := s.holders plot
  match hold.getD (v / 32) none with
  | some p => some (132 * plot + p)
  | none =>
    let left := hold.filterMap id
    (left[(addr / 65536 / 4096) % Nat.max 1 left.length]?).map fun p => 132 * plot + p

end Sys2Proof.Machine
end

