-- ==== Sys2Proof/Machine/Sprig.lean ====
section
/-! DEFINITION. The sprig commands: FILL, COPY, COMPARE, RECIPE, REDUCE, GATHER and SCATTER_ADD, their checks,
demands and units of work, and the cores' faults (R204 to R219, R265 to R268). -/

namespace Sys2Proof.Machine

open Sys2Proof

/-! ### Streams and recipe jobs (R205, R206, R265, R268) -/

/-- A present stream of a job. -/
structure Stream where
  addr : Nat
  ty : Nat
  sat : Bool
  deriving DecidableEq, Repr

/-- A recipe run: slot, count, streams and constants; `bad` is a reserved field that is not zero. -/
structure Job where
  slot : Nat
  count : Nat
  ins : List (Option Stream)
  outs : List (Option Stream)
  ks : List Nat
  bad : Bool
  deriving DecidableEq, Repr

/-- `n` bytes of an argument block from byte `o`; no field crosses a line. -/
def blk (l : List Line) (o n : Nat) : Nat := bytesN (l.getD (o / 64) 0) (o % 64) n

/-- Stream descriptor `i` of an argument block. -/
def blkStream (l : List Line) (i : Nat) : Option Stream :=
  if blk l (16 * i + 8) 1 = 0xFF then none
  else some ⟨blk l (16 * i) 6, blk l (16 * i + 8) 1, blk l (16 * i + 9) 1 % 2 = 1⟩

/-- A reserved bit of descriptor `i` is set. -/
def blkBad (l : List Line) (i : Nat) : Bool :=
  blk l (16 * i + 6) 2 != 0 || blk l (16 * i + 10) 6 != 0 ||
  (if i < 8 then blk l (16 * i + 9) 1 != 0 else decide (2 ≤ blk l (16 * i + 9) 1))

/-- The job of a command of opcode FILL, COPY, COMPARE or RECIPE. -/
def jobOf (p : Packet) (args : List Line) : Job :=
  let none8 : List (Option Stream) := List.replicate 8 none
  let none4 : List (Option Stream) := List.replicate 4 none
  let len (o : Nat) (ty : Nat) := pk p o 8 / typeBytes ty
  let hi (o : Nat) : Bool := !pkZero p (o + 6) 2
  match pkOp p with
  | 1 =>
    let ty := pk p 40 1
    { slot := 6, count := len 32 ty, ins := none8, outs := setNth none4 0 (some ⟨pk p 24 6, ty, false⟩)
      ks := [pk p 44 4]
      bad := hi 24 || !pkZero p 41 3 || !pkZero p 48 16 || decide (4 < ty) ||
        decide (256 ^ typeBytes ty ≤ pk p 44 4) || decide (2 ^ 32 ≤ len 32 ty) || pk p 32 8 % typeBytes ty != 0 }
  | 2 =>
    let ty := pk p 48 1
    { slot := 7, count := len 40 ty, ins := setNth none8 0 (some ⟨pk p 24 6, ty, false⟩)
      outs := setNth none4 0 (some ⟨pk p 32 6, ty, false⟩), ks := []
      bad := hi 24 || hi 32 || !pkZero p 49 15 || decide (4 < ty) || decide (2 ^ 32 ≤ len 40 ty) }
  | 3 =>
    let ty := pk p 48 1
    { slot := 8, count := len 40 ty
      ins := setNth (setNth none8 0 (some ⟨pk p 24 6, ty, false⟩)) 1 (some ⟨pk p 32 6, ty, false⟩)
      outs := none4, ks := []
      bad := hi 24 || hi 32 || !pkZero p 49 15 || decide (4 < ty) || decide (2 ^ 32 ≤ len 40 ty) }
  | _ =>
    { slot := pk p 24 1, count := pk p 28 4, ins := (List.range 8).map (blkStream args)
      outs := (List.range 4).map fun i => blkStream args (8 + i)
      ks := (List.range 16).map fun i => blk args (192 + 4 * i) 4
      bad := !pkZero p 25 3 || !pkZero p 40 24 || !pkZero p 38 2 || decide (63 < pk p 24 1) ||
        (List.range 12).any (blkBad args) }

/-- Present streams as ranges. -/
def Job.streams (j : Job) : List (Stream × Bool) :=
  (j.ins.filterMap fun x => x.map fun v => (v, false)) ++ (j.outs.filterMap fun x => x.map fun v => (v, true))

/-- Range of a stream. -/
def Job.rng (j : Job) (v : Stream × Bool) : Rng := ⟨v.1.addr, j.count * typeBytes v.1.ty, v.2⟩

/-- The anchor stream: the first output with the widest element, else the first such input (R208). -/
def Job.anchor (j : Job) : Option Stream :=
  let pick (l : List (Option Stream)) : Option Stream := (l.filterMap id).foldl (fun b v => match b with
    | none => some v
    | some w => if typeBytes w.ty < typeBytes v.ty then some v else some w) none
  match pick j.outs with
  | some v => some v
  | none => pick j.ins

/-- A stream in an FXR extent is not BF16. -/
def State.fxrNot16 (s : State) (addr ty : Nat) : Bool :=
  match s.extentAt addr with | some (_, x) => x.isFxr && ty != 0 | none => false

/-- Step 3 of R206. -/
def State.jobBad (s : State) (j : Job) (r : Option Recipe) : Bool :=
  let st := j.streams
  let at' (l : List (Option Stream)) (i : Nat) := l.getD i none
  j.bad || j.count == 0 || (match r with
    | none => true
    | some r =>
      ((List.range 8).any fun i => (r.inMask / 2 ^ i % 2 == 1) != (at' j.ins i).isSome) ||
      ((List.range 4).any fun i => r.outMask / 2 ^ i % 2 == 0 && (at' j.outs i).isSome) ||
      r.steps.any fun m =>
        let w (i : Nat) := (at' j.ins (i - 0x10)).map fun v => typeBytes v.ty
        (m.op == 0x20 && w m.a != w m.b) ||
        (m.op == 0x21 && decide (m.a < 0x20) && (match at' j.outs (m.dst - 0x30) with
          | some v => w m.a != some (typeBytes v.ty)
          | none => false))) ||
  (st.any fun (v, _) => decide (4 < v.ty) || s.fxrNot16 v.addr v.ty) ||
  (st.any fun v => s.leaves (j.rng v)) ||
  (j.outs.zipIdx.any fun (a, i) => j.outs.zipIdx.any fun (b, k) => decide (i < k) && (match a, b with
    | some a, some b => (j.rng (a, true)).overlaps (j.rng (b, true))
    | _, _ => false)) ||
  (j.outs.any fun a => j.ins.any fun b => match a, b with
    | some a, some b => (j.rng (a, true)).overlaps (j.rng (b, false)) && !(a.addr == b.addr && a.ty == b.ty)
    | _, _ => false)

/-- Largest number of sheaves on one core for an anchor range (R214). -/
def gMax (size addr len : Nat) : Nat := (1024 / size + 1) * (ceilDiv (spans addr len) 4096 + 1)

/-- Sprig demand in 1/16 lane-step. -/
def sprigDemand (cost g : Nat) : Nat × Nat := (4, 16 * (4096 * 64 * cost * g))

/-- A sprig command as it is asked of the Colander: ranges with the bytes that count, and units of work. -/
def State.wantSprig (s : State) (c : Ask) (l : List (Rng × Nat)) (cost g : Nat) (units : List (Nat × Nat))
    (args : List Line) : Want :=
  let rs := l.map (·.1)
  { s.wantRanges c rs (sprigDemand cost g :: l.flatMap fun (r, b) => s.rangeDemand r b) 0 with
    sMin := s.spanRaise c.stamp rs, left := units.map (·.1), args := args
    stations := (units.map fun (_, a) => sliver a % 32).eraseDups }

/-- Sheaves of a range of elements: index and anchor address of each. -/
def sheaves (count addr size : Nat) : List (Nat × Nat) :=
  (List.range (ceilDiv count 64)).map fun h => (h, addr + 64 * h * size)

/-- Admission of a recipe job whose block is not poison; `odd`: an address or length of the packet itself is not a
multiple of 64 (R206). -/
def State.checkJob (s : State) (c : Ask) (j : Job) (args : List Line) (odd : Bool) : Verdict :=
  let r := s.recipe j.slot
  let rs := j.streams.map j.rng
  let acc := if j.slot < 64 && !s.allowed j.slot c.a then 0x0C else s.operandsFault c.a c.stamp rs
  let size := match j.anchor with | some v => typeBytes v.ty | none => 4
  let base := match j.anchor with | some v => v.addr | none => 0
  let cost := match r with | some r => r.cost | none => 0
  firstFail [(acc != 0, acc),
    (odd || j.streams.any fun (v, _) => v.addr % 64 != 0 ||
      (decide (v.ty ≤ 4) && j.count * typeBytes v.ty % 64 != 0), 5),
    (s.jobBad j r, 0x0B), (rs.any (s.writeLocked c.stamp), 3)]
    (.ok (s.wantSprig c (rs.map fun r => (r, r.len)) cost (gMax size base (j.count * size))
      (sheaves j.count base size) args))

/-- `n` bytes from byte `o` of a list of lines, as lines. -/
def linesFrom (ls : List Line) (o n : Nat) : List Line :=
  let v := ls.foldr (fun (l : Line) a => l.toNat + a * 2 ^ 512) 0
  (List.range (ceilDiv n 64)).map fun i => BitVec.ofNat 512 (v >>> (8 * o + 512 * i))

/-- Read `n` bytes for a command before its admission (R205): none where a line is poison, and where the range leaves its
extent. -/
def State.preRead (s : State) (c : Ask) (addr n : Nat) (env : ReadEnv) : Option (List Line) × State :=
  match s.rangeExtent addr n with
  | none => (none, s)
  | some (e, x) =>
    let r := (List.range (ceilDiv (addr % 64 + n) 64)).foldl (fun (acc : Option (List Line) × State) i =>
      let q := acc.2.readAny none none e c.a (s.viewsOf c.a) [] ((addr - x.base) / 64 + i) env
      (match q.1 with | .ok v => acc.1.map (· ++ [v]) | _ => none, q.2)) (some [], s)
    (r.1.map fun ls => linesFrom ls (addr % 64) n, r.2)

/-- The bytes that a packet's command reads before its admission, as an address and a length (R205, R266, R394). -/
def preRange (p : Packet) : Option (Nat × Nat) :=
  match pkOp p with
  | 0x10 => some (pk p 32 6, 8 * pk p 38 1)
  | 0x13 => some (pk p 32 6, 256)
  | 0xF7 => some (pk p 24 6, pk p 32 8)
  | _ => none

/-- Checks of FILL, COPY and COMPARE (R265). -/
def State.checkMem (s : State) (c : Ask) (_ : ReadEnv) : Verdict × State :=
  let j := jobOf c.p []
  let len := pk c.p (if pkOp c.p = 1 then 32 else 40) 8
  (s.checkJob c j [] (len % 64 != 0), s)

/-- Checks of RECIPE (R206, R268). -/
def State.checkRecipe (s : State) (c : Ask) (env : ReadEnv) : Verdict × State :=
  let b : Rng := ⟨pk c.p 32 6, 256, false⟩
  let slot := pk c.p 24 1
  let acc := if slot < 64 && !s.allowed slot c.a then 0x0C else s.operandFault c.a c.stamp b
  if acc != 0 then (refuse acc, s)
  else
    let r := s.preRead c b.addr 256 env
    match r.1 with
    | some block =>
      let image := if slot < 16 then [] else match sfind s.old.recipes slot with | some m => imageLines m | none => []
      (r.2.checkJob c (jobOf c.p block) (block ++ image) (b.addr % 64 != 0), r.2)
    | none =>
      let bad := s.leaves b || (s.recipe slot).isNone || pk c.p 28 4 == 0 || !pkZero c.p 25 3 || !pkZero c.p 40 24 ||
        !pkZero c.p 38 2 || decide (63 < slot)
      (refuse (if b.addr % 64 != 0 then 5 else if bad then 0x0B else 6), r.2)

/-! ### REDUCE, GATHER and SCATTER_ADD: checks (R266, R267) -/

/-- The source list of a REDUCE. -/
def listEntries (args : List Line) (n : Nat) : List Nat := (List.range n).map fun i => blk args (8 * i) 8

/-- Checks of REDUCE (R266). -/
def State.checkReduce (s : State) (c : Ask) (env : ReadEnv) : Verdict × State :=
  let p := c.p
  let op := pk p 30 1
  let st := pk p 31 1 % 16
  let dt := pk p 31 1 / 16
  let n := pk p 38 1
  let count := pk p 40 4
  let lst : Rng := ⟨pk p 32 6, 8 * n, false⟩
  let dst : Rng := ⟨pk p 24 6, count * typeBytes dt, true⟩
  let f := s.operandsFault c.a c.stamp [dst, lst]
  let bad := n == 0 || decide (64 < n) || (n == 1 && !bitOf p 246) || op % 4 == 3 || op / 4 % 16 != 0 ||
    decide (4 < st) || decide (4 < dt) || !pkZero p 39 1 || !pkZero p 44 20 || count == 0 ||
    s.leaves lst || s.leaves dst || s.fxrNot16 dst.addr dt
  if f != 0 then (refuse f, s)
  else
    let odd := lst.addr % 64 != 0 || dst.addr % 64 != 0 || count * typeBytes st % 64 != 0 || dst.len % 64 != 0
    let (ls, s) := s.preRead c lst.addr (8 * n) env
    match ls with
    | none => (firstFail [(odd, 5), (bad, 0x0B)] (refuse 6), s)
    | some args =>
      let es := listEntries args n
      let src := es.map fun a => (⟨a % 2 ^ 48, count * typeBytes st, false⟩ : Rng)
      let f := s.operandsFault c.a c.stamp src
      let accum := bitOf p 246
      let rs := src ++ [dst] ++ if accum then [{ dst with write := false }] else []
      (firstFail [(f != 0, f),
        (odd || (es.any fun a => a % 64 != 0), 5),
        (bad || (es.any fun a => decide (2 ^ 48 ≤ a)) || src.any s.leaves ||
          (src.any fun r => s.fxrNot16 r.addr st || r.overlaps dst), 0x0B),
        (s.writeLocked c.stamp dst, 3)]
        (.ok (s.wantSprig c (rs.map fun r => (r, r.len)) (n + if accum then 1 else 0)
          (gMax (typeBytes dt) dst.addr dst.len) (sheaves count dst.addr (typeBytes dt)) args)), s)

/-- Operands of GATHER and SCATTER_ADD. -/
structure Rows where
  table : Nat
  bag : Nat
  index : Nat
  op : Nat
  sat : Bool
  tt : Nat
  rt : Nat
  rows : Nat
  n : Nat
  r : Nat
  stride : Nat
  d : Nat
  scatter : Bool
  deriving DecidableEq, Repr

/-- They stand in the packet (R267). -/
def rowsOf (p : Packet) : Rows :=
  let sc := pkOp p == 0x11
  ⟨pk p 24 6, if sc then 1 else pk p 30 2, pk p 32 6, pk p 38 1 % 4, bitOf p 311, pk p 39 1 % 16, pk p 39 1 / 16,
    pk p 40 6, pk p 48 4, pk p 52 4, pk p 56 4, pk p 60 4, sc⟩

/-- Bytes of an output or source row. -/
def Rows.rowLen (o : Rows) : Nat := o.d * typeBytes o.rt
/-- Rows written by GATHER, or read by SCATTER_ADD. -/
def Rows.count (o : Rows) : Nat := if o.bag = 0 then 0 else o.n / o.bag
/-- Lines of an output or source row, and of a table row. -/
def Rows.rowLines (o : Rows) : Nat := o.rowLen / 64
@[inherit_doc Rows.rowLines] def Rows.tableLines (o : Rows) : Nat := o.d * typeBytes o.tt / 64
/-- The units of a SCATTER_ADD: line `j` of source row `i`, then from `base` on line `j` of table row `k` (R212). -/
def Rows.source (o : Rows) (i j : Nat) : Nat := i * (o.rowLines + 1) + j
@[inherit_doc Rows.source] def Rows.base (o : Rows) : Nat := o.n * (o.rowLines + 1)
@[inherit_doc Rows.source] def Rows.target (o : Rows) (k j : Nat) : Nat := o.base + k * o.tableLines + j
/-- Plots whose cores own spans of a range (R201). -/
def plotsOf (addr len : Nat) : List Nat :=
  (((List.range (spans addr len)).take 4096).map fun i => sliver (addr + i * pageBytes) % 32).eraseDups

/-- Checks of GATHER and SCATTER_ADD (R267). -/
def State.checkRows (s : State) (c : Ask) (_ : ReadEnv) : Verdict × State :=
  let p := c.p
  let o := rowsOf p
  let tab : Rng := ⟨o.table, o.r * o.stride, o.scatter⟩
  let idx : Rng := ⟨o.index, 4 * o.n, false⟩
  let row : Rng := ⟨o.rows, o.count * o.rowLen, !o.scatter⟩
  let l := [tab, idx, row]
  let f := s.operandsFault c.a c.stamp l
  let tb := o.d * typeBytes o.tt
  let bad := decide (4 < o.tt) || decide (4 < o.rt) || pk p 38 1 / 4 % 32 != 0 || !pkZero p 46 2 ||
    o.n == 0 || o.d == 0 || decide (65536 < o.d) || decide (o.stride < tb) ||
    (if o.scatter then !pkZero p 30 2 || o.op != 0
      else o.op == 3 || o.bag == 0 || decide (1024 < o.bag) || o.n % Nat.max 1 o.bag != 0 || (o.op == 0 && o.bag != 1)) ||
    l.any s.leaves || s.fxrNot16 tab.addr o.tt || s.fxrNot16 row.addr o.rt || s.fxrNot16 idx.addr 4 ||
    (if o.scatter then tab.overlaps idx || tab.overlaps row else row.overlaps tab || row.overlaps idx)
  let least (v : Nat) := Nat.max 512 v
  let g := gMax (typeBytes o.rt) row.addr row.len
  let g := if o.scatter then Nat.max g (gMax (typeBytes o.tt) tab.addr tab.len) else g
  let cost := if o.scatter then 2 else o.bag + if o.op = 2 then 4 else 0
  let units := if o.scatter then (List.range o.n).flatMap fun i =>
      (List.range o.rowLines).map fun j => (o.source i j, o.rows + i * o.rowLen + 64 * j)
    else (List.range o.count).map fun i => (i, o.rows + i * o.rowLen)
  let tableAt := if o.scatter then plotsOf tab.addr tab.len else []
  (firstFail [(f != 0, f),
    (o.table % 64 != 0 || o.index % 64 != 0 || o.rows % 64 != 0 || o.stride % 64 != 0 || 4 * o.n % 64 != 0 ||
      tb % 64 != 0 || o.rowLen % 64 != 0, 5),
    (bad, 0x0B), (l.any (s.writeLocked c.stamp), 3)]
    (let w := s.wantSprig c [(tab, (if o.scatter then 2 else 1) * o.n * least tb), (idx, idx.len),
        (row, o.count * least o.rowLen)] cost g units []
     .ok { w with stations := (w.stations ++ tableAt).eraseDups }), s)

/-! ### Units of work -/

/-- All of a list, or nothing when one is missing. -/
def allSome {α : Type} : List (Option α) → Option (List α)
  | [] => some []
  | none :: _ => none
  | some x :: l => (allSome l).map (x :: ·)

/-- Read `n` elements of a type from a line-aligned address: stored codes, none where poison; poison and
damage met. -/
def State.readRun (s : State) (c : Cmd) (addr ty n : Nat) (env : ReadEnv) :
    List (Option Nat) × Bool × Bool × State :=
  let sz := typeBytes ty
  let per := 64 / sz
  (List.range (ceilDiv n per)).foldl (fun (acc : List (Option Nat) × Bool × Bool × State) i =>
    let r := acc.2.2.2.cmdRead c (addr + 64 * i) env
    let k := Nat.min per (n - per * i)
    let vs : List (Option Nat) := match r.1 with
      | .ok v => (List.range k).map fun j => some (bytesN v (sz * j) sz)
      | _ => List.replicate k none
    (acc.1 ++ vs, acc.2.1 || !r.1.isOk, acc.2.2.1 || r.1 == .damaged, r.2)) ([], false, false, s)

/-- Write elements as whole lines: a line with a poisoned element is written as poison (R215). -/
def State.writeRun (s : State) (c : Cmd) (addr ty : Nat) (vs : List (Option Nat)) (env : ReadEnv) : State :=
  let sz := typeBytes ty
  let per := 64 / sz
  (List.range (ceilDiv vs.length per)).foldl (fun s i =>
    let w : Put := match allSome ((vs.drop (per * i)).take per) with
      | some l => .data (BitVec.ofNat 512 (l.foldr (fun v a => v + a * 256 ^ sz) 0))
      | none => .poison 5
    s.cmdWrite c (addr + 64 * i) w env) s

/-- Poison met and written by a unit. -/
def State.noteMet (s : State) (id : Nat) (met damaged wrote : Bool) : State :=
  s.modCmd id fun c => { c with
    poison := c.poison || met || wrote, damaged := c.damaged || damaged
    cnt := setNth c.cnt 1 (Nat.max (nth c.cnt 1) (if met then 1 else 0)) }

/-- The order in which partials arrive in free mode is open: a permutation that free values pick. -/
def pickOrder : Nat → Nat → List Nat → List Nat
  | 0, _, l => l
  | n + 1, k, l =>
    match l[k % Nat.max 1 l.length]? with
    | some v => v :: pickOrder n (k / Nat.max 1 l.length) (l.eraseIdx (k % l.length))
    | none => l

/-- Positions in the order in which they combine. -/
def State.arrival (s : State) (ordered : Bool) (n : Nat) : List Nat × State :=
  if ordered ∨ n < 3 then (List.range n, s)
  else
    let (k, s) := (List.range (ceilDiv n 32)).foldl (fun (acc : Nat × State) _ =>
      let (f, s) := acc.2.fresh
      (acc.1 * 2 ^ 512 + f.toNat, s)) (0, s)
    (pickOrder n k (List.range n), s)

/-- Combine partials: the tree when ordered, one after another otherwise (R211). -/
def combine (ordered : Bool) (f : Nat → Nat → Nat) (order l : List Nat) : Nat :=
  if ordered then treeJoin f l.length l
  else match order.map (nth l) with
    | [] => 0
    | x :: r => r.foldl f x

/-- Read one run of `n` elements at each address. -/
def State.readRuns (s : State) (c : Cmd) (addrs : List Nat) (ty n : Nat) (env : ReadEnv) :
    List (List (Option Nat)) × Bool × Bool × State :=
  addrs.foldl (fun (acc : List (List (Option Nat)) × Bool × Bool × State) a =>
    let r := acc.2.2.2.readRun c a ty n env
    (acc.1 ++ [r.1], acc.2.1 || r.2.1, acc.2.2.1 || r.2.2.1, r.2.2.2)) ([], false, false, s)

/-- Elements of one input of a sheaf, each with its type; none for an input that the recipe does not use. -/
def sheafInput (c : Cmd) (h n : Nat) (env : ReadEnv) (acc : List (List InElem) × Bool × Bool × State)
    (v : Option Stream) : List (List InElem) × Bool × Bool × State :=
  match v with
  | none => (acc.1 ++ [[]], acc.2)
  | some v =>
    let r := acc.2.2.2.readRun c (v.addr + 64 * h * typeBytes v.ty) v.ty n env
    (acc.1 ++ [r.1.map fun x => x.map fun k => (k, v.ty)], acc.2.1 || r.2.1, acc.2.2.1 || r.2.2.1, r.2.2.2)

/-- A sheaf's values of one output vector are written, for an output that the recipe uses. -/
def State.sheafOutput (s : State) (c : Cmd) (h : Nat) (outs : List (Sparse (Option (Bool × Nat)))) (v : Option Stream)
    (k : Nat) (env : ReadEnv) : State :=
  match v with
  | none => s
  | some v =>
    s.writeRun c (v.addr + 64 * h * typeBytes v.ty) v.ty
      (outs.map fun o => (sget none o k).map (outCode v.ty v.sat)) env

/-- A command with the accumulators of one sheaf: kept by sheaf in ordered mode, combined at once otherwise (R211). -/
def Cmd.addPart (c : Cmd) (r : Recipe) (h : Nat) (part bad : List Nat) : Cmd :=
  if c.ordered then { c with partials := sins c.partials h (part.map (BitVec.ofNat 32)), accPoison := bad }
  else
    { c with accPoison := bad
             accs := (List.range 3).map fun i => BitVec.ofNat 32
               (accJoin (r.accOp i) (match c.accs[i]? with | some v => v.toNat | none => accStart (r.accOp i)) (nth part i)) }

/-- The recipe that a command runs: a loaded one as it stood at its stamp (R204, R472). -/
def Cmd.recipe (c : Cmd) : Option Recipe :=
  let slot := (jobOf c.pkt c.args).slot
  if slot < 16 then builtinRecipe slot
  else if c.args.length = 13 then some (recipeOf (lineWords (c.args.drop 4))) else none

/-- One sheaf of a recipe job (R207, R208, R211, R215). -/
def State.doSheaf (s : State) (c : Cmd) (h : Nat) (env : ReadEnv) : State :=
  let j := jobOf c.pkt c.args
  match c.recipe with
  | none => s
  | some r =>
    let n := Nat.min 64 (j.count - 64 * h)
    let (ins, po, da, s) := j.ins.foldl (sheafInput c h n env) ([], false, false, s)
    let start := (List.range 3).map fun i => accStart (r.accOp i)
    let (outs, lanes, bad) := (List.range n).foldl
      (fun (acc : List (Sparse (Option (Bool × Nat))) × List (List Nat) × List Nat) i =>
        let (os, lanes, bad) := acc
        let ln := r.run (ins.map fun l => l.getD i none) j.ks (64 * h + i) (lanes.getD (i % 4) []) bad
        (os ++ [ln.outs], setNth lanes (i % 4) ln.accs, ln.bad)) ([], List.replicate 4 start, c.accPoison)
    let s := j.outs.zipIdx.foldl (fun s o => s.sheafOutput c h outs o.1 o.2 env) s
    let part := (List.range 3).map fun i =>
      let p (k : Nat) := nth (lanes.getD k []) i
      let f := accJoin (r.accOp i)
      f (f (p 0) (p 1)) (f (p 2) (p 3))
    (s.modCmd c.id fun c => c.addPart r h part bad).noteMet c.id po da po

/-- Accumulator `i` of a finished recipe command (R211, R215). -/
def Cmd.acc (c : Cmd) (r : Recipe) (i : Nat) : Nat :=
  let op := r.accOp i
  if op = 0 then 0
  else if c.accPoison.contains i then (if op = 0x28 ∨ op = 0x29 then 0xFFFFFFFF else qnan)
  else if c.ordered then
    treeJoin (accJoin op) c.partials.length (c.partials.map fun (_, l) => (l.getD i 0).toNat)
  else match c.accs[i]? with | some v => v.toNat | none => accStart op

/-- One sheaf of a REDUCE (R212). -/
def State.doReduce (s : State) (c : Cmd) (h : Nat) (env : ReadEnv) : State :=
  let p := c.pkt
  let st := pk p 31 1 % 16
  let dt := pk p 31 1 / 16
  let n := Nat.min 64 (pk p 40 4 - 64 * h)
  let op := 0x23 + (if pk p 30 1 % 4 = 0 then 0 else pk p 30 1 % 4 + 1)
  let f := accJoin op
  let es := listEntries c.args (pk p 38 1)
  let (src, po, da, s) := s.readRuns c (es.map (· + 64 * h * typeBytes st)) st n env
  let dst := pk p 24 6 + 64 * h * typeBytes dt
  let (old, po1, da1, s) := if bitOf p 246 then s.readRun c dst dt n env else ([], false, false, s)
  let (order, s) := s.arrival (c.ordered || op != 0x23) es.length
  let vs := (List.range n).map fun i =>
    match allSome (src.map fun l => l.getD i none) with
    | none => none
    | some xs =>
      let v := combine c.ordered f order (xs.map (toF32 st))
      if bitOf p 246 then (old.getD i none).map fun o => storeAs dt (bitOf p 247) (fp32.unpack (addF v (toF32 dt o)))
      else some (storeAs dt (bitOf p 247) (fp32.unpack v))
  (s.writeRun c dst dt vs env).noteMet c.id (po || po1) (da || da1) (po || po1)

/-- Indices `i` to `i + n - 1` of a stream: none in a poisoned line. -/
def State.readIndices (s : State) (c : Cmd) (base i n : Nat) (env : ReadEnv) :
    List (Option Nat) × Bool × Bool × State :=
  let a := base + 4 * i
  let (l, po, da, s) := s.readRun c (a / 64 * 64) 4 (a % 64 / 4 + n) env
  (l.drop (a % 64 / 4), po, da, s)

/-- Count out-of-range indices (R213). -/
def State.noteRange (s : State) (id n : Nat) : State :=
  s.modCmd id fun c => { c with cnt := setNth c.cnt 0 (Nat.min (nth c.cnt 0 + n) 0xFFFFFFFF) }

/-- One output row of a GATHER (R212, R213). -/
def State.doGather (s : State) (c : Cmd) (i : Nat) (env : ReadEnv) : State :=
  let o := rowsOf c.pkt
  let (ix, po, da, s) := s.readIndices c o.index (i * o.bag) o.bag env
  let out := o.rows + i * o.rowLen
  let oor := (ix.filter fun v => match v with | some k => decide (o.r ≤ k) | none => false).length
  let s := s.noteRange c.id oor
  match allSome ix with
  | none => (s.writeRun c out o.rt (List.replicate o.d none) env).noteMet c.id true da true
  | some ks =>
    if oor != 0 then (s.writeRun c out o.rt (List.replicate o.d none) env).noteMet c.id po da true
    else
      let (rows, po', da', s) := s.readRuns c (ks.map fun k => o.table + k * o.stride) o.tt o.d env
      let (order, s) := s.arrival c.ordered o.bag
      let vs := (List.range o.d).map fun j =>
        match allSome (rows.map fun l => l.getD j none) with
        | none => none
        | some xs =>
          if o.op = 0 ∧ o.tt = o.rt then some (nth xs 0)
          else
            let v := combine c.ordered addF order (xs.map (toF32 o.tt))
            let v := fp32.unpack v
            some (storeAs o.rt o.sat (if o.op = 2 then fp32.unpack (fp32.pack (v.div (.fin false o.bag 0))) else v))
      (s.writeRun c out o.rt vs env).noteMet c.id (po || po') (da || da') (po || po')

/-- A line of a source row of a SCATTER_ADD is read by its core, the row's index with it; an index out of range or in a
poisoned line skips the row (R212, R213). -/
def State.scatterSource (s : State) (c : Cmd) (u : Nat) (env : ReadEnv) : State :=
  let o := rowsOf c.pkt
  let i := u / (o.rowLines + 1)
  let j := u % (o.rowLines + 1)
  let (ix, po, da, s) := s.readIndices c o.index i 1 env
  let s := if j = 0 then s.noteMet c.id po da false else s
  match ix.headD none with
  | none => s
  | some k =>
    if o.r ≤ k then (if j = 0 then s.noteRange c.id 1 else s)
    else
      let (vs, po, da, s) := s.readRun c (o.rows + i * o.rowLen + 64 * j) o.rt (64 / typeBytes o.rt) env
      (s.noteMet c.id po da false).modCmd c.id fun c => { c with
        partials := sins (sins c.partials u (vs.map fun v => BitVec.ofNat 32 (v.getD 0)))
          (o.source i o.rowLines) [BitVec.ofNat 32 k]
        accPoison := if po then u :: c.accPoison else c.accPoison }

/-- Contributions of a SCATTER_ADD: target row and source row. -/
def Cmd.scatterHits (c : Cmd) : List (Nat × Nat) :=
  let o := rowsOf c.pkt
  c.partials.filterMap fun (u, l) =>
    if u % (o.rowLines + 1) = o.rowLines then l.head?.map fun k => (k.toNat, u / (o.rowLines + 1)) else none

/-- With the last source line read, the lines of the table rows that receive contributions come (R212). -/
def Cmd.scatterNext (c : Cmd) : Cmd :=
  let o := rowsOf c.pkt
  if c.left.isEmpty then
    { c with left := (sortBy (fun (a b : Nat) => decide (a < b)) (c.scatterHits.map (·.1)).eraseDups).flatMap fun k =>
        (List.range o.tableLines).map (o.target k) }
  else c

/-- Element `e` of source row `i` as its core read it; none where its line is poison. -/
def Cmd.contribution (c : Cmd) (o : Rows) (i e : Nat) : Option Nat :=
  let per := 64 / typeBytes o.rt
  let u := o.source i (e / per)
  if c.accPoison.contains u then none else ((sget [] c.partials u)[e % per]?).map BitVec.toNat

/-- A line of a table row of a SCATTER_ADD takes its contributions (R212, R213). -/
def State.scatterTarget (s : State) (c : Cmd) (u : Nat) (env : ReadEnv) : State :=
  let o := rowsOf c.pkt
  let k := (u - o.base) / o.tableLines
  let j := (u - o.base) % o.tableLines
  let per := 64 / typeBytes o.tt
  let at' := o.table + k * o.stride + 64 * j
  let src := (c.scatterHits.filter fun h => h.1 == k).map (·.2)
  let (old, po, da, s) := s.readRun c at' o.tt per env
  let (order, s) := s.arrival c.ordered src.length
  let vs := (List.range per).map fun e =>
    match allSome (src.map fun i => c.contribution o i (per * j + e)), old.getD e none with
    | some xs, some w =>
      some (storeAs o.tt o.sat (fp32.unpack (addF (toF32 o.tt w) (combine c.ordered addF order (xs.map (toF32 o.rt))))))
    | _, _ => none
  (s.writeRun c at' o.tt vs env).noteMet c.id po da po

/-- An opcode run by the sprig cores. -/
def isSprig (op : Nat) : Bool := op == 1 || op == 2 || op == 3 || (decide (0x10 ≤ op) && decide (op ≤ 0x13))

/-- Address that decides which core does a unit (R208, R212). -/
def Cmd.unitAddr (c : Cmd) (u : Nat) : Nat :=
  let p := c.pkt
  match pkOp p with
  | 0x10 => pk p 24 6 + 64 * u * typeBytes (pk p 31 1 / 16)
  | 0x11 =>
    let o := rowsOf p
    if u < o.base then o.rows + u / (o.rowLines + 1) * o.rowLen + 64 * (u % (o.rowLines + 1))
    else o.table + (u - o.base) / o.tableLines * o.stride + 64 * ((u - o.base) % o.tableLines)
  | 0x12 => (rowsOf p).rows + u * (rowsOf p).rowLen
  | _ => match (jobOf p c.args).anchor with
    | some v => v.addr + 64 * u * typeBytes v.ty
    | none => 256 * u

/-- Do one unit of a sprig command. -/
def State.doSprig (s : State) (id u : Nat) (env : ReadEnv) : State :=
  match s.cmd id with
  | none => s
  | some c =>
    let s := s.modCmd id fun c => { c with left := c.left.filter (· != u) }
    match pkOp c.pkt with
    | 0x10 => s.doReduce c u env
    | 0x11 => if u < (rowsOf c.pkt).base then (s.scatterSource c u env).modCmd id Cmd.scatterNext else s.scatterTarget c u env
    | 0x12 => s.doGather c u env
    | _ => s.doSheaf c u env

/-- A finished sprig command's status and result (R211, R213, R215, R265). -/
def State.endSprig (s : State) (c : Cmd) : State :=
  let met := c.damaged || nth c.cnt 1 != 0
  let st := poisonStatus met c.damaged
  match pkOp c.pkt with
  | 0x10 => s.finishCmd c.id st c.poison 0
  | 0x11 | 0x12 => s.finishCmd c.id (if st = 0 ∧ nth c.cnt 0 != 0 then 0x0B else st) c.poison
      (result [(20, 4, nth c.cnt 0)])
  | _ =>
    match c.recipe with
    | some r => s.finishCmd c.id st c.poison (result [(20, 4, c.acc r 0), (24, 4, c.acc r 1), (28, 4, c.acc r 2)])
    | none => s.finishCmd c.id st c.poison 0

/-! ### Core faults (R202, R216) -/

/-- Retire a physical core: a spare takes its position, or the plan shrinks. -/
def State.retireCore (s : State) (core : Nat) : State :=
  if s.spr.retired.contains core then s
  else
    let served (s : State) : Nat := (s.holders (core / 132)).countP (·.isSome)
    let before := served s
    let s := { s with spr := { s.spr with retired := s.spr.retired ++ [core], retiredNew := true
                                          restarting := s.spr.restarting.filter (· != core) } }
    if served s = before then s.fault0 3 0x30 core else (s.fault0 3 0x31 core).retirePlan

/-- An error of a core before its batch's writes: the batch restarts, or the core retires. -/
def State.coreError (s : State) (core : Nat) : State :=
  let iv := s.now / 1000000
  let n := if s.spr.restarts.1 = iv then s.spr.restarts.2 else 0
  let past := decide (256 ≤ n)
  let again := s.spr.restarting.contains core
  let first := sfind s.spr.firstErr core
  let second := match first with | some f => decide (s.now < f + 1000000000) | none => false
  let s := { s with spr := { s.spr with
    errors := sput 0 s.spr.errors core (satAdd 16 (sget 0 s.spr.errors core) 1)
    retries := satAdd 32 s.spr.retries 1, restarts := (iv, n + 1)
    retryLimit := s.spr.retryLimit || past
    firstErr := sins s.spr.firstErr core s.now
    restarting := core :: s.spr.restarting.filter (· != core) } }
  if past || again || second then s.retireCore core else s

/-- Units of a sprig command that a core has still to do. -/
def State.unitsOf (s : State) (c : Cmd) (core : Nat) : List Nat :=
  if c.phase == .running && isSprig (pkOp c.pkt) then c.left.filter fun u => s.coreOf (c.unitAddr u) == some core else []

/-- The core has a batch of some command under way. -/
def State.coreBusy (s : State) (core : Nat) : Bool := s.cmds.any fun c => !(s.unitsOf c core).isEmpty

/-- A batch of the command may run at a station: no earlier work on its lines is open, and no earlier promise of its share
has work there (R20, R44, R209). -/
def State.mayRun (s : State) (c : Cmd) (station : Nat) : Bool := !(s.cmdBlocked c) && s.promiseFirst c station

/-- A batch of up to four units (R208). -/
def State.runBatch (s : State) (c : Cmd) (core : Nat) (env : ReadEnv) : State :=
  let r := s.withTiles c.id c.promise fun s => ((s.unitsOf c core).take 4).foldl (fun s u => s.doSprig c.id u env) s
  if r.1 then { r.2 with spr := { r.2.spr with restarting := r.2.spr.restarting.filter (· != core) } } else r.2

/-- SPRIG_BATCH_ACK: a core acknowledges a batch of up to four sheaves and its writes are issued, or an error
restarts it (R208, R216). -/
def execSprigBatchAck (t core cmd : Nat) (error : Bool) (env : ReadEnv) (s : State) :
    Host.Outcome State Fault Refusal :=
  let s := s.startEnv t env
  match s.cmd cmd with
  | none => .next s
  | some c =>
    if (s.unitsOf c core).isEmpty ∨ !(s.mayRun c (core / 132)) then .next s
    else if error then .next (s.coreError core)
    else
      let w := s.proxyWait c env
      .next (if w.1 then w.2 else w.2.runBatch c core env)

/-- SPRIG_CORE_TIMEOUT: a core that acknowledges no batch within 100,000 CC has faulted (R216). -/
def execSprigCoreTimeout (t core : Nat) (s : State) : Host.Outcome State Fault Refusal :=
  let s := s.start t
  .next (if s.coreBusy core then s.coreError core else s)

end Sys2Proof.Machine
end

