-- ==== Sys2Proof/Machine/Matrix.lean ====
section
/-! DEFINITION. The matrix engines: MATMUL and SYNTH, their checks and demands, the jobs of the engines and
their faults (R181 to R183, R186 to R199, R269, R270). -/

namespace Sys2Proof.Machine

open Sys2Proof

/-- The station of the matrix engines among a command's stations; 0–31 are the plots (R217). -/
def stMatrix : Nat := 32

/-! ### Operands named by extent number (R67, R262, R478) -/

/-- Why a command may not name an extent: ST_BAD_PARAM for a number not in use, ST_ACCESS without rights,
ST_REVOKED from its revoke count on. -/
def State.numberFault (s : State) (a : Nat) (stamp : Count) (e : Nat) : Nat :=
  match s.extent e with
  | none => 0x0B
  | some x =>
    if x.rights a = 0 then 0x0C
    else match x.revokedAt a with
      | some r => if r ≤ stamp then 4 else 0
      | none => 0

/-- As `numberFault`, for a command that only the owner may give. -/
def State.ownerFault (s : State) (a : Nat) (stamp : Count) (e : Nat) : Nat :=
  match s.extent e with
  | none => 0x0B
  | some x => if x.owner != a then 0x0C else s.numberFault a stamp e

/-! ### MATMUL (R195, R196, R198, R269) -/

/-- Operands of a MATMUL. -/
structure Mat where
  a : Nat
  b : Nat
  c : Nat
  m : Nat
  n : Nat
  k : Nat
  sa : Nat
  sb : Nat
  sc : Nat
  ta : Nat
  tb : Nat
  tc : Nat
  deriving DecidableEq, Repr

/-- They stand in the packet. -/
def matOf (p : Packet) : Mat :=
  ⟨pk p 24 6, pk p 30 6, pk p 36 6, pk p 42 2 + 1, pk p 44 2 + 1, pk p 46 2 + 1, 64 * pk p 48 2, 64 * pk p 50 2,
    64 * pk p 52 2, pk p 54 1, pk p 55 1, pk p 56 1⟩

/-- Bytes of an element of C. -/
def Mat.ec (o : Mat) : Nat := if o.tc = 0 then 4 else 2
/-- Ranges of A, B and C. -/
def Mat.ra (o : Mat) : Rng := ⟨o.a, (o.m - 1) * o.sa + o.k * elemBytes o.ta, false⟩
@[inherit_doc Mat.ra] def Mat.rb (o : Mat) : Rng := ⟨o.b, (o.k - 1) * o.sb + o.n * elemBytes o.tb, false⟩
@[inherit_doc Mat.ra] def Mat.rc (o : Mat) : Rng := ⟨o.c, (o.m - 1) * o.sc + o.n * o.ec, true⟩
/-- Tile columns and tiles. -/
def Mat.cols (o : Mat) : Nat := ceilDiv o.n 256
@[inherit_doc Mat.cols] def Mat.tiles (o : Mat) : Nat := ceilDiv o.m 128 * o.cols

/-- Expander cost of the operand at an address. -/
def State.expanderAt (s : State) (addr : Nat) : Nat :=
  match s.extentAt addr with | some (_, x) => x.expander | none => 4

/-- Demand of one tile of `m` by `n` (R194, R198): engine steps, GDDR7 bytes. -/
def State.matTile (s : State) (o : Mat) (m n : Nat) : Nat × Nat :=
  let e := elemBytes o.ta
  let c := m * n * o.ec
  (tileSteps m n o.k e (s.expanderAt o.a) (s.expanderAt o.b) (s.expanderAt o.c) (ceilDiv c 1024),
    m * o.k * e + n * o.k * e + 2 * c)

/-- Demand of every tile: whole ones and those of the last row and column. -/
def State.matDemand (s : State) (o : Mat) : List (Nat × Nat) :=
  let rows := [(o.m / 128, 128), (if o.m % 128 = 0 then 0 else 1, o.m % 128)]
  let cols := [(o.n / 256, 256), (if o.n % 256 = 0 then 0 else 1, o.n % 256)]
  rows.flatMap fun (i, m) => cols.flatMap fun (j, n) =>
    let (st, by_) := s.matTile o m n
    [(3, 1024 * (i * j * st)), (0, 16 * (i * j * by_))]

/-- Checks of MATMUL (R196). -/
def State.checkMatmul (s : State) (c : Ask) (_ : ReadEnv) : Verdict × State :=
  let o := matOf c.p
  let l := [o.ra, o.rb, o.rc]
  let f := s.operandsFault c.a c.stamp l
  let bad := decide (3 < o.ta) || decide (3 < o.tb) || decide (1 < o.tc) || elemBytes o.ta != elemBytes o.tb ||
    decide (o.sa < o.k * elemBytes o.ta) || decide (o.sb < o.n * elemBytes o.tb) || decide (o.sc < o.n * o.ec) ||
    !pkZero c.p 57 7 || l.any s.leaves || o.rc.overlaps o.ra || o.rc.overlaps o.rb
  let other := l.flatMap fun r => (s.rangeDemand r r.len).drop 1
  (firstFail [(f != 0, f),
    (o.a % 64 != 0 || o.b % 64 != 0 || o.c % 64 != 0 || o.k * elemBytes o.ta % 64 != 0 ||
      o.n * elemBytes o.tb % 64 != 0 || o.n * o.ec % 64 != 0, 5),
    (bad, 0x0B), (s.writeLocked c.stamp o.rc, 3)]
    (.ok { s.wantRanges c (l ++ [{ o.rc with write := false }]) (s.matDemand o ++ other) 2000 with
      left := List.range o.tiles, stations := [stMatrix] }), s)

/-- Value of a stored element of C. -/
def cValue (tc v : Nat) : FV := if tc = 0 then fp32.unpack v else bf16.unpack v

/-- Raise entry `i` of a command's counts. -/
def State.count (s : State) (id i : Nat) : State :=
  s.modCmd id fun c => { c with cnt := setNth c.cnt i (nth c.cnt i + 1) }

/-- A job or tile that an engine has done is counted for it (R200). -/
def State.countJob (s : State) (eng : Nat) : State :=
  { s with mxe := { s.mxe with jobsDone := sput 0 s.mxe.jobsDone eng ((sget 0 s.mxe.jobsDone eng + 1) % 2 ^ 32) } }

/-- One output tile of a MATMUL on an engine; without one its lines are poison (R184, R185, R195, R196; assumption 92). -/
def State.doTile (s : State) (c : Cmd) (t : Nat) (eng : Option Nat) (env : ReadEnv) : State :=
  let o := matOf c.pkt
  let r := 128 * (t / o.cols)
  let q := 256 * (t % o.cols)
  let m := Nat.min 128 (o.m - r)
  let n := Nat.min 256 (o.n - q)
  let ea := elemBytes o.ta
  let rd (s : State) (l : Nat) : Read × State := s.cmdReadOn c eng (64 * l) env
  let a := s.readPanel rd (o.a + r * o.sa) o.sa ea m o.k (elemValue o.ta)
  let b := a.2.readPanel rd (o.b + q * ea) o.sb ea o.k n (elemValue o.tb)
  let old := b.2.readPanel rd (o.c + r * o.sc + q * o.ec) o.sc o.ec m n (cValue o.tc)
  let out : List (List (Lossy Nat)) := if eng.isNone then List.replicate m (List.replicate n (.inl false))
    else tileOut o.k a.1 b.1 n (some old.1) (o.tc == 1)
  let s := if eng.isNone then s else old.2
  let s := out.zipIdx.foldl (fun s (l, i) =>
    s.writeRun c (o.c + (r + i) * o.sc + q * o.ec) (if o.tc = 0 then 4 else 0) (l.map fun v => v.getRight?) env) s
  let s := (match eng with | some g => s.countJob g | none => s).count c.id 0
  if out.any fun l => l.any (·.isLeft) then ((s.count c.id 1).modCmd c.id fun c => { c with
    poison := true, damaged := c.damaged || out.any fun l => l.any lossyDamage }) else s

/-! ### SYNTH (R197, R198, R270) -/

/-- Checks of SYNTH. -/
def State.checkSynth (s : State) (c : Ask) (_ : ReadEnv) : Verdict × State :=
  let p := c.p
  let e := pk p 24 2
  let first := pk p 28 4
  let n := pk p 32 4
  (match s.extent e with
    | none => refuse 0x0B
    | some x =>
      let f := s.ownerFault c.a c.stamp e
      let tag := if x.composite then s.tagFor (s.viewsOf c.a) x.desc else some (0, 0, 0)
      firstFail [(f != 0, f), (tag.isNone, 0x0C),
        (!x.composite || n == 0 || !pkZero p 26 2 || !pkZero p 36 28 || decide (tileCount x.desc < first + n), 0x0B)]
        (.ok { dem := demand ((s.tileDemand x.desc).map fun (i, d) => (i, n * d)),
               tOp := 2000 + s.flashTerm [⟨x.base, 1, false⟩], exts := [e]
               left := (List.range n).map (· + first), stations := [stMatrix] }), s)

/-- The tag at which a command synthesises the tiles of a composite: the versions that it holds. -/
def State.cmdTag (s : State) (c : Cmd) (x : Extent) : Option (Nat × Nat × Nat) :=
  s.tagFor (c.vers ++ s.viewsOf c.allot) x.desc

/-- A tile of a command that cannot be synthesised, or that held poison (R197). -/
def State.poisonTile (s : State) (id p : Nat) (damaged : Bool) : State :=
  (s.count id 2).modCmd id fun c => { c with
    poison := true, damaged := c.damaged || damaged, left := c.left.filter (· != p) }

/-- A tile of a command is there: nothing is left to do for it; entry `i` of its counts rises. -/
def State.tileDone (s : State) (id p i : Nat) : State :=
  (s.count id i).modCmd id fun c => { c with left := c.left.filter (· != p) }

/-- Jobs start on the COMMAND engines for the tiles that no entry and no job serves; a job that there is is joined
(R182, R191, R197). `level` and `pin` are what their entries take. -/
def State.startTiles (s : State) (c : Cmd) (e level : Nat) (pin : Bool) : State :=
  match s.extent e with
  | none => s
  | some x =>
    match s.cmdTag c x with
    | none => s
    | some tag => c.left.foldl (fun s p =>
        if (s.tileEntry e x p tag).isSome then s.tileDone c.id p 1
        else match s.tileJob e x p tag with
          | some j => { s with mxe := { s.mxe with jobs := s.mxe.jobs.map fun i =>
              if i.id = j.id then { i with joined := i.joined ++ [c.id], pin := i.pin || pin } else i } }
          | none =>
            if s.activeEngines = 0 then s.poisonTile c.id p false
            else (s.newJob (cmdJob e p tag level pin (some c.id) [] c.promise)).2) s

/-- A read that waited for a finished tile is answered from it (R182, R183). -/
def State.giveTile (s : State) (t : List (Lossy Line)) (base : Nat) (r : HostReq) (env : ReadEnv) : State :=
  s.finishRead r (lossyRead (t.getD ((r.laddr - base) / 64 % 1024) (.inl false))) env

/-- What a finished job means for a command that asked for its tile: `own` the job is the command's own, `kept` its entry
stands (R197, R272). -/
def State.tileFor (s : State) (id p : Nat) (t : List (Lossy Line)) (own kept : Bool) : State :=
  let synth := (s.cmd id).any fun c => pkOp c.pkt == 0x15
  match lossyAll t with
  | .inl d => if own && synth then (s.count id 0).poisonTile id p d else s.poisonTile id p d
  | .inr _ => s.tileDone id p (if synth then (if own || !kept then 0 else 1) else if kept then 0 else 3)

/-- A job's tile is rolled out on its engine: waiting reads are served, then it is kept; commands whose reads wait find
it in the output buffer (R182, R183, R186). -/
def State.finishJob (s : State) (id : Nat) (env : ReadEnv) : State :=
  match s.mxe.jobs.find? (·.id == id) with
  | none => s
  | some j =>
    let s := { s with mxe := { s.mxe with jobs := s.mxe.jobs.filter (·.id != id) } }
    match s.extent j.ext with
    | none => s.runJobs
    | some x =>
      let r := s.synthTile j.eng x.desc j.tile j.tag env
      let s := r.2
      let reads := s.waiting.filter fun (r : HostReq) => r.wait == Wait.synth && r.on == id
      let s := { s with waiting := s.waiting.filter fun (r : HostReq) => !(r.wait == Wait.synth && r.on == id) }
      let s := reads.foldl (fun s q => s.giveTile r.1 ((s.extent q.ext).elim x.base (·.base)) q env) s
      let s := s.keepTile j.ext x j.tile j.tag r.1 j.level j.pin env
      let kept := (s.tileEntry j.ext x j.tile j.tag).isSome
      let s := { s with mxe := { s.mxe with outs := s.mxe.outs ++ j.readers.map fun k => (OutTile.mk k j.ext j.tile j.tag r.1) } }
      let s := match j.cmd with | some k => s.tileFor k j.tile r.1 true kept | none => s
      (j.joined.foldl (fun s k => s.tileFor k j.tile r.1 false kept) s).runJobs

/-- The tiles of a command that engines are rolling out are done, one after another (R182, R191). -/
def State.runTiles (id : Nat) (env : ReadEnv) : Nat → State → State
  | 0, s => s
  | k + 1, s =>
    match s.mxe.jobs.find? fun j => j.eng.isSome && (j.cmd == some id || j.joined.contains id) with
    | some j => State.runTiles id env k ((match j.eng with | some g => s.countJob g | none => s).finishJob j.id env)
    | none => s

/-- Result of a finished MATMUL or SYNTH. -/
def State.endMatrix (s : State) (c : Cmd) : State :=
  if pkOp c.pkt = 0x14 then
    s.finishCmd c.id (poisonStatus c.poison c.damaged) c.poison (result [(20, 4, nth c.cnt 0), (24, 4, nth c.cnt 1)])
  else
    s.finishCmd c.id (if nth c.cnt 2 = 0 then 0 else 6) c.poison
      (result [(20, 4, nth c.cnt 0), (24, 4, nth c.cnt 1), (28, 4, nth c.cnt 2)])

/-! ### Engine faults (R199) -/

/-- No engine is left: jobs end, the loads that wait for them fail, and tiles asked for by commands are poison (R192;
assumption 92). -/
def State.dropJobs (s : State) : State :=
  let jobs := s.mxe.jobs
  let reads := s.waiting.filter fun (r : HostReq) => r.wait == Wait.synth
  let s := { s with
    mxe := { s.mxe with jobs := [] }
    waiting := s.waiting.filter fun (r : HostReq) => r.wait != Wait.synth }
  let s := reads.foldl (fun s r => s.failReq r 0x02 true true) s
  jobs.foldl (fun s j => ((match j.cmd with | some k => [k] | none => []) ++ j.joined).foldl
    (fun s k => s.poisonTile k j.tile false) s) s

/-- Retire an engine: its role passes to a spare, or the plan shrinks. -/
def State.retireEngine (s : State) (eng : Nat) : State :=
  if s.mxe.retired.contains eng then s
  else
    let old := s.activeEngines
    let s := { s with mxe := { s.mxe with
      retired := s.mxe.retired ++ [eng], retiredNew := true, bufs := sdel s.mxe.bufs eng } }
    let s := if s.activeEngines = old then s.fault0 4 0x40 eng else (s.fault0 4 0x41 eng).retirePlan
    if s.activeEngines = 0 then s.dropJobs else s.runJobs

/-- A residue error of an engine's job, which restarts; `again`: the job was itself a restart. The engine may retire. -/
def State.engineError (s : State) (eng : Nat) (again : Bool) : State :=
  let iv := s.now / 1000000
  let n := if s.mxe.restarts.1 = iv then s.mxe.restarts.2 else 0
  let past := decide (64 ≤ n)
  let second := match sfind s.mxe.firstErr eng with | some f => decide (s.now < f + 1000000000) | none => false
  let s := { s with mxe := { s.mxe with
    errors := sput 0 s.mxe.errors eng (satAdd 16 (sget 0 s.mxe.errors eng) 1)
    retries := satAdd 32 s.mxe.retries 1, restarts := (iv, n + 1)
    retryLimit := s.mxe.retryLimit || past
    firstErr := sins s.mxe.firstErr eng s.now } }
  if past || again || second then s.retireEngine eng else s

/-- A job starts again on another engine of its role. -/
def State.restartJob (s : State) (id eng : Nat) : State :=
  ({ s with mxe := { s.mxe with jobs := s.mxe.jobs.map fun (j : SynthJob) =>
      if j.id = id then { j with restarted := true, eng := none, avoid := some eng } else j } }).runJobs

/-- SYNTH_JOB_DONE: the engine that runs a job finishes rolling out its tile, or finds a residue error, and the job starts
again on another (R182, R183, R199). -/
def execSynthJobDone (t id eng : Nat) (residue : Bool) (env : ReadEnv) (s : State) :
    Host.Outcome State Fault Refusal :=
  let s := s.startEnv t env
  match s.mxe.jobs.find? fun j => j.id == id && j.eng == some eng with
  | none => .next s
  | some j =>
    if residue then .next ((s.engineError eng j.restarted).restartJob id eng)
    else .next ((s.countJob eng).finishJob id env)

/-- The engine that computes tile `k` of a MATMUL among the free COMMAND engines; on one whose residue check fails the
tile starts again on the next (R195, R199). What is left of `bad` are the errors still to come. -/
def State.tileEngine : Nat → Nat → List Nat → Bool → State → Option Nat × List Nat × State
  | 0, _, bad, _, s => ((s.freeEngines true).head?, bad, s)
  | f + 1, k, bad, again, s =>
    let l := s.freeEngines true
    match l[k % Nat.max 1 l.length]? with
    | none => (none, bad, s)
    | some g => if bad.contains g then State.tileEngine f (k + 1) (bad.erase g) true (s.engineError g again)
      else (some g, bad, s)

/-- The tiles left of a MATMUL, spread over the free COMMAND engines; while every COMMAND engine runs a job none is done
(R191, R195). -/
def State.doTiles (s : State) (c : Cmd) (env : ReadEnv) : State :=
  if (s.freeEngines true).isEmpty && s.activeEngines != 0 then s
  else
    (c.left.foldl (fun (acc : List Nat × State) t =>
      let g := State.tileEngine acc.1.length t acc.1 false acc.2
      (g.2.1, (g.2.2.doTile c t g.1 env).modCmd c.id fun d => { d with left := d.left.filter (· != t) }))
      (env.residue, s)).2

end Sys2Proof.Machine
end

