-- ==== Sys2Proof/Machine/Tier.lean ====
section
/-! DEFINITION. Pinned sets and salts, and the tier commands HINT, PIN, UNPIN, PAGE_IN and PAGE_OUT
(R76, R77, R80, R82, R83, R189, R271 to R273). -/

namespace Sys2Proof.Machine

open Sys2Proof

/-- The station that the command processor and the flash-tier engine share (R217). -/
def stFlash : Nat := 33

/-! ### Pinned entries by directory set (R76, R77, R477) -/

/-- Runs of pinned pages, each a first set and a length: extents, reservations, and pages locked by PIN. -/
def State.pinRuns (s : State) : List (Nat × Nat) :=
  ((s.ext.tbl.filter fun (_, x) => x.frames != 0).map fun (_, x) => (x.salt, x.frames)) ++
  ((s.cmds.filter fun c => c.frameReserve != 0).map fun c => (nth c.aux 4, nth c.aux 0)) ++
  (s.cmds.flatMap fun c => if pkOp c.pkt = 0x21 then (c.aux.drop 1).map fun k => (k, 1) else []) ++
  ((s.dir.frames.filter fun (_, f) => f.pinned && f.charged).map fun (_, f) => (f.dirSet, 1)) ++
  s.mxe.repin.map fun (e, p) => (s.pageSet (e, p), 1)

/-- Sets at which the count changes. -/
def edges (runs : List (Nat × Nat)) : List Nat :=
  (0 :: runs.flatMap fun (a, n) => [a % sets, (a + n) % sets]).eraseDups

/-- The largest count of any set. -/
def worstSet (runs : List (Nat × Nat)) : Nat := maxN 0 ((edges runs).map (countAt runs))

/-- The lowest salt that makes the largest count of pinned entries least, for an extent of `n` pinned pages. The
largest count changes only where an end of the new run meets an edge. -/
def saltFor (runs : List (Nat × Nat)) (n : Nat) : Nat :=
  let r := n % sets
  let c := (edges runs).flatMap fun b => [b, (b + 1) % sets, (b + sets - r) % sets, (b + sets - r + 1) % sets]
  let c := sortBy (fun (a b : Nat) => decide (a < b)) (0 :: c).eraseDups
  ((c.map fun k => (k, worstSet ((k, n) :: runs))).foldl (fun (b : Option (Nat × Nat)) x => match b with
    | none => some x
    | some y => if x.2 < y.2 then some x else some y) none).elim 0 (·.1)

/-- The largest `k` up to `hi` that passes, where what passes is downward closed and 0 passes. -/
def largest (ok : Nat → Bool) : Nat → Nat → Nat → Nat
  | 0, lo, _ => lo
  | n + 1, lo, hi =>
    if hi ≤ lo then lo
    else
      let mid := (lo + hi + 1) / 2
      if ok mid then largest ok n mid hi else largest ok n lo (mid - 1)

/-- Result of ST_NO_CAPACITY: the largest fit in units of 2 MiB (R83). -/
def noCapacity (units : Nat) : Verdict := .refuse 2 (result [(20, 4, units)])

/-! ### Checks (R82, R189, R271) -/

/-- Operands of a tier command. -/
structure TierOp where
  e : Nat
  level : Nat
  prefetch : Bool
  off : Nat
  len : Nat
  deriving DecidableEq, Repr

/-- They stand in the packet. -/
def tierOf (p : Packet) : TierOp := ⟨pk p 24 2, fld p 208 2, bitOf p 216, pk p 32 8, pk p 40 8⟩

/-- Pages of the range: tiles of a composite, stored pages otherwise. -/
def Extent.tierPages (x : Extent) (o : TierOp) : List Nat :=
  if x.composite then
    ((List.range (o.len / pageBytes)).map (· + o.off / pageBytes)).filter fun p => decide (p < tileCount x.desc)
  else x.bytePages o.off o.len

/-- The frame that holds a page of the current version. -/
def State.currentFrame (s : State) (e : Nat) (x : Extent) (p : Nat) : Option Nat :=
  match s.locate e p x.ver with | .frame n => some n | _ => none

/-- The page, or the newest entry of the tile, is pinned. -/
def State.pagePinned (s : State) (e : Nat) (x : Extent) (p : Nat) : Bool :=
  if x.composite then
    (s.mxe.repin.any fun (k, q) => q == p && (k == e || (s.extent k).any x.sharesTiles)) ||
      ((s.tileEntries e x p).any fun (_, f) => f.pinned)
  else match s.currentFrame e x p with
    | some n => (s.frame n).any fun f => f.st == 2 || f.pinned
    | none => false

/-- PIN of these sets fits. -/
def State.pinFits (s : State) (ks : List Nat) : Bool :=
  ks.isEmpty || decide (s.pinnedHeld + ks.length ≤ s.pinnedLimit) &&
    (let runs := s.pinRuns ++ ks.map fun k => (k, 1)
     ks.eraseDups.all fun k => decide (countAt runs k ≤ 15))

/-- The tier command fills or synthesises what is missing. -/
def tierFills (op : Nat) (o : TierOp) : Bool := op == 0x21 || op == 0x23 || (op == 0x20 && o.prefetch)

/-- The command may change something: on a CACHED extent, or where it synthesises tiles of a PINNED composite (R82, R189,
R272). -/
def tierActs (op : Nat) (o : TierOp) (x : Extent) : Bool := x.tier == 1 || (x.composite && tierFills op o && op != 0x21)

/-- Demand of a tier command (R273). -/
def State.tierDemand (s : State) (op : Nat) (o : TierOp) (x : Extent) : List (Nat × Nat) :=
  let n := o.len / pageBytes
  if x.composite then
    if tierFills op o then (s.tileDemand x.desc).map fun (i, d) => (i, n * d) else []
  else if tierFills op o then
    [(0, 16 * o.len), if x.proxy then (5 + s.proxyPort x, 16 * 70400 * n) else (1, 16 * o.len)]
  else if op = 0x24 then [(0, 16 * o.len), (2, 16 * o.len)] else []

/-- Checks of the tier commands. -/
def State.checkTier (s : State) (c : Ask) (_ : ReadEnv) : Verdict × State :=
  let p := c.p
  let op := pkOp p
  let o := tierOf p
  (match s.extent o.e with
    | none => refuse 0x0B
    | some x =>
      let f := if op = 0x21 ∨ op = 0x22 ∨ op = 0x24 then s.ownerFault c.a c.stamp o.e else s.numberFault c.a c.stamp o.e
      let acts := tierActs op o x
      let lacksTag := x.composite && tierFills op o && acts && (s.tagFor (s.viewsOf c.a) x.desc).isNone
      let reserved := fld p 210 6 != 0 || (op != 0x20 && op != 0x23 && o.level != 0) || fld p 217 7 != 0 ||
        (op != 0x20 && o.prefetch) || !pkZero p 28 4 || !pkZero p 48 16
      let pages := x.tierPages o
      let bad := reserved || o.off % pageBytes != 0 || o.len % pageBytes != 0 || o.len == 0 ||
        decide (x.size < o.off + o.len) || (x.tier == 2 && (op == 0x21 || op == 0x23 || op == 0x24)) ||
        (op == 0x24 && x.tier == 0) || (op == 0x24 && !x.composite && pages.any (s.pagePinned o.e x))
      let free (o : TierOp) : List Nat := if op = 0x21 ∧ x.tier = 1 then
          ((x.tierPages o).filter fun q => !s.pagePinned o.e x q).map fun q => setOf x.salt q
        else []
      let ks := free o
      let fit (n : Nat) := s.pinFits (free { o with len := Nat.min o.len (n * mib2) })
      firstFail [(f != 0, f), (lacksTag, 0x0C), (o.off % 64 != 0 || o.len % 64 != 0, 5), (bad, 0x0B)]
        (if !s.pinFits ks then noCapacity (largest fit 40 0 (o.len / mib2))
        else .ok { dem := demand (s.tierDemand op o x), exts := [o.e], aux := ks.length :: ks
                   tOp := 2000 + (if tierFills op o && acts then s.flashTerm [⟨x.base, 1, false⟩] else 0)
                   reads := if x.proxy && tierFills op o then [(x.base + o.off, o.len)] else []
                   left := if acts then pages else []
                   stations := if !acts then [] else if x.composite then (if tierFills op o then [stMatrix] else [])
                     else [stFlash] }), s)

/-! ### Effects (R80, R82, R189, R272) -/

/-- Count one page or tile whose state the command changed. -/
def State.changed (s : State) (id : Nat) : State := s.count id 0

/-- The page is locked as PINNED; one that is being written back too, its write-back going on (R78, R82). -/
def Frame.lock (f : Frame) : Frame :=
  { f with pinned := true, charged := true, st := if f.st = 1 ∨ f.st = 4 then 2 else f.st }

/-- Fill a page that is not resident and set it to a level, pinned or not. A page for which no frame can be taken is
skipped, by PIN too (assumption 81). -/
def State.fillPage (s : State) (id e : Nat) (x : Extent) (p v level : Nat) (pin : Bool) (env : ReadEnv) : State :=
  let (n, s) := s.startFill e x p v level env
  match n with
  | none => s
  | some n => ((s.settle n env).modFrame n fun f => if pin then f.lock else f).changed id

/-- One page of an extent that is no composite. PAGE_IN leaves the level of a page that is resident already
(assumption 81); a proxy's page that came for the command is one that it filled. -/
def State.tierPage (s : State) (c : Cmd) (e : Nat) (x : Extent) (p : Nat) (env : ReadEnv) : State :=
  let o := tierOf c.pkt
  let op := pkOp c.pkt
  let v := match c.vers.find? fun (n, _) => n == e with | some (_, v) => v | none => x.ver
  match s.locate e p v with
  | .frame n =>
    let s := s.settle n env
    match s.frame n with
    | none => s
    | some f =>
      let s := if c.covers.contains p ∧ f.st != 3 ∧ op != 0x21 then s.changed c.id else s
      if !(f.st == 1 || f.st == 4 || f.st == 2) then s
      else match op with
      | 0x20 => if f.hint = o.level ∨ f.st = 2 then s else (s.setFrame n { f with hint := o.level }).changed c.id
      | 0x21 => if f.pinned then s else (s.setFrame n f.lock).changed c.id
      | 0x22 =>
        if f.pinned then
          (s.setFrame n { f with pinned := false, charged := false, hint := s.hintLevel e
                                 st := if f.st = 2 then 1 else f.st }).changed c.id
        else s
      | 0x24 =>
        if f.pinned then s
        else
          let s := if f.dirty ∨ f.st = 4 ∨ s.dir.merge.any (fun m => m.frame == n && m.dirty) then s.writeBackNow n env
            else s
          (s.freeFrame n).changed c.id
      | _ => s
  | _ =>
    if x.proxy then s
    else match op with
    | 0x20 => if o.prefetch then s.fillPage c.id e x p v o.level false env else s
    | 0x21 => s.fillPage c.id e x p v (s.hintLevel e) true env
    | 0x23 => s.fillPage c.id e x p v o.level false env
    | _ => s

/-- A tier command on the entries of a composite that exist already. -/
def State.tierTile (s : State) (c : Cmd) (e : Nat) (x : Extent) (p : Nat) : State :=
  let o := tierOf c.pkt
  match pkOp c.pkt with
  | 0x20 =>
    if x.tier = 0 then s
    else
      let hit := (s.tileEntries e x p).filter fun (_, f) => f.tag == s.newestTag x.desc && f.hint != o.level
      if hit.isEmpty then s
      else (hit.foldl (fun s (n, _) => s.modFrame n fun f => { f with hint := o.level }) s).changed c.id
  | 0x21 =>
    if x.tier = 0 then s
    else match (s.cmdTag c x).bind (s.tileEntry e x p), s.newestEntry e x p with
      | some _, some n => if (s.frame n).any (·.pinned) then s else (s.pinTile e x p).changed c.id
      | _, _ => s
  | 0x22 =>
    if x.tier = 0 then s
    else
      let hit := (s.tileEntries e x p).filter fun (_, f) => f.pinned
      let own (q : Nat × Nat) : Bool := q.2 == p && (q.1 == e || (s.extent q.1).any x.sharesTiles)
      let gone := s.mxe.repin.any own
      let s := { s with mxe := { s.mxe with repin := s.mxe.repin.filter fun q => !(own q) } }
      if hit.isEmpty ∧ !gone then s
      else (hit.foldl (fun s (n, _) => s.modFrame n fun f =>
        { f with pinned := false, charged := false, hint := s.hintLevel e }) s).changed c.id
  | 0x24 =>
    let hit := (s.tileEntries e x p).filter fun (_, f) => !f.pinned
    if hit.isEmpty then s else (hit.foldl (fun s (n, _) => s.freeFrame n) s).changed c.id
  | _ => s

/-- Result of a tier command. -/
def State.endTier (s : State) (c : Cmd) : State :=
  s.finishCmd c.id 0 c.poison (result [(20, 4, nth c.cnt 0)])

/-- Level and pin that a tier command gives the tiles that it synthesises. -/
def tierLevel (s : State) (c : Cmd) : Nat × Bool :=
  let o := tierOf c.pkt
  if pkOp c.pkt = 0x21 then (s.hintLevel o.e, true)
  else if pkOp c.pkt = 0x15 then (s.hintLevel (pk c.pkt 24 2), false) else (o.level, false)

/-- A tier command begins: jobs for missing tiles start; what needs no station is done at once. -/
def State.beginTier (s : State) (c : Cmd) (_ : ReadEnv) : State :=
  let e := (tierOf c.pkt).e
  match s.extent e with
  | none => s.finishCmd c.id 0 false 0
  | some x =>
    let ver := x.verAt c.eff
    let missing := if x.proxy then (x.tierPages (tierOf c.pkt)).filter fun p => match s.locate e p ver with
      | .frame _ => false
      | _ => true else []
    let s := s.modCmd c.id fun c => { c with vers := (e, ver) :: c.vers, covers := missing }
    let c := (s.cmd c.id).getD c
    let s := if x.composite then c.left.foldl (fun s p => s.tierTile c e x p) s else s
    if c.stations.isEmpty then
      match s.cmd c.id with
      | some c => s.endTier c
      | none => s
    else if x.composite then s.startTiles c e (tierLevel s c).1 (tierLevel s c).2
    else s

/-- The station of a tier command reports: every page of the range is done. -/
def State.doTier (s : State) (c : Cmd) (env : ReadEnv) : State :=
  let e := (tierOf c.pkt).e
  match s.extent e with
  | none => s
  | some x =>
    if x.composite then s.runTiles c.id env s.mxe.jobs.length
    else (c.left.foldl (fun s p => s.tierPage c e x p env) s).modCmd c.id fun c => { c with left := [] }

end Sys2Proof.Machine
end

