-- ==== Sys2Proof/Machine/Extents.lean ====
section
/-! DEFINITION. GRANT, REVOKE, RESIZE and QUERY (R55 to R69, R76, R77, R83, R175 to R180, R274 to R278, R375,
R405). -/

namespace Sys2Proof.Machine

open Sys2Proof

/-! ### Local range and numbers (R57, R68, R83) -/

/-- End of the range in which extents are placed. -/
def localEnd : Nat := 0x400000000000

/-- Ranges in use or reserved: extents, GRANTs and growth that are not applied yet (R477). -/
def State.usedRanges (s : State) : List (Nat × Nat) :=
  (s.ext.tbl.map fun (_, x) => (x.base, x.size)) ++
  s.cmds.filterMap fun c =>
    if c.phase == .asking || c.aux.isEmpty then none
    else if pkOp c.pkt = 0x50 then some (nth c.aux 3, pk c.pkt 40 8)
    else if pkOp c.pkt = 0x52 then (s.extent (pk c.pkt 32 2)).map fun x => (x.base, Nat.max x.size (pk c.pkt 40 8))
    else none

/-- A range is free. -/
def rangeFree (used : List (Nat × Nat)) (b n : Nat) : Bool :=
  decide (b + n ≤ localEnd) && !(used.any fun (a, m) => decide (a < b + n) && decide (b < a + m))

/-- A base for a new extent: the part's choice where it is free and aligned, else the lowest free one. -/
def placeExtent (used : List (Nat × Nat)) (n : Nat) : Option Nat :=
  let b := Config.placement used n
  if b % mib2 = 0 ∧ rangeFree used b n then some b
  else
    let ends := sortBy (fun (a b : Nat) => decide (a < b)) (0 :: used.map fun (a, m) => ceilDiv (a + m) mib2 * mib2)
    ends.find? fun b => rangeFree used b n

/-- Lowest number from `k` on that is not listed. -/
def lowestNot (used : List Nat) : Nat → Nat → Nat
  | 0, k => k
  | n + 1, k => if used.contains k then lowestNot used n (k + 1) else k

/-- The lowest free extent number; none when the table is full. -/
def State.freeExtent (s : State) : Option Nat :=
  let used := (s.ext.tbl.map (·.1)) ++
    (s.cmds.filter fun c => c.phase != .asking && !c.aux.isEmpty && pkOp c.pkt == 0x50).map fun c => nth c.aux 2
  let k := lowestNot used used.length 0
  if k < 65536 then some k else none

/-! ### Key slots (R405, R477) -/

/-- A slot counts as loaded: admitted KEY_LOADs and KEY_DROPs decide before its state. -/
def State.slotLoaded (s : State) (k : Nat) : Bool :=
  s.cmds.foldl (fun b c =>
    if pk c.pkt 24 1 != k then b
    else if pkOp c.pkt = 0x80 then true else if pkOp c.pkt = 0x81 then false else b) (s.slot k).loaded

/-- A slot is assigned to an allotment. -/
def State.slotAssigned (s : State) (k a : Nat) : Bool := bitOf (s.slot k).assign a

/-! ### GRANT (R60, R63, R179, R274, R275) -/

/-- Descriptor slot `i` of MXE_DESC, as it stood before writes of the present count (R176, R472). -/
def State.descSlot (s : State) (i : Nat) : CompDesc :=
  BitVec.ofNat 512 ((List.range 8).foldl (fun v j => v + (sget 0 s.old.desc (8 * i + j)).toNat <<< (64 * j)) 0)

/-- The attribute word as it is applied (R60). -/
def appliedAttr (w : BitVec 32) : BitVec 32 :=
  if bitOf w 7 ∧ fld w 2 3 != 0 ∧ fld w 2 3 != 5 then setBit (setFld w 2 3 0) 21 false else w

/-- Combinations that R60 refuses, and reserved bits. -/
def attrBad (w : BitVec 32) (remote : Bool) : Bool :=
  let tier := fld w 0 2
  let codec := fld w 2 3
  let sh := fld w 5 2
  tier == 3 || decide (5 < codec) || sh == 3 || (bitOf w 7 && codec == 5) || (codec == 5 && sh == 1) ||
    (tier == 2 && codec == 5) || (bitOf w 20 && sh != 1) || (remote && (tier != 1 || codec == 5)) ||
    (bitOf w 21 && codec != 2 && codec != 3) || fld w 22 10 != 0

/-- Steps 2 and 3 of R179 for a descriptor and a size. -/
def State.descFaults (s : State) (d : CompDesc) (size : Nat) : List (Bool × Nat) :=
  let eu := elemBytes (dUType d)
  let ev := elemBytes (dVType d)
  let inside (e n : Nat) := match s.extent e with | some x => decide (n ≤ x.size) | none => false
  let kindBad (e : Nat) := match s.extent e with
    | some x => x.sharing == 0 || x.composite || x.tier == 2 || x.proxy || x.isFxr
    | none => true
  let b := dBase d
  [(dUOff d % 64 != 0 || dVOff d % 64 != 0 || (b && dBOff d % 64 != 0) || dUStride d % 64 != 0 || dVStride d % 64 != 0, 5),
   (dM d % 128 != 0 || dM d == 0 || decide (1048576 < dM d) || dN d % 256 != 0 || dN d == 0 || decide (1048576 < dN d) ||
     dRank d % 16 != 0 || dRank d == 0 || decide (1024 < dRank d) || decide (3 < dUType d) || decide (3 < dVType d) ||
     eu != ev || fld d 97 31 != 0 || bytesN d 22 2 != 0 || bytesN d 56 8 != 0 ||
     (!b && (dBExt d != 0 || dBOff d != 0)) ||
     decide (dUStride d < dRank d * eu) || decide (dVStride d < dN d * ev) || (b && dBOff d % pageBytes != 0) ||
     !inside (dUExt d) (dUOff d + (dM d - 1) * dUStride d + dRank d * eu) ||
     !inside (dVExt d) (dVOff d + (dRank d - 1) * dVStride d + dN d * ev) ||
     (b && !inside (dBExt d) (dBOff d + tileCount d * pageBytes)) ||
     (dFactors d).any kindBad ||
     (b && (match s.extent (dBExt d) with
       | some x => x.codec != 1 || (s.codeTable x.slot).any (·.fp32)
       | none => true)) || size != compSize d, 0x0B)]

/-- What a new extent of a size charges and where it goes fits: frames, flash, number, base, salt, and the code-table
slot of the moment (R156). -/
def State.grantFit (s : State) (attr : BitVec 32) (remote : Bool) (size : Nat) : Option (List Nat) :=
  let fr := framesCharged (fld attr 0 2) (fld attr 2 3) size (bitOf attr 7) remote
  let fl := flashCharged (fld attr 0 2) (fld attr 2 3) size (bitOf attr 7) remote
  let runs := s.pinRuns
  let salt := saltFor runs fr
  match s.freeExtent, placeExtent s.usedRanges size with
  | some e, some b =>
    if (fr = 0 ∨ (s.pinnedHeld + fr ≤ s.pinnedLimit ∧ worstSet ((salt, fr) :: runs) ≤ 15)) ∧
        (fl = 0 ∨ s.flashHeld + fl ≤ s.announcedFlash) then some [fr, fl, e, b, salt, fld s.old.grantTable 0 10]
    else none
  | _, _ => none

/-- An extent is revoked for every allotment at a stamp (R67). -/
def State.revokedAll (s : State) (stamp : Count) (e : Nat) : Bool :=
  (s.extent e).any fun x => (earlier x.revoke x.homeRevoked).any fun r => decide (r ≤ stamp)

/-- Checks of GRANT as far as the part makes them alone; one that names a revoked extent is refused after the steps of
R63 that concern its own fields (R67). -/
def State.checkGrant (s : State) (c : Ask) (_ : ReadEnv) : Verdict × State :=
  let p := c.p
  let form := pk p 24 1
  let who := pk p 25 1 % 64
  let raw := BitVec.ofNat 32 (pk p 28 4)
  let size := pk p 40 8
  let e := pk p 32 2
  let comp := form == 0 && fld raw 2 3 == 5
  let d := s.descSlot (pk p 27 1 % 16)
  let stranger := comp && (dFactors d).any fun f => match s.extent f with
    | some x => x.rights who == 0
    | none => true
  let access := c.a != 0 || !(s.allot who).enabled || stranger
  let reserved := fld p 206 2 != 0 || !pkZero p 34 6 || !pkZero p 56 8 || (form != 1 && (pk p 26 1 != 0 || e != 0)) ||
    (form == 1 && (decide (1 < pk p 26 1) || raw != 0 || size != 0)) || (form != 2 && !pkZero p 48 8) ||
    (if comp then decide (15 < pk p 27 1) else pk p 27 1 != 0)
  let attr := appliedAttr raw
  (if form = 1 then
    firstFail [(access, 0x0C),
      (reserved || (match s.extent e with
        | some x => x.sharing == 0 || x.composite || x.holders.contains who || (x.sharing == 2 && pk p 26 1 != 0)
        | none => true), 0x0B), (s.revokedAll c.stamp e, 4)] (.ok { tOp := 20000, exts := [e] })
  else
    let pool := pk p 48 8
    let f := if comp then s.descFaults d size else []
    firstFail ([(access, 0x0C), (size % 64 != 0, 5)] ++ f.take 1 ++
      [(reserved || decide (2 < form) || size == 0 || size % mib2 != 0 || attrBad raw (form == 2) ||
        (form == 2 && (pool % mib2 != 0 || decide (2 ^ 56 ≤ pool) || pool / 2 ^ 48 == s.myId ||
          (s.route (pool / 2 ^ 48)).isNone)), 0x0B)] ++ f.drop 1 ++
      [(comp && (dFactors d).any (s.revokedAll c.stamp), 4), (!s.slotLoaded (fld raw 12 8) || !s.slotAssigned (fld raw 12 8) who, 0x0D)])
      (match s.grantFit attr (form == 2) size with
        | some aux => .ok { tOp := 20000, aux := aux, exts := if comp then dFactors d else []
                            args := if comp then [d] else [] }
        | none => noCapacity (largest (fun k => k == 0 || (s.grantFit attr (form == 2) (k * mib2)).isSome) 40 0 (localEnd / mib2))), s)

/-- A REMOTE GRANT asks the home before it is admitted (R375). -/
def asksHome (p : Packet) : Bool := pkOp p == 0x50 && pk p 24 1 == 2

/-- The home's answer admits the proxy: status OK, one export covers the range, attributes equal, and a shared
extent is writable only when the export allows it. The answer's numbers are the export's base and size, its
attribute word and WRITE. -/
def homeAgrees (p : Packet) (status : Nat) (nums : List Nat) : Bool :=
  let raw := appliedAttr (BitVec.ofNat 32 (pk p 28 4))
  let home := BitVec.ofNat 32 (nth nums 2)
  let lo := pk p 48 8 % 2 ^ 48
  status == 0 && decide (nth nums 0 ≤ lo) && decide (lo + pk p 40 8 ≤ nth nums 0 + nth nums 1) &&
    fld raw 5 2 == fld home 5 2 && fld raw 2 3 == fld home 2 3 && bitOf raw 21 == bitOf home 21 &&
    bitOf raw 7 == bitOf home 7 && (fld raw 5 2 != 1 || nth nums 3 == 1)

/-- Pages of a PINNED extent without a frame get one that is wipe-pending, in ascending order; a page whose set has no
frame to give stays without (R63, R299; assumption 81). -/
def State.pinPages (s : State) (e : Nat) (x : Extent) (env : ReadEnv) : State :=
  if x.tier != 0 ∨ x.composite then s
  else (List.range x.pages).foldl (fun s p =>
    if (s.framesOf e p).any fun (_, f) => f.st == 2 then s
    else
      let (t, s) := s.takeFrame x.salt p (some (e, p)) env
      match t with
      | none => s
      | some (n, entry) =>
        let s := s.setFrame n { Frame.fresh entry e p 2 (if x.versioned then Nat.min x.ver 1 else 0) with
          wipe := some s.dir.wipes }
        { s with dir := { s.dir with wipes := s.dir.wipes + 1 } }) s

/-- The extent that a GRANT creates (R57 to R62, R87, R156, R408). -/
def State.newExtent (s : State) (c : Cmd) : Nat × Extent × State :=
  let p := c.pkt
  let attr := appliedAttr (BitVec.ofNat 32 (pk p 28 4))
  let (f, s) := s.fresh
  (nth c.aux 2,
    { base := nth c.aux 3, size := pk p 40 8, attr := attr, owner := pk p 25 1 % 64, members := [], salt := nth c.aux 4
      nonce := f.setWidth 256, slot := if fld attr 2 3 = 1 then nth c.aux 5 else 0, rebound := none, written := none
      desc := c.args.getD 0 0, pool := if pk p 24 1 = 2 then some (pk p 48 8) else none
      ver := if fld attr 5 2 = 1 then 1 else 0, frozen := false, views := [], endedViews := [], pubs := []
      history := [], pubHorizon := 0, commits := [(if fld attr 5 2 = 1 then 1 else 0, s.now)], openedAt := none, nextSet := 1, locks := [], revoke := none, memRevoke := []
      shrink := none, moving := none, remoteViews := [], inPages := [], homeRevoked := none }, s)

/-- Result of a completed GRANT (R275). -/
def grantResult (e : Nat) (x : Extent) : BitVec 96 := result [(20, 2, e), (22, 6, x.base), (28, 4, x.attr.toNat)]

/-- A GRANT has its effect and completes (R63, R64, R275). -/
def State.beginGrant (s : State) (c : Cmd) (env : ReadEnv) : State :=
  let p := c.pkt
  if pk p 24 1 = 1 then
    let e := pk p 32 2
    let who := pk p 25 1 % 64
    match s.extent e with
    | none => s.finishCmd c.id 0 false 0
    | some x =>
      let x := { x with
        members := x.members ++ [(who, pk p 26 1 == 1)]
        memRevoke := x.memRevoke.filter (·.1 != who), endedViews := x.endedViews.filter (·.1 != who) }
      let s := s.setExtent e x
      let s := x.holders.foldl (fun s n => s.extentEvent n 1 e x) s
      (s.offer who e x.base x.size).finishCmd c.id 0 false (grantResult e x)
  else
    let (e, x, s) := s.newExtent c
    let s := (s.setExtent e x).modCmd c.id fun c => { c with aux := [] }
    let s := { s with
      dir := { s.dir with hint := sput 1 s.dir.hint e 1 }
      old := { s.old with hint := sput 1 s.old.hint e 1 }
      sec := { s.sec with nonces := sins s.sec.nonces e (wrapKey x.nonce) } }
    let s := (s.pinPages e x env).extentEvent x.owner 0 e x
    ((s.offer x.owner e x.base x.size).finishCmd c.id 0 false (grantResult e x)).digestUpdate

/-! ### REVOKE (R67 to R69, R276) -/

/-- A live composite that names an extent as a factor, the lowest number first. -/
def State.composerOf (s : State) (e : Nat) (keep : Nat) : Option Nat :=
  (s.ext.tbl.find? fun (_, x) => x.composite && (
    let d := x.desc
    (dUExt d == e && decide (keep < dUOff d + (dM d - 1) * dUStride d + dRank d * elemBytes (dUType d))) ||
    (dVExt d == e && decide (keep < dVOff d + (dRank d - 1) * dVStride d + dN d * elemBytes (dVType d))) ||
    (dBase d && dBExt d == e && decide (keep < dBOff d + tileCount d * pageBytes)))).map (·.1)

/-- The count that bounds what a revocation waits for (R276). -/
def State.revokeFloor (s : State) (e : Nat) (only : Option Nat) (r : Count) : Count :=
  maxN (r + 400000) ((s.cmds.filter fun c => c.exts.contains e && (only.isNone || only == some c.allot)).map (·.promise))

/-- Checks of REVOKE. The EXTENT form names no member: a member byte that is not zero is taken as reserved bits that are
set (assumption 80). -/
def State.checkRevoke (s : State) (c : Ask) (_ : ReadEnv) : Verdict × State :=
  let p := c.p
  let form := pk p 24 1
  let m := pk p 25 1
  let e := pk p 32 2
  let x := s.extent e
  (firstFail [(c.a != 0, 0x0C),
    (decide (1 < form) || decide (63 < m) || (form == 0 && m != 0) || !pkZero p 26 6 || !pkZero p 34 30 || x.isNone ||
      (form == 1 && !(x.any fun x => x.members.any (·.1 == m))), 0x0B)]
    (match (if form = 0 then s.composerOf e 0 else none) with
      | some k => .refuse 3 (result [(20, 2, k)])
      | none =>
        let r := x.bind fun x => if form = 0 then x.revoke else x.revokedAt m
        if r.any fun r => decide (r ≤ c.stamp) then refuse 4
        else .ok { tOp := 20000, exts := [e], sMin := s.revokeFloor e (if form = 1 then some m else none) c.eff }), s)

/-- An admitted REVOKE fixes its revoke count (R67). -/
def State.admitRevoke (s : State) (c : Cmd) : State :=
  let m := pk c.pkt 25 1
  s.modExtent (pk c.pkt 32 2) fun x =>
    if pk c.pkt 24 1 = 0 then { x with revoke := some (match x.revoke with | some r => Nat.min r c.eff | none => c.eff) }
    else { x with memRevoke := (x.memRevoke.filter (·.1 != m)) ++
      [(m, match x.memRevoke.find? (·.1 == m) with | some (_, r) => Nat.min r c.eff | none => c.eff)] }

/-- The revoke count is reached (R67, R75, R88, R377). -/
def State.beginRevoke (s : State) (c : Cmd) (_ : ReadEnv) : State :=
  let e := pk c.pkt 32 2
  if pk c.pkt 24 1 = 0 then s.revokeReached e
  else
    let m := pk c.pkt 25 1
    let s := s.endViews e (some m)
    match s.extent e with
    | some x => s.staleWindows x (some m) 0
    | none => s

/-- A request or command of an allotment on an extent is unfinished. -/
def State.busyMember (s : State) (e m : Nat) : Bool :=
  (s.waiting.any fun r => r.ext == e && r.allot == m) ||
    s.cmds.any fun c => c.exts.contains e && c.allot == m && pkOp c.pkt != 0x51

/-- What a finished REVOKE or shrink returns: its revoke count (R276, R277). -/
def countResult (r : Count) : BitVec 96 := result [(20, 6, r)]

/-! ### RESIZE (R65, R66, R277) -/

/-- The plane that depends on the size: its first stored page and the number of its stored bytes. -/
def planeStart (x : Extent) (size : Nat) : Nat :=
  if x.sealed then size / pageBytes else size * x.fxr.width / 16 / pageBytes
@[inherit_doc planeStart] def planeLen (x : Extent) (size : Nat) : Nat :=
  if x.sealed then size / 8 else size / 64
/-- The extent has such a plane. -/
def Extent.hasPlane (x : Extent) : Bool := x.sealed || x.isFxr

/-- Stored pages of an extent that stand elsewhere under a size: the plane's and those that growth adds. -/
def Extent.newPages (x : Extent) (size : Nat) : List Nat :=
  let y := { x with size := size }
  (List.range (y.pages - planeStart x x.size)).map (· + planeStart x x.size)

/-- The frames that the moved pages of a plane need in their sets can be reserved: the room of each set, with the entries
that pages of the plane leave there, holds what a PINNED plane, or its locked pages, take (R66). -/
def State.planeFits (s : State) (e : Nat) (x : Extent) (size : Nat) : Bool :=
  let moved := s.dir.frames.filter fun (_, f) => f.ext == e && decide (planeStart x x.size ≤ f.page)
  let to' := if x.tier = 0 then (x.newPages size).map (setOf x.salt)
    else (moved.filter fun (_, f) => f.pinned).map fun (_, f) =>
      setOf x.salt (f.page - planeStart x x.size + planeStart x size)
  !x.hasPlane || (s.dir.frames.map fun (_, f) => f.dirSet).eraseDups.all fun k =>
    decide ((to'.filter (· == k)).length + s.setHeld k (e, 0) ≤
      s.setRoom k + (moved.filter fun (_, f) => f.dirSet == k && (f.st == 2 || f.pinned)).length) ||
      !(to'.contains k)

/-- Growth to a size fits: frames and flash that it adds. -/
def State.growFit (s : State) (e : Nat) (x : Extent) (size : Nat) : Option (List Nat) :=
  let y := { x with size := size }
  let fr := y.frames - x.frames
  let fl := y.flash - x.flash
  let used := s.usedRanges.filter fun (b, _) => b != x.base
  let start := setOf x.salt x.pages
  if rangeFree used x.base size ∧ (fr = 0 ∨ (s.pinnedHeld + fr ≤ s.pinnedLimit ∧
      worstSet ((start, fr) :: s.pinRuns) ≤ 15)) ∧ (fl = 0 ∨ s.flashHeld + fl ≤ s.announcedFlash) ∧
      s.planeFits e x size then
    some [fr, fl, e, x.base, start]
  else none

/-- Checks of RESIZE. -/
def State.checkResize (s : State) (c : Ask) (_ : ReadEnv) : Verdict × State :=
  let p := c.p
  let e := pk p 32 2
  let size := pk p 40 8
  (match s.extent e with
    | none => firstFail [(c.a != 0, 0x0C), (size % 64 != 0, 5)] (refuse 0x0B)
    | some x =>
      firstFail [(c.a != 0, 0x0C), (size % 64 != 0, 5),
        (size == 0 || size % mib2 != 0 || x.proxy || (x.composite && decide (x.size < size)) || !pkZero p 24 8 ||
          !pkZero p 34 6 || !pkZero p 48 16, 0x0B)]
        (match (if size < x.size then s.composerOf e size else none) with
          | some k => .refuse 3 (result [(20, 2, k)])
          | none =>
            if x.revoke.any fun r => decide (r ≤ c.stamp) then refuse 4
            else
              let plane := if x.hasPlane ∧ size != x.size then planeLen x size else 0
              let d := [(0, 32 * plane)] ++ (if x.tier = 0 then [] else [(1, 32 * plane), (2, 32 * plane)])
              let w : Want := { dem := demand d, exts := [e],
                                tOp := 20000 + if plane != 0 ∧ x.tier != 0 then 400000 else 0 }
              if size = x.size then .ok w
              else if size < x.size then if !(s.planeFits e x size) then noCapacity 0 else .ok { w with sMin := s.revokeFloor e none c.eff }
              else match s.growFit e x size with
                | some aux => .ok { w with aux := aux }
                | none =>
                  let k := largest (fun k => k == 0 || (s.growFit e x (x.size + k * mib2)).isSome) 40 0 (localEnd / mib2)
                  noCapacity k), s)

/-- An admitted shrink fixes its revoke count; a plane's move fixes the first count that waits for it. -/
def State.admitResize (s : State) (c : Cmd) : State :=
  let size := pk c.pkt 40 8
  s.modExtent (pk c.pkt 32 2) fun x =>
    let x := if size < x.size then { x with shrink := some (size, c.eff) } else x
    if x.hasPlane ∧ size != x.size then { x with moving := some (size, c.eff) } else x

/-- The stored page at which a page of the old layout lies in the new one; none when it goes (R66). -/
def movedPage (x : Extent) (size p : Nat) : Option Nat :=
  let y := { x with size := size }
  let q := if x.hasPlane ∧ planeStart x x.size ≤ p then p - planeStart x x.size + planeStart x size
    else if x.hasPlane ∧ planeStart x size ≤ p then y.pages else p
  if q < y.pages then some q else none

/-- Lines of a moved page that the new size still has. -/
def keptLines (x : Extent) (size q : Nat) {α : Type} (m : Sparse α) : Sparse α :=
  m.filter fun (l, _) => decide ((q * 1024 + l) * 64 < ({ x with size := size } : Extent).stored)

/-- Lines of page `p` as they stand at page `q` under a new size, decrypted and encrypted again for their new index;
tags are not encrypted (R66, R408). -/
def State.recode (s : State) (x : Extent) (size p q : Nat) (m : Sparse Cell) : Sparse Cell :=
  let y := { x with size := size }
  (keptLines x size q m).map fun (l, c) => (l, s.encCell y (1024 * q + l) (s.decCell x (1024 * p + l) c))

/-- A frame takes its place in the new layout, or its content goes to flash. -/
def State.placeFrame (s : State) (e : Nat) (x : Extent) (fr : Frame) (q : Nat) (env : ReadEnv) : State :=
  let (t, s) := s.takeFrame x.salt q (if fr.st = 2 ∨ fr.pinned ∨ fr.st = 5 then some (e, q) else none) env
  match t with
  | some (n, entry) => s.setFrame n { fr with entry := entry, page := q }
  | none => if fr.dirty then s.putImage (s.imageOf { fr with page := q } fr.ver) true else s

/-- An image stands where the new size puts its page: one that moves is programmed afresh, as relocation is (R66, R131,
R139). -/
def State.relayImage (s : State) (x : Extent) (size : Nat) (i : Image) : State :=
  let drop (s : State) : State := { s with fls := { s.fls with images := s.fls.images.erase i } }
  match movedPage x size i.page with
  | none => drop s
  | some q =>
    let ls := s.recode x size i.page q i.lines
    if q = i.page ∧ ls = i.lines then s else (drop s).putImage { i with page := q, lines := ls, retained := false } false

/-- Give an extent its new size: pages that go are discarded, those of the plane move, the rest stay; added
pages of a PINNED extent are wipe-pending (R65, R66). -/
def State.applySize (s : State) (e size : Nat) (env : ReadEnv) : State :=
  match s.extent e with
  | none => s
  | some x =>
    let s := if size < x.size ∧ x.composite then s.passTiles e x (size / pageBytes) else s
    let fs := s.dir.frames.filter fun (_, f) => f.ext == e
    let s := if x.hasPlane then fs.foldl (fun s (n, _) => s.flushFrame n env) s else s
    let fs := s.dir.frames.filter fun (_, f) => f.ext == e
    let gone := fs.filter fun (_, f) => movedPage x size f.page != some f.page
    let first (f : Frame) : Bool := f.st == 2 || f.st == 5 || f.pinned
    let order := (gone.filter fun (_, f) => first f) ++ gone.filter fun (_, f) => !(first f)
    let s := gone.foldl (fun s (n, _) => s.freeFrame n) s
    let y := { x with
      size := size, shrink := none, moving := none
      history := x.history.map fun h => { h with pages := h.pages.filterMap (movedPage x size) },
      pubs := x.pubs.map fun k => { k with pages := k.pages.filterMap (movedPage x size) } }
    let s := s.setExtent e y
    let s := order.foldl (fun s (_, f) => match movedPage x size f.page with
      | some q => s.placeFrame e y { f with
          lines := s.recode x size f.page q f.lines, errs := keptLines x size q f.errs } q env
      | none => s) s
    let s := (s.fls.images.filter (·.ext == e)).foldl (fun s i => s.relayImage x size i) s
    let moved (g : Program) : Option Program :=
      if g.img.ext = e then (movedPage x size g.img.page).map fun q =>
        { g with img := { g.img with page := q, lines := s.recode x size g.img.page q g.img.lines } }
      else some g
    let s := { s with
      fls := { s.fls with programs := s.fls.programs.filterMap moved },
      mxe := { s.mxe with
        jobs := s.mxe.jobs.filter fun j => !(j.ext == e && y.composite && decide (y.pages ≤ j.tile)),
        repin := s.mxe.repin.filter fun q => !(q.1 == e && y.composite && decide (y.pages ≤ q.2)) } }
    s.pinPages e y env

/-- Events of a finished RESIZE (R65). -/
def State.sizeEvents (s : State) (e old : Nat) : State :=
  match s.extent e with
  | none => s
  | some x =>
    let s := x.holders.foldl (fun s n => s.extentEvent n 2 e x) s
    if old < x.size then x.holders.foldl (fun s n => s.offer n e (x.base + old) (x.size - old)) s
    else x.holders.foldl (fun s n => s.takeBack n e (x.base + x.size) (old - x.size)) s

/-- A RESIZE whose count is reached: growth without a plane is done; a shrink's range is revoked. -/
def State.beginResize (s : State) (c : Cmd) (env : ReadEnv) : State :=
  let e := pk c.pkt 32 2
  let size := pk c.pkt 40 8
  match s.extent e with
  | none => s.finishCmd c.id 0 false 0
  | some x =>
    if size = x.size then s.finishCmd c.id 0 false 0
    else if size < x.size then s.staleWindows x none size
    else if x.hasPlane then s
    else
      let s := s.modCmd c.id fun c => { c with aux := [] }
      ((s.applySize e size env).sizeEvents e x.size).finishCmd c.id 0 false 0

/-- A RESIZE's last part is done. -/
def State.endResize (s : State) (c : Cmd) (env : ReadEnv) : State :=
  let e := pk c.pkt 32 2
  let size := pk c.pkt 40 8
  match s.extent e with
  | none => s.finishCmd c.id 0 false 0
  | some x =>
    let s := s.modCmd c.id fun c => { c with aux := [] }
    let s := ((s.applySize e size env).sizeEvents e x.size).finishCmd c.id 0 false
      (if size < x.size then countResult c.eff else 0)
    s.wake .move e env

/-- A request that meets the old layout is unfinished: stamped before the count. -/
def State.busyBefore (s : State) (e : Nat) (c : Cmd) : Bool :=
  (s.waiting.any fun r => r.ext == e && decide (r.stamp < c.eff)) ||
    s.cmds.any fun d => d.exts.contains e && d.id != c.id && decide (d.stamp < c.eff) && pkOp d.pkt != 0x51 &&
      pkOp d.pkt != 0x52

/-- RESIZE_MOVE_COMPLETE: the dependent plane has moved and waiting requests proceed (R66). -/
def execResizeMoveComplete (t ext : Nat) (env : ReadEnv) (s : State) : Host.Outcome State Fault Refusal :=
  let s := s.startEnv t env
  match s.cmds.find? fun c => c.phase == .running && pkOp c.pkt == 0x52 && pk c.pkt 32 2 == ext with
  | some c => .next (if s.busyBefore ext c then s else s.endResize c env)
  | none => .next s

/-- The shadow sets of a member's views that have ended go (R69). -/
def State.dropMember (s : State) (e m : Nat) (x : Extent) : State :=
  (x.endedViews.filter (·.1 == m)).foldl (fun s v => s.dropShadows e v.2) s

/-- What an extent held is free, and its REVOKE completes, once every request stamped before it is done (R68). -/
def State.endRevoke (s : State) (c : Cmd) (e : Nat) : State :=
  match s.extent e with
  | none => s.finishCmd c.id 0 false (countResult c.eff)
  | some x =>
    if s.busyExtent e then s
    else
      let s := x.holders.foldl (fun s n => s.extentEvent n 3 e x) (s.dropExtent e)
      (s.finishCmd c.id 0 false (countResult c.eff)).digestUpdate

/-- A membership ends, with the shadow sets of its member, once every request stamped before it is done (R69). -/
def State.endMembership (s : State) (c : Cmd) (e m : Nat) : State :=
  match s.extent e with
  | none => s.finishCmd c.id 0 false (countResult c.eff)
  | some x =>
    if s.busyMember e m then s
    else
      let s := (s.dropMember e m x).setExtent e { x with
        members := x.members.filter (·.1 != m)
        endedViews := x.endedViews.map fun v => if v.1 = m then (m, 0) else v }
      let s := x.holders.foldl (fun s n => s.extentEvent n 4 e x) s
      ((s.takeBack m e x.base x.size).release e).finishCmd c.id 0 false (countResult c.eff)

/-- REVOKE_COMPLETE: every request stamped before the revoke count is done; what the extent or the removed range
held is free (R65, R68, R69). -/
def execRevokeComplete (t cmd : Nat) (s : State) : Host.Outcome State Fault Refusal :=
  let s := s.start t
  match s.cmd cmd with
  | none => .next s
  | some c =>
    let e := pk c.pkt 32 2
    if c.phase != .running then .next s
    else if pkOp c.pkt = 0x52 then
      match s.extent e with
      | some x => .next (if s.busyBefore e c || x.hasPlane then s else s.endResize c noEnv)
      | none => .next (s.finishCmd cmd 0 false 0)
    else if pkOp c.pkt != 0x51 then .next s
    else .next (if pk c.pkt 24 1 = 0 then s.endRevoke c e else s.endMembership c e (pk c.pkt 25 1))

/-! ### QUERY (R278) -/

/-- Checks of QUERY; one at or after the revoke count is refused last (R67). -/
def State.checkQuery (s : State) (c : Ask) (_ : ReadEnv) : Verdict × State :=
  let p := c.p
  (match s.extent (pk p 32 2) with
    | none => refuse 0x0B
    | some x =>
      firstFail [(decide (3 < pk p 24 1) || !pkZero p 25 7 || !pkZero p 34 30, 0x0B),
        (c.a != 0 && x.rights c.a == 0, 0x0C),
        ((x.revokedAt c.a).any fun r => decide (r ≤ c.stamp), 4)] (.ok { tOp := 2000, exts := [pk p 32 2] }), s)

/-- Result of QUERY. -/
def State.queryResult (s : State) (a sel e : Nat) (x : Extent) : BitVec 96 :=
  match sel with
  | 0 => grantResult e x
  | 1 => result [(20, 8, x.size), (28, 1, x.owner), (29, 1, x.rights a)]
  | 2 => result [(20, 4, if x.sharing = 0 then 0 else x.ver),
      (24, 4, match x.view a with | some v => v.ver | none => 0), (28, 4, (s.shadowSet e (x.cmdSet a e [])).length)]
  | _ => result [(20, 4, x.frames), (24, 4, x.flash), (28, 4, (s.dir.frames.filter fun (_, f) => f.ext == e).length)]

/-- QUERY answers. -/
def State.beginQuery (s : State) (c : Cmd) (_ : ReadEnv) : State :=
  let e := pk c.pkt 32 2
  match s.extent e with
  | none => s.finishCmd c.id 0 false 0
  | some x => s.finishCmd c.id 0 false (s.queryResult c.allot (pk c.pkt 24 1) e x)

end Sys2Proof.Machine
end

