-- ==== Sys2Proof/Machine/Versions.lean ====
section
/-! DEFINITION. OPEN, PUBLISH and CLOSE, commits and back-invalidation (R87 to R104, R187, R376 to R378). -/

namespace Sys2Proof.Machine

open Sys2Proof

/-- The extent or the issuer's membership is revoked at a count. -/
def Extent.revokedBy (x : Extent) (a : Nat) (c : Count) : Bool :=
  match x.revokedAt a with | some r => decide (r ≤ c) | none => false

/-! ### What a shadow set holds at a count (R91, R94) -/

/-- Writes stamped before count `k` that have still to be done in shadow set `w`; command `id` aside (R94). -/
def State.lateReqs (s : State) (e a w : Nat) (k : Count) : List HostReq :=
  s.waiting.filter fun r => r.write && r.ext == e && r.allot == a && r.set == w && decide (r.stamp < k)
@[inherit_doc State.lateReqs] def State.lateCmds (s : State) (e : Nat) (x : Extent) (a w : Nat) (k : Count) (id : Nat) :
    List Cmd :=
  s.cmds.filter fun d => d.allot == a && d.id != id && decide (d.eff < k) && d.unfinished && x.cmdSet a e d.sets == w &&
    d.writes.any fun (b, _) => decide (x.base ≤ b) && decide (b < x.base + x.size)

/-- Stored pages that those writes touch. -/
def State.latePages (s : State) (e : Nat) (x : Extent) (a w : Nat) (k : Count) (id : Nat) : List Nat :=
  ((s.lateReqs e a w k).flatMap fun r => x.linePages ((r.laddr - x.base) / 64)) ++
  (s.lateCmds e x a w k id).flatMap fun d => d.writes.flatMap fun (b, n) =>
    if x.base ≤ b ∧ b < x.base + x.size then x.bytePages (b - x.base) n else []

/-- Pages of a shadow set as written by everything stamped before `k` (R94). -/
def State.setPages (s : State) (e : Nat) (x : Extent) (a w : Nat) (k : Count) (id : Nat) : List Nat :=
  (((s.shadowSet e w).map fun (q : Nat × Frame) => q.2.page) ++ s.latePages e x a w k id).eraseDups

/-! ### OPEN (R93, R104, R376, R378) -/

/-- Checks of OPEN that concern the view, at a count. -/
def State.openFault (s : State) (a e : Nat) (at' : Count) : Nat :=
  match s.extent e with
  | none => 0x0B
  | some x =>
    if x.sharing = 0 ∨ x.composite then 0x0B
    else if x.revokedBy a at' then 4
    else if x.rights a = 0 then 0x0C
    else if x.sharing = 2 ∧ !x.frozen then 0x0F
    else match x.view a with
      | some v => if v.spoiled ∨ !(s.setPages e x a v.set at' 0x10000000000000000).isEmpty then 3 else 0
      | none => 0

/-- Snoop-filter entries of the issuing logical device on an extent. -/
def State.snooped (s : State) (a : Nat) (x : Extent) : List Nat :=
  let k := s.ldOf a
  (((s.hport (k / 16)).snoop.filter fun (l, n) => l == k % 16 && decide (x.base ≤ 64 * n) &&
    decide (64 * n < x.base + x.size))).map (·.2)

/-- Checks of OPEN. -/
def State.checkOpen (s : State) (c : Ask) (_ : ReadEnv) : Verdict × State :=
  let e := pk c.p 24 2
  let f := s.openFault c.a e c.eff
  (match s.extent e with
    | none => refuse 0x0B
    | some x => firstFail [(!pkZero c.p 26 6 || !pkZero c.p 32 32, 0x0B), (f != 0, f)]
      (.ok { tOp := (if x.proxy then s.proxyBound x else 2000) + 2 * (s.snooped c.a x).length, exts := [e] }), s)

/-- Result of OPEN. -/
def openResult (new old : Nat) : BitVec 96 := result [(20, 4, new), (24, 4, old)]

/-- An allotment's view moves to a version, with the shadow set that it has or a new one (R93). -/
def Extent.openView (x : Extent) (a w : Nat) (at' : Count) : Extent :=
  let set := match x.view a with | some v => v.set | none => x.nextSet
  { x.setView ⟨a, w, false, set⟩ with nextSet := if set = x.nextSet then set + 1 else x.nextSet, openedAt := some at' }

/-- The issuer's view moves to a version; lines read at the older one are invalidated where the host enabled
HDM-DB, and the OPEN ends when the responses are in (R93, R104). -/
def State.moveView (s : State) (c : Cmd) (e : Nat) (x : Extent) (w : Nat) : State :=
  let old := match x.view c.allot with | some v => v.ver | none => 0
  let s := (s.setExtent e (x.openView c.allot w c.eff)).release e
  let pages := if old = 0 ∨ old = w then [] else
    (x.history.filter fun h => verLe h.ver w && verLe old h.ver && h.ver != old).flatMap (·.pages)
  let lines := if !(s.ld (s.ldOf c.allot)).hdmDb then [] else
    (s.snooped c.allot x).filter fun n => (x.linePages (n - x.base / 64)).any pages.contains
  let k := s.ldOf c.allot
  let s := lines.foldl (fun s n => s.backInvalidate (k / 16) (k % 16) n) s
  let s := s.modCmd c.id fun c => { c with left := lines, result := openResult w old }
  if lines.isEmpty then s.finishCmd c.id 0 false (openResult w old) else s

/-- OPEN takes effect. -/
def State.beginOpen (s : State) (c : Cmd) (_ : ReadEnv) : State :=
  let e := pk c.pkt 24 2
  let f := s.openFault c.allot e c.eff
  match s.extent e with
  | none => s.finishCmd c.id 0x0B false 0
  | some x =>
    if f != 0 then s.finishCmd c.id f false 0
    else if x.proxy then
      match s.route x.home with
      | none => (s.tamBit 3).finishCmd c.id 0x0E false 0
      | some _ =>
        let old := match x.view c.allot with | some v => v.ver | none => 0
        (s.tamRequest (s.message 0x13 c.cls x.home 0 (x.homeAddr 0) [old]) e 0 (some c.id)).2
    else s.moveView c e x (x.verAt c.eff)

/-- BISNP_RESPONSE: invalidated lines leave the filter; an OPEN with no line left ends, and loads that waited for
room are served (R104). -/
def execBisnpResponse (t port ld : Nat) (lines : List Nat) (s : State) : Host.Outcome State Fault Refusal :=
  let s := s.start t
  let k := ldKey port ld
  let s := s.modLd k fun d => { d with bisnp := d.bisnp.filter fun n => !lines.contains n }
  let s := s.modHport port fun h => { h with snoop := h.snoop.filter fun (l, n) => !(l == ld && lines.contains n) }
  let go := s.cmds.filter fun c => pkOp c.pkt == 0x30 && c.phase == .running && s.ldOf c.allot == k && !c.left.isEmpty
  let s := go.foldl (fun s c =>
    let left := c.left.filter fun n => !lines.contains n
    let s := s.modCmd c.id fun c => { c with left := left }
    if left.isEmpty then s.finishCmd c.id 0 false c.result else s) s
  .next (s.wake .filter 0 noEnv)

/-! ### PUBLISH (R94 to R99, R102) -/

/-- The freezing PUBLISH (R102). -/
def Extent.freezing (x : Extent) (a base : Nat) : Bool := x.sharing == 2 && !x.frozen && x.owner == a && base == 0

/-- Checks 1 to 4 of R95; check 4 is the home's on a proxy. -/
def State.publishFault (s : State) (a e base : Nat) (at' : Count) : Nat :=
  match s.extent e with
  | none => 0x0B
  | some x =>
    let fz := x.freezing a base
    if x.sharing = 0 ∨ x.composite ∨ (!fz ∧ (x.view a).isNone ∧ !(x.endedViews.any (·.1 == a))) then 0x0B
    else if !fz ∧ (x.view a).isNone then 4
    else if x.rights a != 2 then 0x0C
    else if x.revokedBy a at' then 4
    else if !x.proxy ∧ (x.view a).any (·.spoiled) then 2
    else 0

/-- Page sets published after version `base` up to the pending version. -/
def Extent.since (x : Extent) (base : Nat) : List (Nat × List Nat) :=
  ((x.history.map fun h => (h.ver, h.pages)) ++ x.pubs.map fun k => (k.ver, k.pages)).filter fun (v, _) =>
    v != base && verLe base v

/-- Checks 5 and 6 of R95 and the wrap of R98: reason and page (R99). -/
def State.conflict (s : State) (e : Nat) (x : Extent) (base : Nat) (pages : List Nat) : Option (Nat × Nat) :=
  let pend := x.pending
  if base != pend ∧ !x.merging then some (1, 0)
  else if base != pend ∧ (base = 0 ∨ 16 < verDist base pend) then some (3, 0)
  else
    let hit := sortBy (fun (a b : Nat) => decide (a < b))
      (pages.filter fun p => base != pend && (x.since base).any fun (_, l) => l.contains p)
    match hit with
    | p :: _ => some (2, p)
    | [] =>
      let o := s.oldestHeld e x
      if o != 0 ∧ 2 ^ 31 - 1 ≤ verDist o (verNext pend) then some (4, 0) else none

/-- Checks of PUBLISH. -/
def State.checkPublish (s : State) (c : Ask) (_ : ReadEnv) : Verdict × State :=
  let e := pk c.p 24 2
  let base := pk c.p 28 4
  (match s.extent e with
    | none => refuse 0x0B
    | some x =>
      let w := x.cmdSet c.a e []
      let set := s.shadowSet e w
      let pages := s.setPages e x c.a w c.eff (2 ^ 64)
      let fz := x.freezing c.a base
      let empty := pages.isEmpty && !fz
      let f := s.publishFault c.a e base c.eff
      let f := if f = 2 ∧ empty then 0 else f
      let n := pages.length
      let raw := sumN (set.map fun (_, g) => 1024 - g.copied.length) + 1024 * (n - set.length)
      let sMin := maxN 0 ((s.cmds.filter fun d => d.allot == c.a && decide (d.stamp < c.eff) &&
        d.writes.any fun (b, _) => decide (x.base ≤ b) && decide (b < x.base + x.size)).map (·.promise))
      let w : Want := { exts := [e], sMin := sMin }
      let w : Want := if empty then w
        else if fz then { w with tOp := 2000, ledger := (x.pubHorizon, 2000) }
        else { w with
          ledger := (x.pubHorizon, 2000 + 2 * n), tOp := if x.proxy then s.proxyBound x else 0
          dem := demand [(0, 2048 * raw), (2, if x.tier = 2 then 16 * pageBytes * n else 0)] }
      if !pkZero c.p 26 2 || !pkZero c.p 32 32 then refuse 0x0B
      else if f = 2 then .refuse 2 (result [(20, 4, x.pending), (28, 4, 5)])
      else if f != 0 then refuse f
      else match (if empty ∨ x.proxy then none else s.conflict e x base pages) with
        | some (why, p) => .refuse 3 (result [(20, 4, x.pending), (24, 4, p), (28, 4, why)])
        | none => .ok w, s)

/-- An admitted PUBLISH becomes the pending version (R95) and takes its place in the publish ledger (R97). -/
def State.admitPublish (s : State) (c : Cmd) (w : Want) : State :=
  s.modExtent (pk c.pkt 24 2) fun x =>
    if w.ledger.2 = 0 then x
    else
      let x := { x with pubHorizon := Nat.max x.pubHorizon (Nat.max c.eff w.sMin) + w.ledger.2 }
      if x.proxy then x
      else
        let w := x.cmdSet c.allot (pk c.pkt 24 2) []
        { x with pubs := x.pubs ++ [⟨c.id, c.allot, c.eff, verNext x.pending,
          s.setPages (pk c.pkt 24 2) x c.allot w c.eff c.id, noView, w, none, false⟩] }

/-- Nothing was published: the current version (R98). -/
def State.publishNothing (s : State) (c : Cmd) (x : Extent) : State :=
  s.finishCmd c.id 0 false (result [(20, 4, x.ver)])

/-- A decrypted page as a message carries it: lines, mask values and lengths (R379). -/
def pageLines (f : Frame) : List (Nat × Nat × Line) :=
  f.lines.map fun (l, c) => match c with
    | .data v => (l, 0, v)
    | .marker r _ => (l, if r = 1 then 1 else 2, 0)

/-- A length-map record as its 32 bytes. -/
def lensRecord (m : Sparse Nat) : BitVec 256 :=
  BitVec.ofNat 256 (m.foldl (fun v (b, n) => v + at_ (4 * b) 4 n) 0)

/-- A frame's page in a message; unlisted lines are unwritten. A compressed one holds the first L lines of each
block (R379). -/
def State.pageMessage (s : State) (m : TamMsg) (f : Frame) (compressed : Bool) : TamMsg :=
  { m with
    flags := m.flags + (if compressed then 1 else 0)
    lines := if compressed then (pageLines f).filter fun (l, _) => decide (l % 16 ≤ sget 0 f.lens (l / 16)) else pageLines f
    lens := lensRecord f.lens, src := s.myId }

/-- Lines of a frame as a page move reads them, decrypted: a line that stays uncorrectable goes as a marker, and is
handed to its frame's handling when the page has been read (R295, R379). -/
def State.pageCells (s : State) (n : Nat) (f : Frame) (env : ReadEnv) : Frame × State :=
  let r := f.lines.foldl (fun (acc : Sparse Cell × List Nat × State) (l, _) =>
    let o := acc.2.2.readLine n l env false
    match o.1 with
    | .data v => (acc.1 ++ [(l, .data v)], acc.2.1, o.2)
    | .marker k => (acc.1 ++ [(l, .marker k o.2.now)], acc.2.1, o.2)
    | .bad _ => (acc.1 ++ [(l, .marker 2 o.2.now)], acc.2.1 ++ [l], o.2)) ([], [], s)
  ({ f with lines := r.1 }, r.2.1.foldl (fun s l => s.handUe n l) r.2.2)

/-- A shadow page goes to the home of its proxy, and its frame waits for the answer (R376). -/
def State.sendShadow (s : State) (x : Extent) (cls base n : Nat) (env : ReadEnv) : State :=
  match s.frame n with
  | none => s
  | some f =>
    let (g, s) := s.pageCells n f env
    (s.tamSend (s.pageMessage (s.message 0x12 cls x.home 0 (x.homeAddr f.page) [base]) g (x.codec == 1))).modFrame n
      fun f => { f with fillVer := 2 ^ 32 }

/-- The copies of a shadow set are finished (R94). -/
def State.completeSet (s : State) (set : List (Nat × Frame)) (env : ReadEnv) : State :=
  let s := set.foldl (fun s (n, _) => s.copyShadow n (List.range 1024) env) s
  set.foldl (fun s (n, _) => s.flushFrame n env) s

/-- A proxy sends its set home and asks for the publish (R376); of a pair, the LEAD alone does, and the other part keeps
its set until it hears the answer (R443). -/
def State.publishHome (s : State) (c : Cmd) (e : Nat) (x : Extent) (env : ReadEnv) : State :=
  let base := pk c.pkt 28 4
  let set := (s.shadowSet e (x.cmdSet c.allot e [])).filter fun (_, f) => !f.cut
  let s := s.completeSet set env
  match s.route x.home with
  | none => (s.tamBit 3).finishCmd c.id 0x0E false 0
  | some _ =>
    if s.follows then
      (set.foldl (fun s (n, _) => s.modFrame n fun f => { f with fillVer := 2 ^ 32 }) s).modCmd c.id fun c =>
        { c with left := [2 ^ 65] }
    else
    let s := set.foldl (fun s (n, _) => s.sendShadow x c.cls base n env) s
    (s.tamRequest (s.message 0x15 c.cls x.home 0 (x.homeAddr 0) [base, set.length]) e 0 (some c.id)).2

/-- Writes of an allotment that come at or after count `k` go from shadow set `w` to set `v`, whose base is version
`ver`; a command stamped before `k` that has still to begin keeps `w` (R94). -/
def State.moveSet (s : State) (e a w v ver : Nat) (k : Count) : State :=
  { s with
    waiting := s.waiting.map fun (r : HostReq) =>
      if r.ext = e ∧ r.allot = a ∧ r.set = w ∧ k ≤ r.stamp then { r with set := v, ver := ver } else r
    cmds := s.cmds.map fun (c : Cmd) =>
      if c.allot != a then c
      else if k ≤ c.eff then
        { c with sets := c.sets.map fun q => if q = (e, w) then (e, v) else q }
      else if c.unfinished && c.exts.contains e && (c.sets.find? fun q => q.1 == e).isNone then
        { c with sets := (e, w) :: c.sets }
      else c }

/-- The set is fixed: its copies are finished, and the publisher's view holds the new version with a fresh, empty set
(R94). -/
def State.cutPublish (s : State) (c : Cmd) (e : Nat) (x : Extent) (pages : List Nat) (env : ReadEnv) : State :=
  let w := x.cmdSet c.allot e []
  let set := s.shadowSet e w
  let s := s.completeSet set env
  let v := match x.pubs.find? (·.cmd == c.id) with | some k => k.ver | none => verNext x.pending
  let old := match x.view c.allot with | some y => y.ver | none => 0
  let k : PendPub := ⟨c.id, c.allot, c.eff, v, pages, old, w, none, false⟩
  let s := s.modExtent e fun y => { y.setView ⟨c.allot, v, false, x.nextSet⟩ with
    nextSet := x.nextSet + 1
    pubs := if y.pubs.any (·.cmd == c.id) then y.pubs.map fun j => if j.cmd = c.id then k else j else y.pubs ++ [k] }
  let s := set.foldl (fun s (n, _) => s.modFrame n fun f => { f with fillVer := v }) s
  s.moveSet e c.allot w x.nextSet v c.eff

/-- The pending version as the checks of a PUBLISH met it: that of the PUBLISHes admitted before it (R95, R99). -/
def Extent.pendingBefore (x : Extent) (id : Nat) : Nat :=
  ({ x with pubs := x.pubs.takeWhile (·.cmd != id) } : Extent).pending

/-- The cut count of a PUBLISH: checks 1, 3 and 4 are made again, and 4 to 6 for the first time where the set was empty
at admission; then the set is fixed (R94, R95, R98, R477). A proxy sends its pages home once the writes before the count
are done (R376). -/
def State.beginPublish (s : State) (c : Cmd) (env : ReadEnv) : State :=
  let e := pk c.pkt 24 2
  let base := pk c.pkt 28 4
  match s.extent e with
  | none => s.finishCmd c.id 0x0B false 0
  | some x =>
    let drop (s : State) := s.modExtent e fun x => { x with pubs := x.pubs.filter (·.cmd != c.id) }
    let pend := x.pendingBefore c.id
    let w := x.cmdSet c.allot e []
    let pages := s.setPages e x c.allot w c.eff c.id
    let f := s.publishFault c.allot e base c.eff
    let f := if f = 2 ∧ pages.isEmpty then 0 else f
    if f != 0 then
      (drop s).finishCmd c.id f false (if f = 2 then result [(20, 4, pend), (28, 4, 5)] else 0)
    else if x.freezing c.allot base then s.modExtent e fun x => { x with
      pubs := x.pubs.map fun k => if k.cmd = c.id then { k with base := 0, pages := [] } else k }
    else if pages.isEmpty then (drop s).publishNothing c x
    else if x.proxy then
      if (s.lateReqs e c.allot w c.eff).isEmpty && (s.lateCmds e x c.allot w c.eff c.id).isEmpty then s.publishHome c e x env
      else s.modCmd c.id fun c => { c with left := [2 ^ 64] }
    else match (if x.pubs.any (·.cmd == c.id) then none else s.conflict e x base pages) with
      | some (why, p) => s.finishCmd c.id 3 false (result [(20, 4, x.pending), (24, 4, p), (28, 4, why)])
      | none => s.cutPublish c e x pages env

/-- A page's superseded frames and images are kept as RETAINED; `release` frees what nothing holds (R96, R101). -/
def State.supersede (s : State) (e p w : Nat) : State :=
  let s := { s with dir := { s.dir with frames := s.dir.frames.map fun ((n, f) : Nat × Frame) =>
    if f.ext = e ∧ f.page = p ∧ (f.st = 1 ∨ f.st = 2 ∨ f.st = 4) ∧ f.ver != w then
      (n, { f with st := 6, dirty := false, pinned := false, charged := false })
    else (n, f) } }
  { s with fls := { s.fls with images := s.fls.images.map fun (i : Image) =>
    if i.ext = e ∧ i.page = p ∧ i.ver != w then { i with retained := true } else i } }

/-- A published shadow frame becomes the page's current frame, by tier; one that goes to flash takes what the merge
buffer holds of it along (R96). -/
def State.promote (s : State) (e : Nat) (x : Extent) (n : Nat) (f : Frame) (w : Nat) : State :=
  let locked := (s.framesOf e f.page).any fun (_, g) => g.pinned && g.charged && g.st == 2
  let s := s.supersede e f.page w
  let s := if x.tier = 2 then s.flushFrame n noEnv else s
  let f := (s.frame n).getD f
  let g := { f with ver := w, fillVer := 0, writer := 0, copied := [], set := 0 }
  if x.tier = 0 then s.setFrame n { g with st := 2 }
  else if x.tier = 2 then (s.putImage (s.imageOf g w) true).freeFrame n
  else if locked then s.setFrame n { g with st := 2, dirty := true, pinned := true, charged := true }
  else s.setFrame n { g with st := 1, dirty := true, hint := s.hintLevel e }

/-- Commit counts that are still asked for: the current version's, and back to the one current at the earliest count at
which an OPEN is still to take effect (R93). -/
def State.keepCommits (s : State) (e : Nat) (l : List (Nat × Count)) : List (Nat × Count) :=
  let m := ((s.cmds.filter fun c => pkOp c.pkt == 0x30 && c.phase == .held && c.exts.contains e).map (·.eff)).foldl Nat.min s.now
  match l.findIdx? fun q => decide (q.2 ≤ m) with
  | some i => l.take (i + 1)
  | none => l

/-- Page sets that checks and invalidations still need: the last 16, and those newer than the oldest held
version. -/
def State.keepHistory (s : State) (e : Nat) (x : Extent) : List PageSet :=
  let o := s.oldestHeld e x
  let h := x.history
  (h.zipIdx.filter fun (k, i) => decide (h.length < i + 17) || (verLe o k.ver && k.ver != o)).map (·.1)

/-- The count at which a version commits: this one, and the next where an OPEN has just taken the version before it
(R93, R96). -/
def State.commitCount (s : State) (x : Extent) : Count := if x.openedAt = some s.now then s.now + 1 else s.now

/-- A version commits (R96, R101 to R103, R187). -/
def State.commit (s : State) (e : Nat) (k : PendPub) (fz : Bool) : State :=
  match s.extent e with
  | none => s
  | some x =>
    let fs := if fz then [] else s.dir.frames.filter fun (_, f) => f.ext == e && f.cut && f.fillVer == k.ver
    let pages := (fs.map fun (_, f) => f.page).eraseDups
    let s := fs.foldl (fun s (n, f) => s.promote e x n f k.ver) s
    let s := s.retagTiles e x.ver k.ver pages
    let s := s.modExtent e fun x =>
      let y := { x with ver := k.ver, commits := s.keepCommits e ((k.ver, s.commitCount x) :: x.commits)
                        pubs := x.pubs.filter (· != k)
                        history := x.history ++ [⟨k.ver, pages⟩], frozen := x.frozen || fz }
      if fz then { y.setView ⟨k.allot, 1, false, y.nextSet⟩ with nextSet := y.nextSet + 1 } else y
    let s := s.modExtent e fun x => { x with history := s.keepHistory e x }
    let s := s.release e
    if bitOf s.ext.ctrl 0 then
      (x.views.filter fun v => v.allot != k.allot).foldl (fun s v =>
        s.post v.allot 3 [(16, 2, e), (18, 1, k.allot), (20, 4, k.ver), (24, 8, s.commitCount x)]) s
    else s

/-- Writes stamped before the cut that are not done (R94). -/
def State.writesBefore (s : State) (e a w : Nat) (x : Extent) (k : Count) (id : Nat) : Bool :=
  !(s.lateReqs e a w k).isEmpty || !(s.lateCmds e x a w k id).isEmpty

/-- Lines written after the cut go back under a shadow frame of the set that was cut. -/
def State.joinFrame (s : State) (e w n : Nat) (base : Nat) : State :=
  match s.frame n with
  | none => s
  | some g => match s.shadowOf e g.page w with
    | none => s.modFrame n fun f => { f with set := w, ver := base }
    | some m =>
      let s := (s.flushFrame n noEnv).flushFrame m noEnv
      let g := (s.frame n).getD g
      let s := s.modFrame m fun f => { f with lens := g.copied.foldl (fun t l => sput 0 t (l / 16) (sget 0 g.lens (l / 16))) f.lens }
      (g.copied.foldl (fun s l => s.moveLine n m l noEnv) s).freeFrame n

/-- A PUBLISH is refused after its cut: the view and its shadow set stand as if it had not been, SPOILED (R91, R94,
R95). -/
def State.unpublish (s : State) (e : Nat) (k : PendPub) : State :=
  let s := s.modExtent e fun y => { y with pubs := y.pubs.filter (· != k) }
  match (s.extent e).bind fun x => (x.view k.allot).filter (·.ver == k.ver) with
  | none => s.dropShadows e k.set
  | some v =>
    let s := (s.shadowSet e k.set).foldl (fun s (n, _) => s.modFrame n fun f => { f with fillVer := 0 }) s
    let s := (s.shadowSet e v.set).foldl (fun s (n, _) => s.joinFrame e k.set n k.base) s
    (s.moveSet e k.allot v.set k.set k.base 0).modExtent e fun y => y.setView ⟨k.allot, k.base, true, k.set⟩

/-- Publishes of other parts commit once those before them have, and are answered (R376). -/
def State.remoteCommits (s : State) (e : Nat) : Nat → State
  | 0 => s
  | n + 1 =>
    match (s.extent e).bind fun x => x.pubs.head?.map fun k => (x, k) with
    | none => s
    | some (x, k) =>
      match k.src with
      | none => s
      | some (src, tag) =>
        let s := s.commit e k false
        let s := if src = s.partnerId then s else
          s.tamSend { s.message 0x16 0 src tag x.base [k.ver, k.pages.length, 0] with flags := 2 }
        State.remoteCommits s e n

/-- Cells of a page in a message. -/
def msgCells (now : Count) (m : TamMsg) : Sparse Cell :=
  m.lines.foldl (fun l (i, k, v) => sins l i (if k = 0 then .data v else if k = 1 then .marker 1 now else .marker 7 now)) []

/-- Nibbles of a length-map record. -/
def msgLens (m : TamMsg) : Sparse Nat := (List.range 64).foldl (fun l b => sput 0 l b (fld m.lens (4 * b) 4)) []

/-- The cells of page `p` of a message, encrypted under the extent's key (R379). -/
def State.codedCells (s : State) (x : Extent) (p : Nat) (ls : Sparse Cell) : Sparse Cell :=
  ls.map fun (l, c) => (l, s.encCell x (1024 * p + l) c)

/-- The tag page `g` of a sealed extent with the tags of the lines of data page `d`, which stands in frame `f`, formed
under the extent's own key (R17, R379; assumption 99). -/
def State.tagsOf (s : State) (x : Extent) (d : Nat) (f g : Frame) : Frame :=
  f.lines.foldl (fun g (l, c) => match c with
    | .data w =>
      let i := 1024 * d + l
      let o := x.size + 8 * i
      let t : Line := BitVec.ofNat 512 (s.tagOf x i (s.decLine x i w) <<< (8 * (o % 64)))
      { g with lines := g.lines.map fun (k, q) =>
          if k = o % pageBytes / 64 then (k, pokeCell (byteMask (o % 64) 8) t q) else (k, q) }
    | .marker _ _ => g) g

/-- Tags of data page `d` of a sealed extent are put into the tag page that came with it, both in frames (R379). -/
def State.sealFrames (s : State) (x : Extent) (d n m : Nat) : State :=
  match s.frame n, s.frame m with
  | some f, some g => if f.st = 3 ∨ g.st = 3 then s else s.setFrame m (s.tagsOf x d f g)
  | _, _ => s

/-- Data pages whose tags lie in stored page `p`, with that page; of a data page its own tag page (R410). -/
def Extent.tagPairs (x : Extent) (p : Nat) : List (Nat × Nat) :=
  if !x.sealed then []
  else if p < x.size / pageBytes then [(p, (x.size + 8192 * p) / pageBytes)]
  else ((List.range 8).map fun i => ((p * pageBytes - x.size) / 8192 + i, p)).filter fun (d, _) => decide (d < x.size / pageBytes)

/-- Pages that a remote publish brings become shadow frames of no allotment; none where a frame is wanting. -/
def State.placePages (s : State) (e : Nat) (x : Extent) (l : List InPage) (v : Nat) : Option (List (Nat × Nat) × State) :=
  l.foldl (fun (acc : Option (List (Nat × Nat) × State)) i =>
    match acc with
    | none => none
    | some (got, s) =>
      let (t, s) := s.takeFrame x.salt i.page (some (e, i.page)) noEnv
      match t with
      | none => none
      | some (n, entry) =>
        some (got ++ [(i.page, n)], s.setFrame n { Frame.fresh entry e i.page 5 x.ver with
          writer := 64, lines := s.codedCells x i.page i.lines, lens := i.lens, fillVer := v
          copied := List.range 1024 })) (some ([], s))

/-- Pages placed for a remote publish get their tags (R379). -/
def State.sealPlaced (s : State) (x : Extent) (got : List (Nat × Nat)) : State :=
  got.foldl (fun s (p, n) =>
    if x.size / pageBytes ≤ p then s
    else (x.tagPairs p).foldl (fun s (d, q) => match got.find? (·.1 == q) with
      | some (_, m) => s.sealFrames x d n m
      | none => s) s) s

/-- A publish of another part is checked and takes its place among the pending ones (R95, R376); `quiet` where the
LEAD of the pair, which has its partner apply it too, answers it (R443). -/
def State.remotePublish (s : State) (m : TamMsg) (e : Nat) (x : Extent) (quiet : Bool) : State :=
  let s := if s.tam.pair = 1 ∧ !quiet then s.portSend 3 { m with type := 0x22, dst := s.partnerId, nums := 0x15 :: m.nums } else s
  let mine := x.inPages.filter (·.src == m.src)
  let pages := mine.map (·.page)
  let rest := { x with inPages := x.inPages.filter (·.src != m.src) }
  let no (s : State) (p why : Nat) := if quiet then s else s.tamReply m 0x16 5 [x.pending, p, why]
  match s.conflict e x (nth m.nums 0) pages with
  | some (why, p) => no (s.setExtent e rest) p why
  | none =>
    let v := verNext x.pending
    match s.placePages e x mine v with
    | none => no (s.setExtent e rest) 0 5
    | some (got, s) =>
      let k : PendPub :=
        ⟨2 ^ 64, 0xFF, s.now, v, pages, nth m.nums 0, 0, some (if quiet then s.partnerId else m.src, m.tag), false⟩
      let s := (s.sealPlaced x got).modExtent e fun y => { y with inPages := rest.inPages, pubs := y.pubs ++ [k] }
      s.remoteCommits e (match s.extent e with | some y => y.pubs.length | none => 0)

/-- The writes before K are done, and the PUBLISH is the first of the pending ones: it commits, or is refused where one
of those writes found no shadow frame (R91, R94 to R96). The freezing PUBLISH answers 0 frames (assumption 97). -/
def State.settlePublish (s : State) (c : Cmd) (e : Nat) (x : Extent) (k : PendPub) : State :=
  if k.bad then (s.unpublish e k).finishCmd c.id 2 false (result [(20, 4, x.ver), (28, 4, 5)])
  else
    let fz := x.freezing c.allot (pk c.pkt 28 4)
    let n := if fz then 0 else (s.dir.frames.filter fun (_, f) => f.ext == e && f.cut && f.fillVer == k.ver).length
    let s := (s.commit e k fz).remoteCommits e x.pubs.length
    let s := if fz ∧ c.queue = 4096 then s.modExtent e fun y => y.dropView c.allot else s
    s.finishCmd c.id 0 false (result [(20, 4, k.ver), (24, 4, n)])

/-- PUBLISH_COMMIT: all writes before K are done, and the pending versions before this one are in (R94, R96); a proxy's
set goes home now where it has waited for those writes (R376). -/
def execPublishCommit (t cmd : Nat) (s : State) : Host.Outcome State Fault Refusal :=
  let s := s.start t
  match s.cmd cmd with
  | none => .next s
  | some c =>
    let e := pk c.pkt 24 2
    if c.phase != .running ∨ pkOp c.pkt != 0x31 then .next s
    else match s.extent e with
    | none => .next s
    | some x =>
      if c.cutWaits then
        if s.writesBefore e c.allot (x.cmdSet c.allot e []) x c.eff cmd then .next s
        else .next (((s.modCmd cmd fun c => { c with left := [] }).beginPublish { c with left := [] } noEnv).drainOrder noEnv)
      else match x.pubs with
      | [] => .next s
      | k :: _ =>
        if k.cmd != cmd ∨ s.now < c.eff ∨ s.writesBefore e c.allot k.set x c.eff cmd then .next s
        else .next (s.settlePublish c e x k)

/-! ### CLOSE (R100, R378) -/

/-- Checks of CLOSE at a count. -/
def State.closeFault (s : State) (a e : Nat) (at' : Count) : Nat :=
  match s.extent e with
  | none => 0x0B
  | some x => if x.revokedBy a at' then 4 else if (x.view a).isNone then 0x0B else 0

/-- Checks of CLOSE. -/
def State.checkClose (s : State) (c : Ask) (_ : ReadEnv) : Verdict × State :=
  let e := pk c.p 24 2
  let f := s.closeFault c.a e c.eff
  (match s.extent e with
    | none => refuse 0x0B
    | some x => firstFail [(f != 0, f), (!pkZero c.p 26 6 || !pkZero c.p 32 32, 0x0B)]
      (.ok { tOp := if x.proxy then s.proxyBound x else 2000, exts := [e] }), s)

/-- CLOSE takes effect: the set is discarded and the view ends. -/
def State.beginClose (s : State) (c : Cmd) (_ : ReadEnv) : State :=
  let e := pk c.pkt 24 2
  let f := s.closeFault c.allot e c.eff
  match s.extent e with
  | none => s.finishCmd c.id 0x0B false 0
  | some x =>
    if f != 0 then s.finishCmd c.id f false 0
    else
      let w := x.cmdSet c.allot e []
      let n := (s.shadowSet e w).length
      let s := ((s.dropShadows e w).keepView e c.allot x).setExtent e (x.dropView c.allot)
      let s := if x.proxy then s.closeRemote e x else s
      (s.release e).finishCmd c.id 0 false (result [(20, 4, n)])

end Sys2Proof.Machine
end

