-- ==== Sys2Proof/Machine/Snapshots.lean ====
section
/-! DEFINITION. SNAPSHOT, DRAIN and RESTORE, and the page programs that commands wait for (R131, R134, R140 to R148,
R298). -/

namespace Sys2Proof.Machine

open Sys2Proof

/-! ### Operands and checks (R140, R141, R144 to R146) -/

/-- Operands of the three commands; the destination stands for itself in DRAIN. -/
structure SnapOp where
  src : Nat
  dst : Nat
  soff : Nat
  doff : Nat
  len : Nat
  deriving DecidableEq, Repr

/-- They stand in the packet. -/
def snapOf (p : Packet) : SnapOp :=
  if pkOp p = 0x41 then ⟨pk p 24 2, pk p 24 2, pk p 32 8, pk p 32 8, pk p 48 8⟩
  else ⟨pk p 24 2, pk p 26 2, pk p 32 8, pk p 40 8, pk p 48 8⟩

/-- 64 KiB units of a range. -/
def SnapOp.units (o : SnapOp) : List Nat := List.range (o.len / pageBytes)

/-- Pages of a range that are charged as not resident: every one but those of a PINNED extent (R42, R144, R260). -/
def Extent.coldPages (x : Extent) (off len : Nat) : Nat := if x.tier = 0 then 0 else (x.bytePages off len).length

/-- A read source or a written destination is out of reach (R88, R140). -/
def State.snapAccess (s : State) (a : Nat) (e : Nat) (write reads : Bool) : Bool :=
  match s.extent e with
  | none => true
  | some x => x.rights a == 0 || (write && x.rights a != 2) ||
      (reads && x.sharing != 0 && !x.inPlace a && (x.view a).isNone)

/-- Checks of SNAPSHOT, DRAIN and RESTORE. -/
def State.checkSnap (s : State) (c : Ask) (_ : ReadEnv) : Verdict × State :=
  let p := c.p
  let op := pkOp p
  let o := snapOf p
  let drain := op == 0x41
  (match s.extent o.src, s.extent o.dst with
    | some x, some y =>
      let access := s.snapAccess c.a o.src false (!drain) || (!drain && s.snapAccess c.a o.dst true (op == 0x42))
      let same := x.codec == y.codec && bitOf x.attr 21 == bitOf y.attr 21 && x.sealed == y.sealed
      let cond := if drain then !x.composite && x.tier != 0
        else if op = 0x40 then !x.composite && y.sharing == 0 && y.tier == 2 && y.owner == c.a && same
        else x.tier == 2 && !y.composite && y.tier != 2 && same
      let reserved := !pkZero p 28 4 || !pkZero p 56 8 || (drain && (!pkZero p 26 2 || !pkZero p 40 8))
      let bad := reserved || o.soff % pageBytes != 0 || o.doff % pageBytes != 0 || o.len % pageBytes != 0 || o.len == 0 ||
        decide (x.size < o.soff + o.len) || decide (y.size < o.doff + o.len) || !cond
      let rs : Rng := ⟨x.base + o.soff, o.len, false⟩
      let rd : Rng := ⟨y.base + o.doff, o.len, true⟩
      let hit (r : Rng) (d : Cmd) := d.writes.any fun (b, n) => r.overlaps ⟨b, n, true⟩
      let sMin := maxN 0 ((s.cmds.filter fun d => decide (d.stamp < c.eff) && (hit rs d || hit rd d)).map (·.promise))
      let cut (z : Extent) (b : Nat) : Bool := z.isRevoked c.a c.stamp b || z.isRevoked c.a c.stamp (b + o.len - 1)
      let gone := cut x o.soff || cut y o.doff
      let bytes := 16 * storedBytes y.codec o.len y.sealed
      let want : Want :=
        if drain then
          let n := ((x.bytePages o.soff o.len).filter fun q => match s.locate o.src q x.ver with
            | .frame k => (s.frame k).any fun f => f.st == 1 && f.dirty
            | _ => false).length
          let thru := (s.fls.programs.filter fun g => g.cmd.isNone && g.frame.isNone && g.img.ext == o.src &&
            (x.bytePages o.soff o.len).contains g.img.page).length
          { dem := demand [(2, 16 * pageBytes * (n + thru))], tOp := 2000000, exts := [o.src], stations := [stFlash]
            reads := if x.versioned then [] else [(rs.addr, rs.len)] }
        else if op = 0x40 then
          { dem := demand [(0, 16 * o.len), (1, 16 * pageBytes * if x.proxy then 0 else x.coldPages o.soff o.len),
                           (5 + s.proxyPort x, if x.proxy then 16 * 70400 * x.coldPages o.soff o.len else 0), (2, bytes)]
            tOp := 2000000 + s.flashTerm [rs], exts := [o.src, o.dst].eraseDups, sMin := sMin
            reads := [(rs.addr, rs.len)], writes := [(rd.addr, rd.len)], left := o.units, stations := [stFlash] }
        else
          { s.wantRanges c [rs, rd] [(1, bytes), (0, 16 * o.len)] 400000 with
            left := o.units, stations := [stFlash] }
      firstFail [(access, 0x0C), (o.soff % 64 != 0 || o.doff % 64 != 0 || o.len % 64 != 0, 5), (bad, 0x0B), (gone, 4),
        (!drain && s.writeLocked c.stamp rd, 3)] (.ok want)
    | _, _ => refuse 0x0B, s)

/-! ### Reading a unit as it is carried (R142, R147) -/

/-- What is carried from a unit: cells, whether poison other than unwritten was met, and a damaged block. -/
structure Carried where
  cells : List Cell
  poison : Bool
  damaged : Bool
  deriving DecidableEq, Repr

/-- One logical line as it is carried. -/
def carry (now : Count) (acc : Carried) (r : Read) : Carried :=
  match r with
  | .ok v => { acc with cells := acc.cells ++ [.data v] }
  | .poison 1 => { acc with cells := acc.cells ++ [.marker 1 now] }
  | .damaged => ⟨acc.cells ++ [.marker 5 now], true, true⟩
  | _ => { acc with cells := acc.cells ++ [.marker 7 now], poison := true }

/-- Logical lines of a 64 KiB unit of an extent. -/
def State.carryUnit (s : State) (e : Nat) (x : Extent) (a v off : Nat) (env : ReadEnv) : Carried × State :=
  (List.range 1024).foldl (fun (acc : Carried × State) i =>
    let (r, s) := acc.2.readLogical e x a v (off / 64 + i) env
    (carry s.now acc.1 r, s)) (⟨[], false, false⟩, s)

/-- Pages of a source are read from their frames as stored: what the merge buffer holds of them is encoded and written
first (R167). -/
def State.flushPages (s : State) (e : Nat) (k v : Nat) (ps : List Nat) (env : ReadEnv) : State :=
  ps.foldl (fun s p =>
    let s := match s.shadowOf e p k with | some n => s.flushFrame n env | none => s
    match s.locate e p v with | .frame n => s.flushFrame n env | _ => s) s

/-- What a stored line becomes in a copy, and whether it counts as poison; so does a scale byte of a lost group
(R172). -/
def carriedCell (scale : Bool) (now : Count) : LineOut → Cell × Bool
  | .data d => (.data d, scale && (List.range 64).any fun j => byteOf d j == 0xFE)
  | .marker r => if r = 1 then (.marker 1 now, false) else (.marker 7 now, true)
  | .bad _ => (.marker 7 now, true)

/-- One stored line at offset `at'` is read for a copy, under shadow set `k` and version `v`. -/
def carryLine (e : Nat) (x : Extent) (k v : Nat) (scale : Bool) (env : ReadEnv) (acc : Carried × State) (at' : Nat) :
    Carried × State :=
  let l := at' % pageBytes / 64
  let c := acc.1
  let r := acc.2.viewFrame e x k v (at' / pageBytes) l env
  match r.1 with
  | none => ({ c with cells := c.cells ++ [.marker 7 r.2.now], poison := true }, r.2)
  | some f =>
    let o := r.2.planeLine x f l env
    let k := carriedCell scale o.2.now o.1
    ({ c with cells := c.cells ++ [k.1], poison := c.poison || k.2 }, o.2)

/-- Stored lines of an FXR extent from a stored offset; `scale` tells scale bytes, whose 0xFE is poison. -/
def State.carryStored (s : State) (e : Nat) (x : Extent) (k v off n : Nat) (scale : Bool) (env : ReadEnv) :
    Carried × State :=
  (List.range n).foldl (fun acc i => carryLine e x k v scale env acc (off + 64 * i)) (⟨[], false, false⟩, s)

/-- Stored lines that a unit gives an image, by stored line number, with lengths of its blocks. -/
structure Put64 where
  lines : List (Nat × Cell)
  lens : List (Nat × Nat)
  deriving DecidableEq, Repr

/-- Encode the blocks of a unit by a table (R142, R159). -/
def encodeUnit (t : CodeTable) (base : Nat) (cells : List Cell) : Put64 :=
  (List.range 64).foldl (fun acc b =>
    let blk := (cells.drop (16 * b)).take 16
    let data := blk.filterMap fun c => match c with | .data v => some v | _ => none
    if blk.all fun c => match c with | .marker 1 _ => true | _ => false then acc
    else
      let st : List Cell := if data.length = 16 then (encodeBlock t data).map .data else blk
      ⟨acc.lines ++ st.zipIdx.map fun (c, i) => (base + 16 * b + i, imageCell c),
        acc.lens ++ [(base / 16 + b, st.length - 1)]⟩) ⟨[], []⟩

/-- Tag-area lines of a unit of a sealed extent, formed anew (R142, R410). -/
def State.tagLines (s : State) (y : Extent) (off : Nat) (cells : List Cell) : List (Nat × Cell) :=
  (List.range 128).map fun j =>
    let v := (List.range 8).foldl (fun v k => match cells.getD (8 * j + k) (.marker 1 0) with
      | .data d => v + (s.tagOf y (off / 64 + 8 * j + k) d) <<< (64 * k)
      | _ => v) 0
    ((y.size + off / 8) / 64 + j, .data (BitVec.ofNat 512 v))

/-- Read one unit of a SNAPSHOT's source and give the stored lines of the destination, not encrypted yet. -/
def State.snapUnit (s : State) (c : Cmd) (x y : Extent) (u : Nat) (env : ReadEnv) : Put64 × Bool × Bool × State :=
  let o := snapOf c.pkt
  let so := o.soff + u * pageBytes
  let dofs := o.doff + u * pageBytes
  let v := (s.verOf c.vers o.src).getD x.ver
  let set := x.cmdSet c.allot o.src c.sets
  let s := s.flushPages o.src set v (x.bytePages so pageBytes) env
  if x.isFxr then
    let gb := 4 * x.fxr.width
    let (d, s) := s.carryStored o.src x set v (so / 64 * gb) (16 * gb) false env
    let (k, s) := s.carryStored o.src x set v (x.planeBytes + so / 64) 16 true env
    (⟨(d.cells.zipIdx.map fun (z, i) => (dofs / 64 * gb / 64 + i, imageCell z)) ++
        k.cells.zipIdx.map fun (z, i) => ((y.planeBytes + dofs / 64) / 64 + i, imageCell z), []⟩,
      d.poison || k.poison, false, s)
  else
    let (k, s) := s.carryUnit o.src x set v so env
    if y.codec = 1 then (encodeUnit (s.tableOf y) (dofs / 64) k.cells, k.poison, k.damaged, s)
    else
      let data := k.cells.zipIdx.map fun (z, i) => (dofs / 64 + i, imageCell z)
      (⟨if y.sealed then data ++ s.tagLines y dofs k.cells else data, []⟩, k.poison, k.damaged, s)

/-- Put stored lines into a page's image, encrypted under the destination's key (R142, R408). -/
def State.editImage (s : State) (e : Nat) (y : Extent) (p : Nat) (k : Put64) : Image :=
  let old : Image := (s.source e p y.ver).getD ⟨e, p, y.ver, 512, 0, 0, [], [], false, false⟩
  let mine := k.lines.filter fun (l, _) => l / 1024 == p
  let kept : Sparse Cell := if old.lost then (List.range 1024).map fun l => (l, .marker 7 s.now) else old.lines
  let lens := (k.lens.filter fun (b, _) => b / 64 == p).foldl (fun m (b, n) => sput 0 m (b % 64) n) old.lens
  { old with
    ver := y.ver, lost := false, retained := false, lens := lens
    lines := mine.foldl (fun m (l, c) => match c with
      | .marker 1 _ => sdel m (l % 1024)
      | c => sins m (l % 1024) (s.encCell y l c)) kept }

/-- What the units of a snapshot have gathered: the edit, poison met, a damaged block met, and the machine. -/
abbrev Snapped := Put64 × Bool × Bool × State

/-- Unit `u` of a snapshot joins what has been gathered. -/
def snapStep (c : Cmd) (x y : Extent) (env : ReadEnv) (acc : Snapped) (u : Nat) : Snapped :=
  let r := acc.2.2.2.snapUnit c x y u env
  (⟨acc.1.lines ++ r.1.lines, acc.1.lens ++ r.1.lens⟩, acc.2.1 || r.2.1, acc.2.2.1 || r.2.2.1, r.2.2.2)

/-- A snapshot's source is read, and the image's pages are being programmed. -/
def State.doSnapshot (s : State) (c : Cmd) (env : ReadEnv) : State :=
  let o := snapOf c.pkt
  match s.extent o.src, s.extent o.dst with
  | some x, some y =>
    let (k, po, da, s) := c.left.foldl (snapStep c x y env) (⟨[], []⟩, false, false, s)
    let pages := y.bytePages o.doff o.len
    let s := pages.foldl (fun s p => s.program (s.editImage o.dst y p k) none true (some c.id)) s
    s.modCmd c.id fun c => { c with left := [], reads := [], poison := po, damaged := da, programs := pages.length }
  | _, _ => s.modCmd c.id fun c => { c with left := [] }

/-- STAGING copies of a page are discarded. -/
def State.dropStaging (s : State) (e p : Nat) : State :=
  ((s.framesOf e p).filter fun (_, f) => f.st == 8).foldl (fun s (n, _) => s.freeFrame n) s

/-- Write locks whose window has ended are forgotten once no request stamped inside it waits (R143). -/
def State.pruneLocks (s : State) : State :=
  { s with ext := { s.ext with tbl := s.ext.tbl.map fun ((e, x) : Nat × Extent) =>
      (e, { x with locks := x.locks.filter fun k => match k.til with
        | none => true
        | some c => s.waiting.any fun r => r.ext == e && decide (r.stamp < c) }) } }

/-- Cut count: ranges are locked and staging copies of the destination discarded; a versioned source, which is not
locked, is read at once, unless writes stamped before are still to be done, or its pages stand on another part (R142,
R143). -/
def State.beginSnapshot (s : State) (c : Cmd) (env : ReadEnv) : State :=
  let o := snapOf c.pkt
  let s := s.pruneLocks
  let s := s.modExtent o.src fun x =>
    if x.versioned then x else { x with locks := x.locks ++ [⟨c.id, o.soff, o.soff + o.len, c.eff, none⟩] }
  let s := s.modExtent o.dst fun x => { x with locks := x.locks ++ [⟨c.id, o.doff, o.doff + o.len, c.eff, none⟩] }
  let s := match s.extent o.dst with
    | none => s
    | some y => (y.bytePages o.doff o.len).foldl (fun s p => s.dropStaging o.dst p) s
  let now := match s.extent o.src with | some x => x.versioned && !x.proxy | none => false
  if now && !(s.cmdBlocked c) then s.doSnapshot c env else s

/-- The release count of a command's write locks is this count (R143). -/
def State.unlock (s : State) (id : Nat) : State :=
  { s with ext := { s.ext with tbl := s.ext.tbl.map fun ((e, x) : Nat × Extent) =>
      (e, { x with locks := x.locks.map fun k => if k.cmd = id ∧ k.til = none then { k with til := some s.now } else k }) } }

/-- A command that waits for programs ends when it has none left, has no unit left and no station to hear from;
a SNAPSHOT also waits for its release. -/
def State.programsSettle (s : State) (id : Nat) : State :=
  match s.cmd id with
  | none => s
  | some c =>
    let held := pkOp c.pkt == 0x40 && s.ext.tbl.any fun (_, x) => x.locks.any fun k => k.cmd == id && k.til.isNone
    if c.phase != .running ∨ c.programs != 0 ∨ !c.left.isEmpty ∨ !c.stations.isEmpty ∨ held then s
    else s.finishCmd id (poisonStatus c.poison c.damaged) c.poison c.result

/-- SNAPSHOT_RELEASE: the last source line has been read and the locks lift (R143). -/
def execSnapshotRelease (t cmd : Nat) (s : State) : Host.Outcome State Fault Refusal :=
  let s := s.start t
  match s.cmd cmd with
  | none => .next s
  | some c =>
    if pkOp c.pkt != 0x40 ∨ c.phase != .running ∨ !c.left.isEmpty then .next s
    else
      let s := ((s.unlock cmd).pruneLocks).modCmd cmd fun c => { c with result := result [(20, 6, s.now)] }
      .next (s.programsSettle cmd)

/-! ### DRAIN (R145) -/

/-- An image carries poison other than unwritten: mask 2, or a scale byte 0xFE (R147). -/
def Image.carries (x : Extent) (i : Image) : Bool :=
  i.lines.any fun (l, c) => match c with
    | .marker r _ => r != 1
    | .data d =>
      let off := i.page * pageBytes + 64 * l
      x.isFxr && decide (x.planeBytes ≤ off) && (List.range 64).any fun j => byteOf d j == 0xFE

/-- What a DRAIN has gathered: pages that it waits for, poison among them, and the machine. -/
abbrev Drained := Nat × Bool × State

/-- A DRAIN waits for a program that is under way. -/
def joinProgram (c : Cmd) (x : Extent) (acc : Drained) (g : Program) : Drained :=
  (acc.1 + 1, acc.2.1 || g.img.carries x, acc.2.2.modCmd c.id fun c => { c with aux := g.id :: c.aux })

/-- A page that is not durable: its write-through or write-back under way is waited for, and a dirty frame is programmed
(R145). A write-through counts among the frames programmed (assumption 98). -/
def drainPage (c : Cmd) (e : Nat) (x : Extent) (v : Nat) (env : ReadEnv) (acc : Drained) (p : Nat) : Drained :=
  let s := acc.2.2
  match s.fls.programs.find? fun g => g.cmd.isNone && g.frame.isNone && g.img.ext == e && g.img.page == p with
  | some g => joinProgram c x acc g
  | none =>
    match s.locate e p v with
    | .frame k =>
      let s := s.flushFrame k env
      let s := if (s.frame k).any fun f => f.st == 3 && f.dirty then s.settle k env else s
      match s.frame k with
      | none => acc
      | some f =>
        match (f.cleaning.bind fun id => s.fls.programs.find? fun g => g.id == id) with
        | some g => joinProgram c x (acc.1, acc.2.1, s) g
        | none =>
          if !(f.dirty && (f.st == 1 || f.st == 2 || f.st == 4)) then (acc.1, acc.2.1, s)
          else
            let r := s.imageRead k f env
            (acc.1 + 1, acc.2.1 || r.1.carries x, (r.2.program r.1 (some k) true (some c.id)).modFrame k fun f =>
              { f with st := if f.st = 1 then 4 else f.st, cleaning := some r.2.fls.nextProg })
    | _ => acc

/-- A DRAIN's cut count: every page of the range that is not durable is programmed, once the writes stamped before it are
done; until then its station has not reported (R145). -/
def State.beginDrain (s : State) (c : Cmd) (env : ReadEnv) : State :=
  let o := snapOf c.pkt
  match s.extent o.src with
  | none => s.finishCmd c.id 0 false 0
  | some x =>
    if s.cmdBlocked c then s
    else
      let v := if x.versioned then x.verAt c.eff else x.ver
      let r := (x.bytePages o.soff o.len).foldl (drainPage c o.src x v env) (0, false, s)
      let s := r.2.2.modCmd c.id fun c => { c with
        programs := r.1, poison := r.2.1, result := result [(20, 4, r.1)], stations := [], reads := [] }
      s.programsSettle c.id

/-! ### RESTORE (R146, R147) -/

/-- What a line read from flash becomes: one of an unrecoverable codeword or a lost image is UNCORRECTABLE, other poison
is CARRIED (R147). -/
def restoredPut : Read → Put
  | .ok v => .data v
  | .poison r => .poison (if r = 1 then 1 else if r = 2 ∨ r = 3 then 2 else 7)
  | .damaged => .poison 5
  | _ => .poison 7

/-- Lines of a unit as flash holds them: no frame takes part (R146). -/
def State.flashUnit (s : State) (e : Nat) (x : Extent) (v off : Nat) (env : ReadEnv) : List Read × State :=
  let dir := s.dir
  let checks := s.drm.checks
  let s := { s with dir := { dir with frames := [], merge := [], staging := [] } }
  let r := (List.range 1024).foldl (fun (acc : List Read × State) i =>
    let q := acc.2.readLogical e x 0 v (off / 64 + i) env
    (acc.1 ++ [q.1], q.2)) ([], s)
  (r.1, { r.2 with dir := dir, drm := { r.2.drm with checks := checks } })

/-- One unit of a RESTORE: the image is read without a staging copy and written through the write path. -/
def State.restoreUnit (s : State) (c : Cmd) (x y : Extent) (u : Nat) (env : ReadEnv) : State :=
  let o := snapOf c.pkt
  let (l, s) := s.flashUnit o.src x ((s.verOf c.vers o.src).getD x.ver) (o.soff + u * pageBytes) env
  let s := l.zipIdx.foldl (fun s (z, i) =>
    s.cmdWrite c (y.base + o.doff + u * pageBytes + 64 * i) (restoredPut z) env) s
  let po := l.any fun r => match r with | .ok _ => false | .poison r => r != 1 | _ => true
  s.modCmd c.id fun c => { c with poison := c.poison || po, damaged := c.damaged || l.contains .damaged }

/-- A RESTORE's station reports. -/
def State.doRestore (s : State) (c : Cmd) (env : ReadEnv) : State :=
  let o := snapOf c.pkt
  match s.extent o.src, s.extent o.dst with
  | some x, some y => c.left.foldl (fun s u => s.restoreUnit c x y u env) s
  | _, _ => s

/-! ### FLASH_PROGRAM_DONE (R131, R134, R148) -/

/-- The frame whose write-back `id` is done: RESIDENT and clean, unless a store has made it dirty since (R79). -/
def State.frameCleaned (s : State) (n id : Nat) : State :=
  s.modFrame n fun f => if f.cleaning = some id then
    { f with st := if f.st = 4 then (if f.pinned then 2 else 1) else f.st, dirty := false, cleaning := none } else f

/-- A program has succeeded: the image lands, STAGING copies that it supersedes go, and its frame is clean. -/
def State.programLands (s : State) (g : Program) : State :=
  let s := if (s.extent g.img.ext).isNone then s else s.landImage g.img g.host
  let s := if g.cmd.isSome ∧ g.frame.isNone then s.dropStaging g.img.ext g.img.page else s
  match g.frame with
  | some n => s.frameCleaned n g.id
  | none => s

/-- FLASH_PROGRAM_DONE: an image, its stripe parity and its map switch are programmed (`outcome` 0). Where the program
(1) or the erase before it (2) fails, the block is retired and the image is programmed elsewhere; where the die answers
neither a reset nor its repeat (3), the die is retired (R134). -/
def execFlashProgramDone (t id outcome : Nat) (s : State) : Host.Outcome State Fault Refusal :=
  let s := s.start t
  match s.fls.programs.find? fun g => g.id == id && g.issued with
  | none => .next s
  | some g =>
    if outcome = 3 then .next (s.retireDie g.img.die)
    else if outcome = 1 ∨ outcome = 2 then
      let s := s.retireBlock g.img.die g.img.row
      let q := s.nextPlace
      .next { q.2 with fls := { q.2.fls with programs := q.2.fls.programs.map fun h =>
        if h.id = id then { h with img := { h.img with die := q.1.1, row := q.1.2 }, suspends := 0 } else h } }
    else
      let s := { s with fls := { s.fls with programs := s.fls.programs.filter (·.id != id) } }
      let s := (s.programLands g).issueNext
      let waits := s.cmds.filter fun c => g.cmd == some c.id || (pkOp c.pkt == 0x41 && c.aux.contains id)
      .next (waits.foldl (fun s c =>
        (s.modCmd c.id fun c => { c with programs := c.programs - 1, aux := c.aux.filter (· != id) }).programsSettle c.id) s)

end Sys2Proof.Machine
end

