-- ==== Sys2Proof/Machine/Resets.lean ====
section
/-! DEFINITION. Reservations over time and their release, and the reset of one allotment (R100, R231 to R235, R253,
R257, R318 to R323). -/

namespace Sys2Proof.Machine

open Sys2Proof

/-! ### Shares over time (R234, R235) -/

/-- Rate of a share once every change announced for it is in force. -/
def Reservation.finalRate (r : Reservation) (i : Nat) : Nat :=
  r.next.foldl (fun v (j, x, _, _) => if j = i then x else v) (nth r.rates i)

/-- Latest count of a change still to come on resource `i`. -/
def Reservation.lastChange (r : Reservation) (i : Nat) : Count :=
  maxN 0 ((r.next.filter fun (j, _) => j == i).map fun (_, _, _, p) => p)

/-- Earliest count at which resource `i` of a share changes to `x`: a raise waits for the pool's ledger, a
lowering for the share's own (R234). -/
def State.changeAt (s : State) (r : Reservation) (i x e : Nat) : Count :=
  let h := if r.finalRate i < x then s.col.pool.getD i 0 else r.horizons.getD i 0
  Nat.max (Nat.max e h) (r.lastChange i)

/-- Announce the change of a share on resource `i` to `x` from count `e` on. A share that starts anew has its
horizon at that count. -/
def State.changeShare (s : State) (e : Count) (r : Reservation) (i x : Nat) : Reservation :=
  let old := r.finalRate i
  if x = old then r
  else
    let f := s.changeAt r i x e
    if old < x then
      { r with next := r.next ++ [(i, x, f, f)], horizons := if old = 0 then setNth r.horizons i f else r.horizons }
    else { r with next := r.next ++ [(i, x, e, f)] }

/-- A share with nothing reserved. -/
def Reservation.fresh (n c : Nat) : Reservation :=
  { allot := n, cls := c, rates := List.replicate 9 0, horizons := List.replicate 9 0, next := [] }

/-- Announce new rates of a share; answers the count of its last change, at least `e`. -/
def State.setShare (s : State) (n c : Nat) (e : Count) (rates : List Nat) : Count × State :=
  let r := (s.reservation n c).getD (.fresh n c)
  let at' := maxN e ((List.range 9).map fun i => if nth rates i = r.finalRate i then 0 else s.changeAt r i (nth rates i) e)
  let v := (List.range 9).foldl (fun v i => s.changeShare e v i (nth rates i)) r
  let rest := s.col.res.filter fun q => !(q.allot == n && q.cls == c)
  (at', { s with col := { s.col with res := if (List.range 9).all fun i => v.heldRate i == 0 then rest else rest ++ [v] } })

/-- Classes in which an allotment holds a reservation. -/
def State.heldClasses (s : State) (n : Nat) : List Nat := (s.col.res.filter (·.allot == n)).map (·.cls)

/-- Release every class of a list; answers the count of the last change. -/
def State.releaseShares (s : State) (n : Nat) (e : Count) (cs : List Nat) : Count × State :=
  cs.foldl (fun (acc : Count × State) c =>
    let (f, s) := acc.2.setShare n c e (List.replicate 9 0)
    (Nat.max acc.1 f, s)) (e, s)

/-- Changes whose count is reached are in force; a share with no rate left ceases to exist. -/
def Reservation.settle (r : Reservation) (now : Count) : Reservation :=
  let due := r.next.filter fun (_, _, _, p) => decide (p ≤ now)
  { r with rates := due.foldl (fun l (i, x, _, _) => setNth l i x) r.rates
           next := r.next.filter fun (_, _, _, p) => !decide (p ≤ now) }

/-- Settle the share of an allotment in a class. -/
def State.settleShare (s : State) (n c : Nat) : State :=
  let l := s.col.res.map fun r => if r.allot = n ∧ r.cls = c then r.settle s.now else r
  { s with col := { s.col with res := l.filter fun r => (List.range 9).any fun i => r.heldRate i != 0 } }

/-! ### Reset of an allotment (R253, R257, R320 to R323) -/

/-- The event ring of an allotment is discarded without counting (R257). -/
def Allot.dropEvents (a : Allot) : Allot :=
  { a with evtHeld := [], evtGroup := [], evtNext := [], evtTail := 0, evtHead := 0, evtSeq := 0, evtLost := 0,
           evtLostFault := 0 }

/-- Close every view of an allotment as CLOSE does (R100, R378). -/
def State.closeViews (s : State) (n : Nat) : State :=
  (s.ext.tbl.filter fun (_, x) => (x.view n).isSome).foldl (fun s (e, _) =>
    match s.extent e with
    | none => s
    | some x =>
      let s := ((s.dropShadows e (x.cmdSet n e [])).keepView e n x).setExtent e (x.dropView n)
      (if x.proxy then s.closeRemote e x else s).release e) s

/-- A held command is ended without work: what its admission announced is taken back (R252, R321). -/
def State.cancel (s : State) (c : Cmd) : State :=
  let op := pkOp c.pkt
  let e := pk c.pkt 32 2
  let others (f : Packet → Bool) := (s.cmds.filter fun d => d.id != c.id && pkOp d.pkt == op && f d.pkt).map (·.eff)
  let least (l : List Count) : Option Count := match l with | [] => none | x :: l => some (l.foldl Nat.min x)
  if op = 0x31 then s.modExtent (pk c.pkt 24 2) fun x => { x with pubs := x.pubs.filter (·.cmd != c.id) }
  else if op = 0x51 then
    let whole := pk c.pkt 24 1 == 0
    let m := pk c.pkt 25 1
    let l := others fun p => pk p 32 2 == e && (pk p 24 1 == 0) == whole && (whole || pk p 25 1 == m)
    s.modExtent e fun x =>
      if whole then { x with revoke := if x.revoke = some c.eff then least l else x.revoke }
      else { x with memRevoke := x.memRevoke.filter (· != (m, c.eff)) ++
        (match least l with | some r => if x.memRevoke.contains (m, c.eff) then [(m, r)] else [] | none => []) }
  else if op = 0x52 then (s.modExtent e fun x => { x with shrink := none, moving := none }).wake .move e noEnv
  else if op = 0x60 ∨ op = 0x61 then
    let hit (r : Reservation) (i x : Nat) (p : Count) : Bool := decide (s.now < p) && decide (c.eff ≤ p) &&
      (if op = 0x61 then x == 0 && (bitOf c.pkt 200 || r.cls == fld c.pkt 192 4)
       else r.cls == fld c.pkt 192 4 && x == nth ((List.range 9).map fun i => pk c.pkt (28 + 4 * i) 4) i)
    let l := s.col.res.map fun r =>
      if r.allot = c.allot then { r with next := r.next.filter fun (i, x, _, p) => !hit r i x p } else r
    let l := l.filter fun r => (List.range 9).any fun i => r.heldRate i != 0
    { s with col := { s.col with res := l } }
  else s

/-- What an abandoned command leaves to do (R321): a RESIZE that has not taken effect is forgotten, a running
re-plan goes on without it. -/
def State.abandon (s : State) (c : Cmd) : State :=
  let s := s.leaveCmd (if c.inBudget then some (16 * c.allot + c.cls) else none)
  let s := { s with cmds := s.cmds.filter (·.id != c.id)
                    pwr := { s.pwr with replanCmds := s.pwr.replanCmds.filter (· != c.id) } }
  if c.phase = .held ∨ pkOp c.pkt = 0x52 then s.cancel c else s

/-- Queue number of a command whose completion goes nowhere. -/
def noQueue : Nat := 4096

/-- The commands of an allotment are abandoned and leave their counts; a PUBLISH commits as admitted, its set cut now,
since nothing is written to it any more (R223, R321). -/
def State.abandonAll (s : State) (n : Nat) : State :=
  (s.cmds.filter fun c => c.allot == n && c.queue != pairQueue).foldl (fun s c =>
    if pkOp c.pkt = 0x31 then
      let was := c.phase
      let s := s.leaveCmd (if c.inBudget then some (16 * c.allot + c.cls) else none)
      let c := { c with queue := noQueue, phase := .running, intr := false, inBudget := false }
      let s := s.modCmd c.id fun _ => c
      if was = .held then s.beginPublish c noEnv else s
    else s.abandon c) s

/-- The reset count of a function-level or allotment reset. -/
def State.resetAllot (s : State) (n kind : Nat) (stamp : Count) (cmd : Option Nat) : State :=
  let qs := s.queuesOf n
  let busy := qs.filter fun q => (s.queue q).inflight != 0
  let cmds := sumN (qs.map fun q => (s.queue q).inflight)
  let old := match (s.allot n).resetAt with | some (_, c, q) => (c, q) | none => (0, 0)
  let flr := kind != 2
  let s := { s with ties := s.ties.filter fun t => !(t.allot == n && t.lane < 4096) }
  let s := s.abandonAll n
  let s := qs.foldl (fun s q => s.clearQueue q) s
  let s := s.modAllot n fun a =>
    let a := a.dropEvents
    { a with
      evtBase := 0, evtCtrl := 0, evtPostErr := false, evtCfgErr := false, evtHold := false, evtPhase := false
      shadow := [], live := [], winLive := 0, winPend := none, winErr := false, winBad := 0, winStale := 0, winDead := 0
      state := if flr ∧ a.state = 3 then 3 else 2
      log := if flr then a.log else [], logTotal := if flr then a.logTotal else 0
      cause := setFld (if flr then a.cause else setFld a.cause 0 2 0) 8 2 kind
      resetAt := some (stamp, old.1 + cmds, old.2 + busy.length), resetCmd := cmd.or a.resetCmd }
  let s := (s.closeViews n).updIntx n
  let s := (s.releaseShares n stamp (s.heldClasses n)).2
  let s := { s with col := { s.col with ldClass := sput 0x000F0000 s.col.ldClass n 0x000F0000 } }
  if s.recorded n then s.record 6 0 n 0xFFFF stamp (if flr then 0 else 1) 0 1 0 else s

/-- Work of an allotment stamped before its reset is unfinished; what only waits for its cut count is not work. -/
def State.resetBusy (s : State) (n : Nat) (stamp : Count) : Bool :=
  (s.waiting.any fun r => r.allot == n && decide (r.stamp < stamp)) ||
    s.cmds.any fun c => c.allot == n && c.queue == noQueue && decide (c.eff ≤ s.now)

/-- Write locks of commands that a reset has ended lift at this count (R321). -/
def State.liftLocks (s : State) : State :=
  ({ s with ext := { s.ext with tbl := s.ext.tbl.map fun ((e, x) : Nat × Extent) =>
    (e, { x with locks := x.locks.map fun (k : WriteLock) =>
      if (s.cmd k.cmd).isNone ∧ k.til = none then { k with til := some s.now } else k }) } }).pruneLocks

/-- QUIESCE: the last internal request of the abandoned work is done; the reset ends (R320, R322). At the latest
100 ms after the reset count it ends in any case. -/
def execQuiesce (t n : Nat) (s : State) : Host.Outcome State Fault Refusal :=
  let s := s.start t
  let a := s.allot n
  match a.resetAt with
  | none => .next s
  | some (stamp, cmds, queues) =>
    if s.resetBusy n stamp ∧ s.now < stamp + 100000000 then .next s
    else
      let s := s.liftLocks
      let s := s.err n 0x10 5 0 (at_ 0 16 cmds + at_ 16 16 queues + at_ 32 8 9) 0xFFFF 0xFFFF
      let s := s.modAllot n fun a => { a with
        state := if a.state = 2 then (if a.enabled then 1 else 0) else a.state, resetAt := none, resetCmd := none
        cause := setFld a.cause 16 16 cmds }
      let s := s.modLd (s.ldOf n) fun d => { d with crs := false }
      .next (match a.resetCmd with
        | some id => s.finishCmd id 0 false (result [(20, 4, cmds), (24, 2, queues)])
        | none => s)

end Sys2Proof.Machine
end

