-- ==== Sys2Proof/Machine/Firmware.lean ====
section
/-! DEFINITION. Firmware images and their verification (R390, R391, R393). -/

namespace Sys2Proof.Machine

open Sys2Proof

/-- Bytes before the body of an image (R390). -/
def imageHead : Nat := 16896

/-- VERSION of an image. -/
def imageVersion (b : Bytes) : Nat := leAt b 4 4
/-- SVN of an image. -/
def imageSvn (b : Bytes) : Nat := leAt b 8 4

/-- Outcome of R391 as a reason of R393: 0 verifies, 1 NO_IMAGE, 2 FORMAT, 3 RSA_FAIL, 4 SLH_FAIL, 5 ROLLBACK. -/
def verifyImage (svn : Nat) (b : Bytes) : Nat :=
  let body := leAt b 12 4
  let sigs := Config.firmwareSigs (b.take 16672)
  if b.isEmpty then 1
  else if leAt b 0 4 != 0x4D464C56 || body % 64 != 0 || b.length != imageHead + body || decide (16777216 < b.length) ||
      leAt b 16 48 != (Config.sha384 (b.drop imageHead)).toNat then 2
  else if !sigs.1 then 3
  else if !sigs.2 then 4
  else if imageSvn b < svn then 5
  else 0

/-- Bytes of a list of lines. -/
def linesBytes (l : List Line) : Bytes := l.flatMap fun v => leBytes 64 v.toNat

end Sys2Proof.Machine
end

