-- ==== Sys2Proof/Machine/Control.lean ====
section
/-! DEFINITION. FENCE, WAIT_COUNT, MARK, the keys, RESERVE and RELEASE, and the management opcodes (R231 to R235,
R279 to R283, R320 to R322, R337, R339, R394, R406, R407, R417, R422, R425, R428, R429). -/

namespace Sys2Proof.Machine

open Sys2Proof

/-! ### FENCE, WAIT_COUNT, MARK (R279 to R281) -/

/-- Commands that a FENCE covers: admitted, before it, of its queue or of its allotment. -/
def State.fenced (s : State) (c : Ask) : List Cmd :=
  s.cmds.filter fun d => d.phase != .asking && d.queue != pairQueue && (if pk c.p 24 1 = 0 then d.queue == c.q else d.allot == c.a)

/-- Checks of FENCE. -/
def State.checkFence (s : State) (c : Ask) (_ : ReadEnv) : Verdict × State :=
  let l := s.fenced c
  (if fld c.p 193 7 != 0 || !pkZero c.p 25 39 then refuse 0x0B
    else .ok { sMin := maxN 0 (l.map (·.promise)), covers := l.map (·.id) }, s)

/-- A FENCE with nothing left to wait for is done. -/
def State.beginFence (s : State) (_ : Cmd) (_ : ReadEnv) : State := s.fences s.cmds.length

/-- Checks of WAIT_COUNT. -/
def State.checkWait (s : State) (c : Ask) (_ : ReadEnv) : Verdict × State :=
  let w := expand48 c.stamp (pk c.p 24 6)
  (if !pkZero c.p 30 34 || decide (c.stamp + 2 ^ 40 < w) then refuse 0x0B else .ok { sMin := w, aux := [w] }, s)

/-- The count of a WAIT_COUNT is reached. -/
def State.endWait (s : State) (c : Cmd) : State := s.finishCmd c.id 0 false (result [(20, 6, nth c.aux 0)])

/-- A WAIT_COUNT whose count has passed is done at once. -/
def State.beginWait (s : State) (c : Cmd) (_ : ReadEnv) : State := if nth c.aux 0 ≤ s.now then s.endWait c else s

/-- WAIT_COUNT_REACHED: the Common Count reaches the count of a WAIT_COUNT (R280). -/
def execWaitCountReached (t cmd : Nat) (s : State) : Host.Outcome State Fault Refusal :=
  let s := s.start t
  match s.cmd cmd with
  | some c => .next (if pkOp c.pkt = 0x71 ∧ c.phase = .running ∧ nth c.aux 0 ≤ s.now then s.endWait c else s)
  | none => .next s

/-- The record of a packet fetched now is written: recording is on for its allotment and the buffer has room. -/
def State.willRecord (s : State) (a : Nat) : Bool :=
  s.recorded a && decide (s.det.buffered + 96 + 65536 ≤ logBuffer)

/-- Checks of MARK. -/
def State.checkMark (s : State) (c : Ask) (_ : ReadEnv) : Verdict × State :=
  (if !pkZero c.p 32 32 then refuse 0x0B else .ok { aux := [if s.willRecord c.a then 1 else 0] }, s)

/-- A recorded MARK is a boundary of its allotment's windows (R337). -/
def State.admitMark (s : State) (c : Cmd) : State :=
  if bitOf s.old.det 3 && s.recorded c.allot then
    (s.hashClose c.allot c.stamp).modAllot c.allot fun a =>
      { a with hashOpen := true, hashStart := c.stamp, hashSum := 0, hashCount := 0 }
  else s

/-- MARK completes with its stamp. -/
def State.beginMark (s : State) (c : Cmd) (_ : ReadEnv) : State :=
  s.finishCmd c.id 0 false (result [(20, 6, c.stamp), (26, 1, nth c.aux 0)])

/-! ### Keys (R282, R405 to R409, R477) -/

/-- A handle of the issuer's logical device, for 100 s after its delivery (R406). -/
def State.handleKey (s : State) (a h : Nat) : Option (BitVec 256) :=
  ((s.liveHandles (s.ldOf a)).find? fun (n, _) => n == h).map fun (_, k, _) => k

/-- A handle is consumed at the admission of the command that names it. -/
def State.takeHandle (s : State) (a h : Nat) : State :=
  s.modLd (s.ldOf a) fun d => { d with handles := d.handles.filter fun (n, _) => n != h }

/-- Extents bound to a slot; an admitted GRANT binds the one it names. -/
def State.slotBound (s : State) (k : Nat) : Nat :=
  (s.ext.tbl.filter fun (_, x) => x.keySlot == k).length +
    (s.cmds.filter fun c => c.phase != .asking && pkOp c.pkt == 0x50 && pk c.pkt 24 1 != 1 && fld (BitVec.ofNat 32 (pk c.pkt 28 4)) 12 8 == k &&
      !c.aux.isEmpty).length

/-- Checks of KEY_LOAD. -/
def State.checkKeyLoad (s : State) (c : Ask) (_ : ReadEnv) : Verdict × State :=
  let k := pk c.p 24 1
  let key := s.handleKey c.a (pk c.p 28 4)
  (firstFail [(!s.slotAssigned k c.a, 0x0C), (!pkZero c.p 25 3 || !pkZero c.p 32 32, 0x0B), (key.isNone, 0x0D),
    (s.slotLoaded k, 3)] (.ok { tOp := 20000, args := [(key.getD 0).setWidth 512] }), s)

/-- The key is in the slot and its wrapped copy in the system area (R396, R407). -/
def State.beginKeyLoad (s : State) (c : Cmd) (_ : ReadEnv) : State :=
  let k := pk c.pkt 24 1
  let key : BitVec 256 := (c.args.getD 0 0).setWidth 256
  let s := s.modSlot k fun v => { v with loaded := true, key := key }
  ({ s with sec := { s.sec with wrapped := sins s.sec.wrapped k (wrapKey key) } }).finishCmd c.id 0 false 0

/-- Checks of KEY_DROP. -/
def State.checkKeyDrop (s : State) (c : Ask) (_ : ReadEnv) : Verdict × State :=
  let k := pk c.p 24 1
  (firstFail [(!s.slotAssigned k c.a, 0x0C), (!pkZero c.p 25 39, 0x0B), (s.slotBound k != 0, 3)] (.ok { tOp := 20000 }), s)

/-- Cryptographic erase of a slot's key (R409). -/
def State.eraseSlot (s : State) (k : Nat) : State :=
  let was := (s.slot k).loaded
  let s := s.modSlot k fun v => { v with loaded := false, key := 0 }
  { s with sec := { s.sec with erasePending := s.sec.erasePending || was, wrapped := sdel s.sec.wrapped k } }

/-- KEY_DROP erases the slot. -/
def State.beginKeyDrop (s : State) (c : Cmd) (_ : ReadEnv) : State :=
  (s.eraseSlot (pk c.pkt 24 1)).finishCmd c.id 0 false 0

/-! ### RESERVE and RELEASE (R231 to R234) -/

/-- Rates that a RESERVE asks for. -/
def reserveRates (p : Packet) : List Nat := (List.range 9).map fun i => pk p (28 + 4 * i) 4

/-- Ceiling of R233 on resource `i`. -/
def State.ceiling (s : State) (i : Nat) : Nat :=
  9 * (match s.plan.pend with | some p => Nat.min (s.cap i) (nth p.caps i) | none => s.cap i) / 10

/-- Largest rate that the issuer could hold on `i` in a class. -/
def State.headroom (s : State) (n c i : Nat) : Nat :=
  let old := match s.reservation n c with | some r => r.heldRate i | none => 0
  s.ceiling i - (s.resSum i - old)

/-- Result of a RESERVE that does not fit, when it does not: SCALE, LIMIT, headroom (R233). -/
def State.overCeiling (s : State) (n c : Nat) (rates : List Nat) : Option (BitVec 96) :=
  let r := (s.reservation n c).getD (.fresh n c)
  let up := (List.range 9).filter fun i => decide (r.finalRate i < nth rates i)
  if up.all fun i => decide (nth rates i ≤ s.headroom n c i) then none
  else
    let scale (i : Nat) := Nat.min 65536 (s.headroom n c i * 65536 / nth rates i)
    let k := (up.map scale).foldl Nat.min 65536
    let i := (up.find? fun i => scale i == k).getD 0
    some (result [(20, 4, k), (24, 1, i), (28, 4, s.headroom n c i)])

/-- Checks of RESERVE; the promise is that of R234. -/
def State.checkReserve (s : State) (c : Ask) (_ : ReadEnv) : Verdict × State :=
  let p := c.p
  let cls := fld p 192 4
  let rates := reserveRates p
  (if s.cmdBudgetNow c.a cls = 0 then refuse 0x0C
    else if s.kindNow cls != 2 || fld p 196 4 != 0 || !pkZero p 25 3 then refuse 0x0B
    else match s.overCeiling c.a cls rates with
      | some r => .refuse 2 r
      | none =>
        let f := (s.setShare c.a cls c.eff rates).1
        .ok { promise := some (f + 1600 + 9000), aux := [f] }, s)

/-- From admission the ledgers know the new rates (R234). -/
def State.admitReserve (s : State) (c : Cmd) : State :=
  (s.setShare c.allot (fld c.pkt 192 4) c.eff (reserveRates c.pkt)).2

/-- Classes that a RELEASE names. -/
def State.releaseClasses (s : State) (a : Nat) (p : Packet) : List Nat :=
  if bitOf p 200 then s.heldClasses a
  else if (s.reservation a (fld p 192 4)).isSome then [fld p 192 4] else []

/-- Checks of RELEASE. -/
def State.checkRelease (s : State) (c : Ask) (_ : ReadEnv) : Verdict × State :=
  let p := c.p
  (if fld p 196 4 != 0 || fld p 201 7 != 0 || !pkZero p 26 38 || (!bitOf p 200 && s.kindNow (fld p 192 4) != 2) then refuse 0x0B
    else
      let f := (s.releaseShares c.a c.eff (s.releaseClasses c.a p)).1
      .ok { promise := some (f + 1600 + 9000), aux := [f] }, s)

/-- From admission the ledgers know the release. -/
def State.admitRelease (s : State) (c : Cmd) : State :=
  (s.releaseShares c.allot c.eff (s.releaseClasses c.allot c.pkt)).2

/-- The last change of a RESERVE or RELEASE is in force. -/
def State.endReserve (s : State) (c : Cmd) : State := s.finishCmd c.id 0 false (result [(20, 6, nth c.aux 0)])

/-- RESERVE and RELEASE wait for their count. -/
def State.beginReserve (s : State) (c : Cmd) (_ : ReadEnv) : State :=
  if nth c.aux 0 ≤ s.now then
    ((s.heldClasses c.allot).foldl (fun s k => s.settleShare c.allot k) s).endReserve c
  else s

/-- RESERVATION_EFFECTIVE: the changes of an allotment's share whose count is reached are in force, and the RESERVE
or RELEASE that asked for them completes (R234, R235). -/
def execReservationEffective (t n cls : Nat) (s : State) : Host.Outcome State Fault Refusal :=
  let s := (s.start t).settleShare n cls
  let due := s.cmds.filter fun c => c.allot == n && c.phase == .running && (pkOp c.pkt == 0x60 || pkOp c.pkt == 0x61) &&
    decide (nth c.aux 0 ≤ s.now)
  .next (due.foldl (fun s c => s.endReserve c) s)

/-! ### Plans (R283, R417, R422) -/

/-- Result of PLAN_SET, POWER_SET and REPLAN: the plan issued since version `last`, else the one in force. -/
def State.planResult (s : State) (last : Nat) : BitVec 96 :=
  let (v, e) := if s.plan.last = last then (s.plan.cur.ver, s.plan.cur.effective) else s.planReport
  result [(20, 2, v), (24, 6, e)]

/-- Nine limits of a PLAN_SET; 0 means 1,000. -/
def planLimits (p : Packet) : List Nat := (List.range 9).map fun i => pk p (24 + 2 * i) 2

/-- Checks of PLAN_SET. -/
def State.checkPlanSet (s : State) (c : Ask) (_ : ReadEnv) : Verdict × State :=
  (if ((planLimits c.p).any fun v => decide (1000 < v)) || !pkZero c.p 42 22 then refuse 0x0B else .ok { tOp := 20000 }, s)

/-- PLAN_SET: new limits; a plan when they change a rate or a capacity. -/
def State.setLimits (s : State) (l : List Nat) : State :=
  let l := l.map fun v => if v = 0 then 1000 else v
  let b := { s.planBase with limits := l }
  if (s.compute b).same s.planBase then
    { s with plan := { s.plan with cur := { s.plan.cur with limits := l }
                                   pend := s.plan.pend.map fun p => { p with limits := l } } }
  else s.issueAs 4 b none

/-- PLAN_SET takes effect. -/
def State.beginPlanSet (s : State) (c : Cmd) (_ : ReadEnv) : State :=
  let last := s.plan.last
  let s := s.setLimits (planLimits c.pkt)
  s.finishCmd c.id 0 false (s.planResult last)

/-- Checks of POWER_SET. -/
def State.checkPowerSet (s : State) (c : Ask) (_ : ReadEnv) : Verdict × State :=
  (if decide (3 < pk c.p 24 1) || !pkZero c.p 25 39 then refuse 0x0B else .ok { tOp := 20000 }, s)

/-- POWER_SET takes effect. -/
def State.beginPowerSet (s : State) (c : Cmd) (_ : ReadEnv) : State :=
  let last := s.plan.last
  let s := s.powerSet (pk c.pkt 24 1)
  s.finishCmd c.id 0 false (s.planResult last)

/-- Checks of REPLAN. -/
def State.checkReplan (s : State) (c : Ask) (_ : ReadEnv) : Verdict × State :=
  (if !pkZero c.p 24 40 then refuse 0x0B else .ok { tOp := 2000000000 }, s)

/-- REPLAN: a re-plan begins to measure, or joins the one that measures (R422). -/
def State.beginReplan (s : State) (c : Cmd) (_ : ReadEnv) : State :=
  { s with pwr := { s.pwr with replanning := true, replanCmds := s.pwr.replanCmds ++ [c.id] } }

/-! ### ALT_RESET and CALENDAR_SET (R320 to R322, R425) -/

/-- Checks of ALT_RESET. -/
def State.checkAltReset (s : State) (c : Ask) (_ : ReadEnv) : Verdict × State :=
  let n := pk c.p 24 1
  (if n = 0 || decide (63 < n) || !pkZero c.p 25 39 then refuse 0x0B else .ok { tOp := 100000000 }, s)

/-- ALT_RESET at its reset count; a DISABLED allotment has nothing to reset. -/
def State.beginAltReset (s : State) (c : Cmd) (_ : ReadEnv) : State :=
  let n := pk c.pkt 24 1
  if (s.allot n).state = 0 then s.finishCmd c.id 0 false 0 else s.resetAllot n 2 c.eff (some c.id)

/-- Checks of CALENDAR_SET. -/
def State.checkCalendar (s : State) (c : Ask) (_ : ReadEnv) : Verdict × State :=
  (if !pkZero c.p 32 32 then refuse 0x0B else .ok { tOp := 20000 }, s)

/-- CALENDAR_SET records its value and its stamp. -/
def State.beginCalendar (s : State) (c : Cmd) (_ : ReadEnv) : State :=
  ({ s with pwr := { s.pwr with calendar := pk c.pkt 24 8, calendarAt := c.stamp, calValid := true } }).finishCmd c.id 0 false 0

/-! ### TEST_OPEN (R428, R429) -/

/-- Test mode is open, or an admitted TEST_OPEN will open it. -/
def State.testTaken (s : State) : Bool := s.prt.isOpen || s.cmds.any fun c => pkOp c.pkt == 0xF5 && c.phase == .held

/-- Checks of TEST_OPEN. -/
def State.checkTestOpen (s : State) (c : Ask) (_ : ReadEnv) : Verdict × State :=
  let key := s.handleKey 0 (pk c.p 24 4)
  (firstFail [(!pkZero c.p 28 36, 0x0B), (key.isNone, 0x0D), (s.testTaken, 3)]
    (.ok { tOp := 20000, args := [(key.getD 0).setWidth 512] }), s)

/-- Test mode opens: the trace starts from the nonce and the opening count. -/
def State.beginTestOpen (s : State) (c : Cmd) (_ : ReadEnv) : State :=
  let d := Config.sha384 (leBytes 32 (c.args.getD 0 0).toNat ++ leBytes 8 c.eff)
  ({ s with prt := { s.prt with isOpen := true, digest := d, changes := 0 } }).finishCmd c.id 0 false 0

/-! ### REPLAY (R339, R340) -/

/-- Records of the log that a replay re-issues, in the order of their stamps. -/
def State.replayRecords (s : State) (lo hi : Count) : List LogRec :=
  sortBy (fun (a b : LogRec) => decide (a.stamp < b.stamp))
    (s.det.log.filter fun r => r.type == 1 && decide (lo ≤ r.stamp) && decide (r.stamp < hi)).reverse

/-- A part of the range has been overwritten: records are gone and the oldest kept one is later than its start. -/
def State.overwritten (s : State) (lo : Count) : Bool :=
  s.det.head != 0 && match s.det.log with | r :: _ => decide (lo < r.stamp) | [] => true

/-- Checks of REPLAY. -/
def State.checkReplay (s : State) (c : Ask) (_ : ReadEnv) : Verdict × State :=
  let lo := pk c.p 24 8
  let hi := pk c.p 32 8
  (if !pkZero c.p 48 16 || decide (lo + pk c.p 40 8 < c.stamp + 100000000) || s.overwritten lo || s.det.replay.isSome ||
      (s.cmds.any fun d => pkOp d.pkt == 0xF6) || decide (hi ≤ lo) then refuse 0x0B
    else .ok { tOp := 20000 }, s)

/-- The range is read and the injection armed; its queues fetch nothing until the last record is injected. -/
def State.beginReplay (s : State) (c : Cmd) (_ : ReadEnv) : State :=
  let l := s.replayRecords (pk c.pkt 24 8) (pk c.pkt 32 8)
  let s := if l.isEmpty then s else { s with det := { s.det with replay := some (l, pk c.pkt 40 8) } }
  let s := ((l.map (·.queue)).eraseDups).foldl (fun s q => s.modQueue q fun v => { v with replaying := true }) s
  s.finishCmd c.id 0 false 0

/-! ### FW_STAGE (R394) -/

/-- Checks of FW_STAGE; the image is read and verified at its stamp. -/
def State.checkStage (s : State) (c : Ask) (env : ReadEnv) : Verdict × State :=
  let a := pk c.p 24 6
  let n := pk c.p 32 8
  let r : Rng := ⟨a, n, false⟩
  let f := s.operandFault c.a c.stamp r
  if f != 0 then (refuse f, s)
  else if a % 64 != 0 || n % 64 != 0 then (refuse 5, s)
  else if !pkZero c.p 30 2 || !pkZero c.p 40 24 || n == 0 || decide (16777216 < n) || s.leaves r then (refuse 0x0B, s)
  else
    let r' := s.preRead c a n env
    let s := r'.2
    match r'.1 with
    | none => (refuse 0x0B, s)
    | some args =>
      let b := linesBytes args
      let why := verifyImage s.sec.svn.toNat b
      let res := result [(20, 4, why), (24, 4, imageVersion b)]
      if why != 0 then (.refuse 0x0D res, s)
      else (.ok { dem := demand [(2, 16 * n)], tOp := 2000000000 + s.flashTerm [r], args := args, reads := [(a, n)], exts := s.extentsOf [r] }, s)

/-- FW_STAGE programs the candidate. -/
def State.beginStage (s : State) (c : Cmd) (_ : ReadEnv) : State :=
  let b := linesBytes c.args
  ({ s with sec := { s.sec with candidate := b } }).finishCmd c.id 0 false (result [(24, 4, imageVersion b)])

end Sys2Proof.Machine
end

