-- ==== Sys2Proof/Machine/Submit.lean ====
section
/-! DEFINITION. A packet from its fetch to its admission, the begin of its work, and the reports of its stations
(R36, R42 to R45, R209, R217, R243 to R246, R260, R261, R328, R333, R336, R340, R375, R386, R477). -/

namespace Sys2Proof.Machine

open Sys2Proof

/-! ### The opcodes (R260) -/

/-- OPCODE is defined. -/
def knownOp (op : Nat) : Bool :=
  [1, 2, 3, 0x10, 0x11, 0x12, 0x13, 0x14, 0x15, 0x20, 0x21, 0x22, 0x23, 0x24, 0x30, 0x31, 0x32, 0x40, 0x41, 0x42,
    0x50, 0x51, 0x52, 0x53, 0x60, 0x61, 0x70, 0x71, 0x72, 0x80, 0x81, 0xF0, 0xF1, 0xF2, 0xF3, 0xF4, 0xF5, 0xF6,
    0xF7].contains op

/-- An opcode's own checks. -/
def State.checkOp (s : State) (c : Ask) (env : ReadEnv) : Verdict × State :=
  match pkOp c.p with
  | 0x01 | 0x02 | 0x03 => s.checkMem c env
  | 0x10 => s.checkReduce c env
  | 0x11 | 0x12 => s.checkRows c env
  | 0x13 => s.checkRecipe c env
  | 0x14 => s.checkMatmul c env
  | 0x15 => s.checkSynth c env
  | 0x20 | 0x21 | 0x22 | 0x23 | 0x24 => s.checkTier c env
  | 0x30 => s.checkOpen c env
  | 0x31 => s.checkPublish c env
  | 0x32 => s.checkClose c env
  | 0x40 | 0x41 | 0x42 => s.checkSnap c env
  | 0x50 => s.checkGrant c env
  | 0x51 => s.checkRevoke c env
  | 0x52 => s.checkResize c env
  | 0x53 => s.checkQuery c env
  | 0x60 => s.checkReserve c env
  | 0x61 => s.checkRelease c env
  | 0x70 => s.checkFence c env
  | 0x71 => s.checkWait c env
  | 0x72 =>
    let (v, s) := s.checkMark c env
    (match v with | .ok w => .ok { w with tOp := 2000 } | v => v, s)
  | 0x80 => s.checkKeyLoad c env
  | 0x81 => s.checkKeyDrop c env
  | 0xF0 => s.checkPlanSet c env
  | 0xF1 => s.checkPowerSet c env
  | 0xF2 => s.checkReplan c env
  | 0xF3 => s.checkAltReset c env
  | 0xF4 => s.checkCalendar c env
  | 0xF5 => s.checkTestOpen c env
  | 0xF6 => s.checkReplay c env
  | 0xF7 => s.checkStage c env
  | _ => (refuse 0x0A, s)

/-- What admission itself changes beside the ledgers (R95, R67, R65, R234, R337, R406, R477). -/
def State.admitOp (s : State) (c : Cmd) (w : Want) : State :=
  match pkOp c.pkt with
  | 0x31 => s.admitPublish c w
  | 0x51 => s.admitRevoke c
  | 0x52 => s.admitResize c
  | 0x60 => s.admitReserve c
  | 0x61 => s.admitRelease c
  | 0x72 => s.admitMark c
  | 0x80 => s.takeHandle c.allot (pk c.pkt 28 4)
  | 0xF5 => s.takeHandle c.allot (pk c.pkt 24 4)
  | _ => s

/-- The end of a command whose work was shared by stations. -/
def State.endWork (s : State) (id : Nat) : State :=
  match s.cmd id with
  | none => s
  | some c =>
    let op := pkOp c.pkt
    if isSprig op then s.endSprig c
    else if op = 0x14 ∨ op = 0x15 then s.endMatrix c
    else if 0x20 ≤ op ∧ op ≤ 0x24 then s.endTier c
    else if op = 0x40 ∨ op = 0x41 then s.programsSettle id
    else if op = 0x42 then s.finishCmd id (poisonStatus c.poison c.damaged) c.poison 0
    else s

/-- An opcode's work begins. Work done by stations is done by their reports. -/
def State.beginOp (s : State) (c : Cmd) (env : ReadEnv) : State :=
  match pkOp c.pkt with
  | 0x15 => s.startTiles c (pk c.pkt 24 2) (tierLevel s c).1 (tierLevel s c).2
  | 0x20 | 0x21 | 0x22 | 0x23 | 0x24 => s.beginTier c env
  | 0x30 => s.beginOpen c env
  | 0x31 => s.beginPublish c env
  | 0x32 => s.beginClose c env
  | 0x40 => s.beginSnapshot c env
  | 0x41 => s.beginDrain c env
  | 0x50 => s.beginGrant c env
  | 0x51 => s.beginRevoke c env
  | 0x52 => s.beginResize c env
  | 0x53 => s.beginQuery c env
  | 0x60 | 0x61 => s.beginReserve c env
  | 0x70 => s.beginFence c env
  | 0x71 => s.beginWait c env
  | 0x72 => s.beginMark c env
  | 0x80 => s.beginKeyLoad c env
  | 0x81 => s.beginKeyDrop c env
  | 0xF0 => s.beginPlanSet c env
  | 0xF1 => s.beginPowerSet c env
  | 0xF2 => s.beginReplan c env
  | 0xF3 => s.beginAltReset c env
  | 0xF4 => s.beginCalendar c env
  | 0xF5 => s.beginTestOpen c env
  | 0xF6 => s.beginReplay c env
  | 0xF7 => s.beginStage c env
  | _ => if c.stations.isEmpty then s.endWork c.id else s

/-- A command as PAIR_OP carries it: issuer, effective count and what admission reserved, with the lines it read and
the nonce that a GRANT here will draw. -/
def State.pairMessage (s : State) (c : Cmd) (leads : Bool) : TamMsg :=
  { s.message 0x22 0 s.partnerId 0 0 ([c.allot, c.eff] ++ if leads then c.aux else []) with
    lines := (0, 0, c.pkt) :: c.args.map fun v => (0, 0, v), lens := (Config.freeValue s.free).setWidth 256 }

/-- A command's work begins: the versions it reads are those open now, and it writes the shadow sets of now (R92, R477). On a paired part a command that
changes shared state goes to the partner; the part that leads applies it at once, the other when that has. -/
def State.startCmd (s : State) (id : Nat) (env : ReadEnv) : State :=
  match s.cmd id with
  | none => s
  | some c =>
    let c := { c with phase := .running, vers := s.captureVers c, sets := s.captureSets c }
    let s := s.modCmd id fun _ => c
    if (s.tam.pair = 1 ∨ s.tam.pair = 5) ∧ isPairOp (pkOp c.pkt) then
      let (_, s) := s.tamRequest (s.pairMessage c s.leads) 0xFFFF 0 (some id)
      if s.leads then s.beginOp c env else s
    else s.beginOp c env

/-! ### Admission (R261, R43, R246, R264, R336) -/

/-- The COMMAND record of a packet. -/
def State.recordCmd (s : State) (c : Ask) (status : Nat) (promise : Count) (again : Bool) : State :=
  if s.recorded c.a then
    s.record 1 (if again then 1 else 0) c.a c.q c.stamp (at_ 0 48 promise + at_ 48 8 status) c.p 3 c.n
  else s

/-- A refused command completes at once and does no work. -/
def State.refuseCmd (s : State) (c : Ask) (status : Nat) (res : BitVec 96) (promise : Count) (again : Bool) : State :=
  let late := status == 1
  let s := s.recordCmd c status (if late then promise else 0) again
  s.complete c.q (entryOf (pkTag c.p) status false false (if late then s.plan.cur.ver else 0)
    (if late then promise else 0) res) (2 ^ 64) (pkFlag c.p 4) none

/-- Paced release is asked for by the packet, or for every command at its stamp (R218, R472). -/
def State.isPaced (s : State) (p : Packet) : Bool := pkFlag p 1 || bitOf s.old.det 1
/-- ORDERED is 1 at the stamp (R328, R472). -/
def State.orderedMode (s : State) : Bool := bitOf s.old.det 0
/-- Ordered work is asked for by the packet, or for every command at its stamp (R327). -/
def State.isOrdered (s : State) (p : Packet) : Bool := pkFlag p 0 || s.orderedMode

/-- An admitted command as the part keeps it. -/
def State.newCmd (s : State) (c : Ask) (w : Want) (inB : Bool) (prio : Nat) (promise : Count) (again : Bool) : Cmd :=
  { id := s.nextCmd, allot := c.a, queue := c.q, n := c.n, pkt := c.p, stamp := c.stamp, eff := c.eff, promise := promise
    plan := s.plan.cur.ver, cls := pkClass c.p, prio := prio, inBudget := inB, ordered := s.isOrdered c.p
    keyed := s.orderedMode, paced := s.isPaced c.p, intr := pkFlag c.p 4, phase := .held, status := 0, poison := false, damaged := false
    result := 0, reads := w.reads, writes := w.writes, exts := w.exts, vers := w.vers, sets := [], left := w.left
    stations := w.stations, accs := [], partials := [], accPoison := [], args := w.args, cnt := [0, 0, 0, 0]
    aux := w.aux, covers := w.covers, injected := again, programs := 0 }

/-- The writes of a command stamp the extents that they name, R156. -/
def State.stampWrites (s : State) (l : List (Nat × Nat)) (stamp : Count) : State :=
  l.foldl (fun s w => match s.extentAt w.1 with
    | some (e, _) => s.stampWrite e stamp
    | none => s) s

/-- The opcode's checks have passed: the Colander decides, and an admitted command begins at its effective count. -/
def State.putIn (s : State) (c : Ask) (w : Want) (deadline : Count) (again : Bool) (env : ReadEnv) : State :=
  let w := if (s.tam.pair = 1 ∨ s.tam.pair = 5) ∧ isPairOp (pkOp c.p) then
    { w with dem := setNth w.dem 8 (nth w.dem 8 + 16 * 256) } else w
  match s.colander c.a (pkClass c.p) (s.isPaced c.p) c.eff deadline w with
  | .refused st res p s => s.refuseCmd c st res p again
  | .admitted inB prio p s =>
    let d := s.newCmd c w inB prio p again
    let s := s.recordCmd c 0 p again
    let s := { s with cmds := s.cmds ++ [d], nextCmd := s.nextCmd + 1 }
    let s := s.stampWrites w.writes c.stamp
    let s := s.admitOp d w
    if s.now < c.eff then s else s.startCmd d.id env

/-- Judge a packet whose header is sound. A REMOTE GRANT that passes its own checks asks its home first (R375). -/
def State.judge (s : State) (c : Ask) (deadline : Count) (again : Bool) (env : ReadEnv) : State :=
  let (v, s) := s.checkOp c env
  match v with
  | .refuse st res => s.refuseCmd c st res 0 again
  | .ok w =>
    if asksHome c.p then
      let d := { s.newCmd c w false 0 deadline again with phase := .asking, cnt := [s.old.grantTable.toNat] }
      let s := { s with cmds := s.cmds ++ [d], nextCmd := s.nextCmd + 1 }
      let pool := pk c.p 48 8
      (s.tamRequest (s.message 0x10 0 (pool / 2 ^ 48) 0 (pool % 2 ^ 48) []) 0xFFFF 0 (some d.id)).2
    else s.putIn c w deadline again env

/-- Work under register values of another count (R472). -/
def State.under (s : State) (g : Governed) (f : State → State) : State :=
  { f { s with old := g } with old := s.old }

/-- The home of a REMOTE GRANT has answered, or has not in time: the command is admitted or refused, under the registers
of its stamp (R375, R472). -/
def State.homeAnswer (s : State) (d : Cmd) (ok : Bool) : State :=
  let c : Ask := ⟨d.allot, d.queue, d.n, d.pkt, d.stamp, d.eff⟩
  let s := { s with cmds := s.cmds.filter (·.id != d.id) }
  if !ok then s.refuseCmd c 0x0B 0 0 d.injected
  else
    s.under { s.old with det := setBit (setBit s.old.det 0 d.keyed) 1 d.paced, grantTable := BitVec.ofNat 32 (nth d.cnt 0) }
      fun s =>
        let (v, s) := s.checkOp c noEnv
        match v with
        | .refuse st res => s.refuseCmd c st res 0 d.injected
        | .ok w => s.putIn c w d.promise d.injected noEnv

/-- One packet of a queue in the order of R261. -/
def State.packet (s : State) (q n : Nat) (p : Packet) (stamp : Count) (seqOk again : Bool) (deadline eff : Option Count)
    (env : ReadEnv) : State :=
  let a := (s.queue q).allotment
  let c : Ask := ⟨a, q, n, p, stamp, eff.getD stamp⟩
  let op := pkOp p
  if s.plan.cur.ver = 0 then s.refuseCmd c 0x0F 0 0 again
  else if !knownOp op then s.refuseCmd c 0x0A 0 0 again
  else if (0xF0 ≤ op ∧ a != 0) ∨ (s.allot a).state = 3 then s.refuseCmd c 0x0C 0 0 again
  else match deadline, eff with
    | some d, some _ => if !seqOk || headReserved p then s.refuseCmd c 0x0B 0 0 again else s.judge c d again env
    | _, _ => s.refuseCmd c 0x0B 0 0 again

/-! ### Packets of one stamp (R13, R20, R95, R205, R328, R329) -/

/-- Bytes that a packet's command reads before its admission have still to be written by earlier work (R20). -/
def State.preBlocked (s : State) (p : Packet) (stamp : Count) : Bool :=
  match preRange p with
  | none => false
  | some q =>
    (s.waiting.any fun r => r.write && decide (r.stamp < stamp) && sharesByte [(r.laddr / 64 * 64, 64)] [q]) ||
      s.cmds.any fun c => c.unfinished && decide (c.eff < stamp) && sharesByte c.writes [q]

/-- Another allotment may publish the extent of a PUBLISH at the same stamp (R95). -/
def State.rivals (s : State) (a : Nat) (p : Packet) : Bool :=
  pkOp p == 0x31 && (s.extent (pk p 24 2)).any fun x => x.views.any fun v => v.allot != a && x.rights v.allot == 2

/-- A packet of a tie, or a publish of another part, which ranks after packets of its stamp (R376). -/
def Tie.isPacket (t : Tie) : Bool := match t.what with | .packet _ _ | .publish _ _ => true | .host _ => false

/-- A packet is not decided at once: in ordered mode, behind such packets, as a PUBLISH that others of its stamp may
precede, and while what it reads first is still to be written. -/
def State.packetWaits (s : State) (a : Nat) (p : Packet) : Bool :=
  s.orderedMode || s.ties.any Tie.isPacket || s.rivals a p || s.preBlocked p s.now

/-- A tie may be decided: its count is past, and no packet of its queue and nothing that it reads first is before it. -/
def State.tieFree (s : State) (t : Tie) : Bool :=
  t.stamp != s.now && match t.what with
    | .host _ | .publish _ _ => true
    | .packet p _ => !(s.preBlocked p t.stamp) && !(s.ties.any fun u => u.isPacket && u.lane == t.lane && decide (u.n < t.n))

/-- A request or packet of a tie is granted, under the registers of its stamp. -/
def State.grant (s : State) (t : Tie) : State :=
  match t.what with
  | .host r => match s.extent r.ext with
    | some x => s.stage3 r x t.env
    | none => s.serve r t.env
  | .packet p ok => s.under t.gov fun s =>
    s.packet t.lane t.n p t.stamp ok false (deadlineOf p t.stamp) (launchOf p t.stamp) t.env
  | .publish m quiet => match s.extentAt m.addr with
    | some (e, x) => s.remotePublish m e x quiet
    | none => if quiet then s else s.tamReply m 0x16 3 []

/-- Ties whose count is past are granted in the order of their keys. -/
def State.releaseTies : Nat → State → State
  | 0, s => s
  | k + 1, s => match s.ties.find? s.tieFree with
    | none => s
    | some t => State.releaseTies k (({ s with ties := s.ties.filter (· != t) }).grant t)

/-- A command of this chapter begins: what `startEnv` does, and the ties are granted. -/
def State.startTies (s : State) (t : Count) (env : ReadEnv) : State :=
  let s := s.startEnv t env
  State.releaseTies s.ties.length s

/-- One tick with no command in front: the count advances, and requests of ordered ties whose count is past are granted
(R27, R329; assumption 1). -/
def State.idle (s : State) : State :=
  let s := s.tick
  if s.ties.isEmpty then s
  else
    let s := (State.releaseHosts s.ties.length s).drainOrder noEnv
    State.releaseTies s.ties.length s

/-- A fetched packet: SQ_HEAD, the expected SEQ and INFLIGHT advance, then it is judged, or joins the ties of its stamp
(R243, R245). -/
def State.fetched (s : State) (q : Nat) (p : Packet) (env : ReadEnv) : State :=
  let v := s.queue q
  let s := s.setQueue q { v with
    sqHead := (v.sqHead + 1) % v.sqSize, seq := (v.seq + 1) % 65536, fetched := v.fetched + 1
    inflight := v.inflight + 1, fetching := v.fetching - 1 }
  let ok := pkSeq p == v.seq
  if s.packetWaits v.allotment p then s.tie ⟨s.now, v.allotment, q, v.fetched, .packet p ok, env, s.old⟩
  else s.packet q v.fetched p s.now ok false (deadlineOf p s.now) (launchOf p s.now) env

/-- The completion of the outstanding fetch read: its packets arrive, or are discarded (R243, R252). -/
def State.deliver (s : State) (q : Nat) (ps : List Packet) (env : ReadEnv) : State :=
  let v := s.queue q
  if ps.isEmpty ∨ v.fetching = 0 then s
  else if v.fetchDrop || (v.state != 1 && v.state != 2) then
    s.modQueue q fun v => { v with fetching := 0, fetchDrop := false }
  else (ps.take v.fetching).foldl (fun s p => s.fetched q p env) s

/-- PACKET_FETCH: a read of up to `n` entries is issued, and the packets of the outstanding read are delivered
(R243 to R245). -/
def execPacketFetch (t q n : Nat) (delivered : List Packet) (env : ReadEnv) (s : State) :
    Host.Outcome State Fault Refusal :=
  .next (((s.startTies t env).issueFetch q n).deliver q delivered env)

/-- FETCH_ERROR: the outstanding fetch read fails; its entries are not passed (R243, R251). -/
def execFetchError (t q : Nat) (s : State) : Host.Outcome State Fault Refusal :=
  let s := s.start t
  let v := s.queue q
  if v.fetching = 0 then .next s
  else
    let s := s.setQueue q { v with fetching := 0, fetchDrop := false }
    if v.fetchDrop || (v.state != 1 && v.state != 2) then .next s
    else .next ((s.modQueue q fun v => { v with fetchErr := true }).queueTo q 4 1)

/-- A packet of the row's opcode is the next one delivered to a queue; a read of one entry is issued when none is
outstanding. -/
def State.barfin (s : State) (t q op : Nat) (p : Packet) (env : ReadEnv) : State :=
  let s := s.startTies t env
  let s := if (s.queue q).fetching = 0 then s.issueFetch q 1 else s
  s.deliver q [withOp p op] env

/-! ### Launch counts (R36, R328, R333) -/

/-- One held command's launch count is reached. -/
def State.launch (s : State) (id : Nat) (env : ReadEnv) : State :=
  let s := if bitOf s.cc.status 1 then s else ({ s with det := { s.det with unsynced := true } }).recordConfig
  s.startCmd id env

/-- LAUNCH_COUNT_REACHED: a held command's work begins; in ordered mode those that fall due before it in key order
begin first. -/
def execLaunchCountReached (t cmd : Nat) (env : ReadEnv) (s : State) : Host.Outcome State Fault Refusal :=
  let s := s.startTies t env
  match s.cmd cmd with
  | none => .next s
  | some c =>
    if c.phase != .held ∨ s.now < c.eff then .next s
    else
      let due := if c.keyed then sortBy Cmd.keyBefore (s.cmds.filter fun d => d.phase == .held &&
          (d.id == cmd || (d.keyed && d.keyBefore c))) else [c]
      .next (due.foldl (fun s d => s.launch d.id env) s)

/-! ### Stations (R209, R217) -/

/-- Units of a sprig command that a plot has still to do; the last plot to report does what is left (R208). -/
def Cmd.plotUnits (c : Cmd) (plot : Nat) : List Nat :=
  c.left.filter fun u => sliver (c.unitAddr u) % 32 == plot || c.stations.length == 1

/-- A plot does its units; those of a SCATTER_ADD's targets come when its sources are read (R212). -/
def State.plotWork (s : State) (id plot : Nat) (env : ReadEnv) : State :=
  let go (s : State) : State := match s.cmd id with
    | none => s
    | some c => (c.plotUnits plot).foldl (fun s u => s.doSprig id u env) s
  match s.cmd id with
  | none => s
  | some c => if pkOp c.pkt = 0x11 then go (go s) else go s

/-- A station does what is left for it of a command. -/
def State.stationWork (s : State) (c : Cmd) (station : Nat) (env : ReadEnv) : State :=
  let op := pkOp c.pkt
  if isSprig op then s.plotWork c.id station env
  else if op = 0x14 then s.doTiles c env
  else if op = 0x15 then s.runTiles c.id env s.mxe.jobs.length
  else if 0x20 ≤ op ∧ op ≤ 0x24 then s.doTier c env
  else if op = 0x40 then s.doSnapshot c env
  else if op = 0x41 then s.beginDrain c env
  else if op = 0x42 then (s.doRestore c env).modCmd c.id fun c => { c with left := [] }
  else s

/-- A station has nothing of a command left to do: a plot none of its units, and of a SCATTER_ADD no source line is left
anywhere; another station no tile and no page. -/
def Cmd.stationDone (c : Cmd) (station : Nat) : Bool :=
  if isSprig (pkOp c.pkt) then
    (c.plotUnits station).isEmpty && (pkOp c.pkt != 0x11 || c.left.all fun u => decide ((rowsOf c.pkt).base ≤ u))
  else c.left.isEmpty

/-- The station reports, and with the last report the command is done (R217). -/
def State.report (s : State) (id station : Nat) : State :=
  let s := s.modCmd id fun c => { c with stations := c.stations.filter (· != station) }
  match s.cmd id with
  | some c => if c.stations.isEmpty then s.endWork id else s
  | none => s

/-- A station does its part of a command, once the proxies' pages are here and every tile that it reads has been rolled
out, and reports it when nothing is left (R182, R217, R380). -/
def State.stationRun (s : State) (c : Cmd) (station : Nat) (env : ReadEnv) : State :=
  let w := s.proxyWait c env
  if w.1 then w.2
  else
    let r := w.2.withTiles c.id c.promise fun s => s.stationWork c station env
    if r.1 && (r.2.cmd c.id).any fun c => c.phase == .running && c.stationDone station then r.2.report c.id station else r.2

/-- STATION_REPORT: a station does what is left of its part of a command and reports it; with the last report the command
is done. While earlier work on its lines is open, or its share has an earlier promise to keep, it has nothing to report
(R20, R44, R209, R217). -/
def execStationReport (t cmd station : Nat) (env : ReadEnv) (s : State) : Host.Outcome State Fault Refusal :=
  let s := s.startTies t env
  match s.cmd cmd with
  | none => .next s
  | some c =>
    if c.phase != .running ∨ !c.stations.contains station ∨ !(s.mayRun c station) then .next s
    else .next ((s.stationRun c station env).drainOrder env)

/-! ### Injected commands (R340) -/

/-- A record is not injected. -/
def State.skipsRecord (s : State) (r : LogRec) : Bool :=
  let v := s.queue r.queue
  v.state != 1 || !v.assigned || v.allotment != r.allot || decide (0xF0 ≤ pkOp r.pkt) || fld r.detail 48 8 != 0

/-- A record of a replay is injected at count `c` as its stamp, or skipped (R340). -/
def State.injectRecord (s : State) (r : LogRec) (shift : Nat) (c : Count) (env : ReadEnv) : State :=
  if s.skipsRecord r then
    { s with det := { s.det with skipped := satAdd 32 s.det.skipped 1, skippedBit := true } }
  else
    let p := r.pkt
    let dl := if pkFlag p 2 then deadlineOf p c else (deadlineOf p r.stamp).map (· + shift)
    let ef := if pkFlag p 3 then (launchOf p r.stamp).map fun _ => Nat.max c (expand48 r.stamp (pkLaunch p) + shift)
      else some c
    let s := { s with det := { s.det with replayPos := r.stamp } }
    (s.modQueue r.queue fun v => { v with inflight := v.inflight + 1 }).packet r.queue r.n p c true true dl ef env

/-- The queues of a replay that has ended are no longer held (R340). -/
def State.replayEnds (s : State) : State :=
  { s with queues := (s.queues.map fun (q, v) => (q, { v with replaying := false })).filter fun (_, v) => v != .init }

/-- REPLAY_INJECT: the next record's count is reached: its command is injected with that count as its stamp, or
skipped. -/
def execReplayInject (t : Nat) (env : ReadEnv) (s : State) : Host.Outcome State Fault Refusal :=
  let s := s.startTies t env
  match s.det.replay with
  | none => .next s
  | some ([], _) => .next { s with det := { s.det with replay := none } }
  | some (r :: rest, shift) =>
    if s.now < r.stamp + shift then .next s
    else
      let s := { s with det := { s.det with replay := if rest.isEmpty then none else some (rest, shift) } }
      let s := s.injectRecord r shift (r.stamp + shift) env
      .next (if rest.isEmpty then s.replayEnds else s)

end Sys2Proof.Machine
end

