-- ==== Sys2Proof/Machine/Barfin.lean ====
section
/-! DEFINITION. The Barfin packets, one meaning per opcode: the packet is the next one delivered to its queue, and
is judged, admitted and begun, or refused (R243, R260, R261). -/

namespace Sys2Proof.Machine

open Sys2Proof

/-- FILL (R265). -/
def execFill (t q : Nat) (p : Packet) (env : ReadEnv) (s : State) : Host.Outcome State Fault Refusal :=
  .next (s.barfin t q 0x01 p env)

/-- COPY (R265). -/
def execCopy (t q : Nat) (p : Packet) (env : ReadEnv) (s : State) : Host.Outcome State Fault Refusal :=
  .next (s.barfin t q 0x02 p env)

/-- COMPARE (R265). -/
def execCompare (t q : Nat) (p : Packet) (env : ReadEnv) (s : State) : Host.Outcome State Fault Refusal :=
  .next (s.barfin t q 0x03 p env)

/-- REDUCE (R266). -/
def execReduce (t q : Nat) (p : Packet) (env : ReadEnv) (s : State) : Host.Outcome State Fault Refusal :=
  .next (s.barfin t q 0x10 p env)

/-- SCATTER_ADD (R267). -/
def execScatterAdd (t q : Nat) (p : Packet) (env : ReadEnv) (s : State) : Host.Outcome State Fault Refusal :=
  .next (s.barfin t q 0x11 p env)

/-- GATHER (R267). -/
def execGather (t q : Nat) (p : Packet) (env : ReadEnv) (s : State) : Host.Outcome State Fault Refusal :=
  .next (s.barfin t q 0x12 p env)

/-- RECIPE (R268). -/
def execRecipe (t q : Nat) (p : Packet) (env : ReadEnv) (s : State) : Host.Outcome State Fault Refusal :=
  .next (s.barfin t q 0x13 p env)

/-- MATMUL (R269). -/
def execMatmul (t q : Nat) (p : Packet) (env : ReadEnv) (s : State) : Host.Outcome State Fault Refusal :=
  .next (s.barfin t q 0x14 p env)

/-- SYNTH (R270). -/
def execSynth (t q : Nat) (p : Packet) (env : ReadEnv) (s : State) : Host.Outcome State Fault Refusal :=
  .next (s.barfin t q 0x15 p env)

/-- HINT (R271). -/
def execHint (t q : Nat) (p : Packet) (env : ReadEnv) (s : State) : Host.Outcome State Fault Refusal :=
  .next (s.barfin t q 0x20 p env)

/-- PIN (R272). -/
def execPin (t q : Nat) (p : Packet) (env : ReadEnv) (s : State) : Host.Outcome State Fault Refusal :=
  .next (s.barfin t q 0x21 p env)

/-- UNPIN (R272). -/
def execUnpin (t q : Nat) (p : Packet) (env : ReadEnv) (s : State) : Host.Outcome State Fault Refusal :=
  .next (s.barfin t q 0x22 p env)

/-- PAGE_IN (R273). -/
def execPageIn (t q : Nat) (p : Packet) (env : ReadEnv) (s : State) : Host.Outcome State Fault Refusal :=
  .next (s.barfin t q 0x23 p env)

/-- PAGE_OUT (R273). -/
def execPageOut (t q : Nat) (p : Packet) (env : ReadEnv) (s : State) : Host.Outcome State Fault Refusal :=
  .next (s.barfin t q 0x24 p env)

/-- OPEN (R93). -/
def execOpen (t q : Nat) (p : Packet) (env : ReadEnv) (s : State) : Host.Outcome State Fault Refusal :=
  .next (s.barfin t q 0x30 p env)

/-- PUBLISH (R94 to R99). -/
def execPublish (t q : Nat) (p : Packet) (env : ReadEnv) (s : State) : Host.Outcome State Fault Refusal :=
  .next (s.barfin t q 0x31 p env)

/-- CLOSE (R100). -/
def execClose (t q : Nat) (p : Packet) (env : ReadEnv) (s : State) : Host.Outcome State Fault Refusal :=
  .next (s.barfin t q 0x32 p env)

/-- SNAPSHOT (R141 to R144). -/
def execSnapshot (t q : Nat) (p : Packet) (env : ReadEnv) (s : State) : Host.Outcome State Fault Refusal :=
  .next (s.barfin t q 0x40 p env)

/-- DRAIN (R145). -/
def execDrain (t q : Nat) (p : Packet) (env : ReadEnv) (s : State) : Host.Outcome State Fault Refusal :=
  .next (s.barfin t q 0x41 p env)

/-- RESTORE (R146). -/
def execRestore (t q : Nat) (p : Packet) (env : ReadEnv) (s : State) : Host.Outcome State Fault Refusal :=
  .next (s.barfin t q 0x42 p env)

/-- GRANT (R274, R275). -/
def execGrant (t q : Nat) (p : Packet) (env : ReadEnv) (s : State) : Host.Outcome State Fault Refusal :=
  .next (s.barfin t q 0x50 p env)

/-- REVOKE (R276). -/
def execRevoke (t q : Nat) (p : Packet) (env : ReadEnv) (s : State) : Host.Outcome State Fault Refusal :=
  .next (s.barfin t q 0x51 p env)

/-- RESIZE (R277). -/
def execResize (t q : Nat) (p : Packet) (env : ReadEnv) (s : State) : Host.Outcome State Fault Refusal :=
  .next (s.barfin t q 0x52 p env)

/-- QUERY (R278). -/
def execQuery (t q : Nat) (p : Packet) (env : ReadEnv) (s : State) : Host.Outcome State Fault Refusal :=
  .next (s.barfin t q 0x53 p env)

/-- RESERVE (R231, R233, R234). -/
def execReserve (t q : Nat) (p : Packet) (env : ReadEnv) (s : State) : Host.Outcome State Fault Refusal :=
  .next (s.barfin t q 0x60 p env)

/-- RELEASE (R232, R234). -/
def execRelease (t q : Nat) (p : Packet) (env : ReadEnv) (s : State) : Host.Outcome State Fault Refusal :=
  .next (s.barfin t q 0x61 p env)

/-- FENCE (R279). -/
def execFence (t q : Nat) (p : Packet) (env : ReadEnv) (s : State) : Host.Outcome State Fault Refusal :=
  .next (s.barfin t q 0x70 p env)

/-- WAIT_COUNT (R280). -/
def execWaitCount (t q : Nat) (p : Packet) (env : ReadEnv) (s : State) : Host.Outcome State Fault Refusal :=
  .next (s.barfin t q 0x71 p env)

/-- MARK (R281). -/
def execMark (t q : Nat) (p : Packet) (env : ReadEnv) (s : State) : Host.Outcome State Fault Refusal :=
  .next (s.barfin t q 0x72 p env)

/-- KEY_LOAD (R282, R407). -/
def execKeyLoad (t q : Nat) (p : Packet) (env : ReadEnv) (s : State) : Host.Outcome State Fault Refusal :=
  .next (s.barfin t q 0x80 p env)

/-- KEY_DROP (R282, R407). -/
def execKeyDrop (t q : Nat) (p : Packet) (env : ReadEnv) (s : State) : Host.Outcome State Fault Refusal :=
  .next (s.barfin t q 0x81 p env)

/-- PLAN_SET (R283). -/
def execPlanSet (t q : Nat) (p : Packet) (env : ReadEnv) (s : State) : Host.Outcome State Fault Refusal :=
  .next (s.barfin t q 0xF0 p env)

/-- POWER_SET (R283, R417). -/
def execPowerSet (t q : Nat) (p : Packet) (env : ReadEnv) (s : State) : Host.Outcome State Fault Refusal :=
  .next (s.barfin t q 0xF1 p env)

/-- REPLAN (R283, R422). -/
def execReplan (t q : Nat) (p : Packet) (env : ReadEnv) (s : State) : Host.Outcome State Fault Refusal :=
  .next (s.barfin t q 0xF2 p env)

/-- ALT_RESET (R320 to R322). -/
def execAltReset (t q : Nat) (p : Packet) (env : ReadEnv) (s : State) : Host.Outcome State Fault Refusal :=
  .next (s.barfin t q 0xF3 p env)

/-- CALENDAR_SET (R425). -/
def execCalendarSet (t q : Nat) (p : Packet) (env : ReadEnv) (s : State) : Host.Outcome State Fault Refusal :=
  .next (s.barfin t q 0xF4 p env)

/-- TEST_OPEN (R428). -/
def execTestOpen (t q : Nat) (p : Packet) (env : ReadEnv) (s : State) : Host.Outcome State Fault Refusal :=
  .next (s.barfin t q 0xF5 p env)

/-- REPLAY (R339). -/
def execReplay (t q : Nat) (p : Packet) (env : ReadEnv) (s : State) : Host.Outcome State Fault Refusal :=
  .next (s.barfin t q 0xF6 p env)

/-- FW_STAGE (R394). -/
def execFwStage (t q : Nat) (p : Packet) (env : ReadEnv) (s : State) : Host.Outcome State Fault Refusal :=
  .next (s.barfin t q 0xF7 p env)

end Sys2Proof.Machine
end

