-- ==== Sys2Proof/Machine/Bar.lean ====
section
/-! DEFINITION. The way a register access takes to the part: the BAR of an allotment's logical device (R347, R352,
R361), and the offsets that decode in recovery state (R393). -/

namespace Sys2Proof.Machine

open Sys2Proof

/-- Requests of a logical device are served: from DRAM_TRAINING on, and in recovery state those of the management
function (R461, R463). -/
def State.served (s : State) (k : Nat) : Bool :=
  decide (3 ≤ s.gen.phase) || (s.gen.phase == 2 && k == 0)

/-- The BARs of allotment `n`'s logical device decode memory requests. -/
def State.barOn (s : State) (n : Nat) : Bool :=
  let d := s.ld (s.ldOf n)
  (s.allot n).enabled && d.mse && d.dstate == 0 && s.served (s.ldOf n)

/-- A configuration request of a logical device: it is retried, without effect, before its function serves (R360,
R463). -/
def State.config (s : State) (k : Nat) (f : State → State) : State :=
  if s.served k && !(s.ld k).crs then f s else s

/-- Blocks of management BAR0 that decode in recovery state: GEN, FLT, SEC and the recovery window. -/
def recoveryOffset (off : Nat) : Bool :=
  let b := off / 65536
  b == 0 || b == 0x0F || b == 0x13 || (decide (0x100 ≤ b) && decide (b < 0x200))

/-- A write through BAR0 of allotment `n` at `off`. -/
def State.viaBar (s : State) (n off : Nat) (f : State → State) : State :=
  if !s.barOn n then s.emit (.unsupported off)
  else if s.sec.recovery && n == 0 && !recoveryOffset off then s.regErr 0 off
  else f s

/-- A 64-bit write of the register at `o` clears its pending low half; a WO register keeps the low half written
(R9). -/
def State.wrote64 (s : State) (o : Nat) (wo : Bool) (v : Reg64) : State :=
  { s with
    lowHalf := sdel s.lowHalf o
    woLow := if wo then sput 0 s.woLow o (v.setWidth 32) else s.woLow }

/-- Offset of a register of allotment `n` seen through `by_`'s BAR0. -/
def seenAt (by_ mgmt view : Nat) : Nat := if by_ = 0 then mgmt else view

end Sys2Proof.Machine
end

