-- ==== Sys2Proof/Machine/QueueRows.lean ====
section
/-! DEFINITION. Doorbells, queue control and assignment, the event ring, and the failures of ring writes (R238 to
R242, R249, R251, R256, R257, R259). -/

namespace Sys2Proof.Machine

open Sys2Proof

/-! ### Ring writes -/

/-- HELD_COMPLETION_WRITE: held entries are written in their order while slots are free (R249). -/
def execHeldCompletionWrite (t q : Nat) (s : State) : Host.Outcome State Fault Refusal :=
  .next (State.heldDrain q 64 (s.start t))

/-- The entry written last is taken back from its slot: INFLIGHT counts it again, and it heads the holding area. -/
def State.takeBackEntry (s : State) (q : Nat) (e : Completion) (promise : Count) (intr : Bool) : State :=
  let v := s.queue q
  let slot := (v.cqTail + v.cqSize - 1) % v.cqSize
  (s.setQueue q { v with
    cqTail := slot, phase := if v.cqTail = 0 then !v.phase else v.phase, inflight := v.inflight + 1, written := none
    intrSlots := v.intrSlots.filter (· != slot), held := (e, promise, intr, none) :: v.held }).updIntx v.allotment

/-- COMPLETION_WRITE_ERROR: the write of the latest entry fails, or that of the entry at the head of the holding
area (R251). -/
def execCompletionWriteError (t q : Nat) (s : State) : Host.Outcome State Fault Refusal :=
  let s := s.start t
  let v := s.queue q
  let fail (s : State) : State := (s.modQueue q fun v => { v with postErr := true }).queueTo q 4 2
  if v.state != 1 && v.state != 2 then .next s
  else match v.written with
    | some (e, p, i) =>
      if v.cqHead = v.cqTail then .next s else .next (fail (s.takeBackEntry q e p i))
    | none => if v.held.isEmpty ∨ !s.cqWritable q then .next s else .next (fail s)

/-- EVENT_WRITE: the next held event, LOST event or PLAN_CHANGE group entry is written (R256). -/
def execEventWrite (t n : Nat) (s : State) : Host.Outcome State Fault Refusal :=
  .next ((s.start t).evtStep n)

/-- EVENT_WRITE_ERROR: an event write fails; later events are held until ENABLE is written again (R259). -/
def execEventWriteError (t n : Nat) (s : State) : Host.Outcome State Fault Refusal :=
  let s := s.start t
  if bitOf (s.allot n).evtCtrl 0 then
    .next (s.modAllot n fun a => { a with evtPostErr := true, evtHold := true })
  else .next s

/-! ### Doorbells (R241, R242) -/

/-- A head is below the ring size and lies in the span from the current head to the tail. -/
def headOk (size cur tail h : Nat) : Bool :=
  decide (h < size) && decide ((h + size - cur) % size ≤ (tail + size - cur) % size)

/-- A completion head is passed: its slots are free, and no interrupt is due for them (R358). -/
def State.passHead (s : State) (q h : Nat) : State :=
  let v := s.queue q
  let left := (v.cqTail + v.cqSize - h) % v.cqSize
  (s.setQueue q { v with
    cqHead := h, intrSlots := v.intrSlots.filter fun i => decide ((i + v.cqSize - h) % v.cqSize < left) }).updIntx
    v.allotment

/-- A doorbell write: the submission tail, the completion head, or both. -/
def State.ring (s : State) (n off : Nat) (tail head : Option Nat) : State :=
  match s.queueOf n (off / 8) with
  | none => s.err n 0x0E 4 off 0 0xFFFF 0xFFFF
  | some q =>
    let v := s.queue q
    let tailOk := match tail with | some x => decide (x < v.sqSize) | none => true
    let hOk := match head with | some x => headOk v.cqSize v.cqHead v.cqTail x | none => true
    if v.state = 0 ∨ !tailOk ∨ !hOk then s.err n 0x0E 4 off 0 q 0xFFFF
    else
      let s := match tail with | some x => s.modQueue q fun v => { v with sqTail := x } | none => s
      match head with | some x => s.passHead q x | none => s

/-- A write to BAR2 of an allotment: the doorbell page is its first 4 KiB (R241, R347). -/
def State.doorbell (s : State) (n off width : Nat) (v : Reg64) : State :=
  if !s.barOn n then s.emit (.unsupported off)
  else if 4096 ≤ off then s.err n 0x0E 4 off 0 0xFFFF 0xFFFF
  else if width = 8 ∧ off % 8 = 0 then s.ring n off (some (fld v 0 16)) (some (fld v 32 16))
  else if width = 4 ∧ off % 8 = 0 then s.ring n off (some (fld v 0 16)) none
  else if width = 4 ∧ off % 8 = 4 then s.ring n off none (some (fld v 0 16))
  else s.regErr n off

/-- DOORBELL (R241, R242). -/
def execDoorbell (t n off width : Nat) (v : Reg64) (s : State) : Host.Outcome State Fault Refusal :=
  .next ((s.start t).doorbell n off width v)

/-! ### QUE_CTRL and QUE_OWNER (R238, R239, R251) -/

/-- A queue is enabled from DISABLED: indices and SEQ at 0, PHASE 1. -/
def State.enableQueue (s : State) (q : Nat) : State :=
  let v := s.queue q
  let s := s.setQueue q { v with
    sqHead := 0, cqTail := 0, sqTail := 0, cqHead := 0, seq := 0, fetched := 0, phase := true, intrSlots := []
    disabling := false, written := none, fetching := 0, fetchDrop := false }
  if s.bme v.allotment then s.queueTo q 1 0 else s.queueTo q 3 3

/-- Sizes of both rings are 2^4 to 2^16 entries. -/
def ringSizes (v : Reg32) : Bool :=
  decide (4 ≤ fld v 4 5) && decide (fld v 4 5 ≤ 16) && decide (4 ≤ fld v 9 5) && decide (fld v 9 5 ≤ 16)

/-- SQ_LOG2, CQ_LOG2 and VECTOR with ENABLE. -/
def queFields (enable : Bool) (v : Reg32) : Reg32 := BitVec.ofNat 32 (atB 0 enable + at_ 4 17 (fld v 4 17))

/-- ENABLE is written while the queue is not DISABLED (R251). -/
def State.setEnable (s : State) (q : Nat) (on restart : Bool) : State :=
  let v := s.queue q
  let was := bitOf v.ctrl 0
  let s := s.setQueue q { v with ctrl := queFields on v.ctrl }
  if on then
    if v.state = 2 then s.queueTo q 1 0
    else if 3 ≤ v.state then s.modQueue q fun v => { v with disabling := false }
    else s
  else if v.state = 1 then (s.queueTo q 2 0).queueSettle q
  else if 3 ≤ v.state ∧ (was ∨ !restart) then
    (s.modQueue q fun v => { v with disabling := true }).discardHeld q
  else s

/-- RESTART leaves STOPPED or ERROR while bus mastering is enabled (R251). -/
def State.restart (s : State) (q : Nat) : State :=
  let v := s.queue q
  if 3 ≤ v.state ∧ !v.disabling ∧ s.bme v.allotment then
    (State.heldDrain q 64 (s.queueTo q (if bitOf v.ctrl 0 then 1 else 2) 0)).queueSettle q
  else s

/-- A write of QUE_CTRL. -/
def State.queCtrl (s : State) (q : Nat) (v : Reg32) : State :=
  let x := s.queue q
  let on := bitOf v 0
  if x.state = 0 then
    let ok := on && x.assigned && ringSizes v
    let s := s.setQueue q { x with ctrl := queFields ok v, cfgErr := x.cfgErr || (on && !ok) }
    if ok then s.enableQueue q else s
  else
    let s := if fld v 4 17 = fld x.ctrl 4 17 then s else s.modQueue q fun x => { x with cfgErr := true }
    let s := s.setEnable q on (bitOf v 1)
    if bitOf v 1 then s.restart q else s

/-- Queue `q` is written through the management BAR0, or through its owner's. -/
def State.queVia (s : State) (by_ q reg : Nat) (f : State → State) : State :=
  let x := s.queue q
  if by_ = 0 ∨ (x.assigned ∧ x.allotment = by_) then
    s.viaBar by_ (seenAt by_ (0xA0000 + 0x20 * q + reg) (0x8000 + 0x20 * x.local_ + reg)) f
  else s

/-- QUE_ENABLE (R251). -/
def execQueEnable (t by_ q : Nat) (v : Reg32) (s : State) : Host.Outcome State Fault Refusal :=
  .next ((s.start t).queVia by_ q 0x10 fun s => s.queCtrl q v)

/-- QUE_RESTART: QUE_CTRL is written with RESTART 1 (R251). -/
def execQueRestart (t by_ q : Nat) (v : Reg32) (s : State) : Host.Outcome State Fault Refusal :=
  .next ((s.start t).queVia by_ q 0x10 fun s => s.queCtrl q (setBit v 1 true))

/-- A write of QUE_OWNER. -/
def State.queOwner (s : State) (q : Nat) (v : Reg32) : State :=
  let x := s.queue q
  let new := v &&& 0x81FF003F
  let clash := bitOf v 31 && match s.queueOf (fld v 0 6) (fld v 16 9) with | some p => p != q | none => false
  if x.state != 0 || clash then s.setQueue q { x with assignErr := true } else s.setQueue q { x with owner := new }

/-- QUE_OWNER (R238). -/
def execQueOwner (t q : Nat) (v : Reg32) (s : State) : Host.Outcome State Fault Refusal :=
  .next ((s.start t).viaBar 0 (0xA0014 + 0x20 * q) fun s => s.queOwner q v)

/-! ### The event ring (R257, R259) -/

/-- A write of HEAD in ALT_EVT_POS. -/
def State.evtPos (s : State) (n off : Nat) (v : Reg32) : State :=
  let a := s.allot n
  if headOk (2 ^ fld a.evtCtrl 1 5) a.evtHead a.evtTail (fld v 0 16) then
    (s.setAllot n { a with evtHead := fld v 0 16 }).updIntx n
  else s.err n 0x0E 4 off 0 0xFFFF 0xFFFF

/-- A write of ALT_EVT_CTRL. -/
def State.evtCtrl (s : State) (n : Nat) (v : Reg32) : State :=
  let a := s.allot n
  let on := bitOf v 0
  if bitOf a.evtCtrl 0 then
    let a := { a with evtCfgErr := a.evtCfgErr || fld v 1 12 != fld a.evtCtrl 1 12, evtHold := false }
    if on then s.setAllot n a
    else (s.setAllot n { a.dropEvents with evtCtrl := setBit a.evtCtrl 0 false }).updIntx n
  else if on && !(decide (4 ≤ fld v 1 5) && decide (fld v 1 5 ≤ 16)) then s.setAllot n { a with evtCfgErr := true }
  else
    let a := { a with evtCtrl := BitVec.ofNat 32 (fld v 0 13) }
    s.setAllot n (if on then { a with evtSeq := 0, evtPhase := true, evtHold := false } else a)

/-- An allotment's own register is written through the management BAR0 or through its own. -/
def State.ownVia (s : State) (by_ n mgmt view : Nat) (f : State → State) : State :=
  if by_ = 0 ∨ by_ = n then s.viaBar by_ (seenAt by_ mgmt view) f else s

/-- EVT_HEAD (R259). -/
def execEvtHead (t by_ n : Nat) (v : Reg32) (s : State) : Host.Outcome State Fault Refusal :=
  .next ((s.start t).ownVia by_ n (0x30030 + 0x40 * n) 0x1030 fun s =>
    s.evtPos n (seenAt by_ (0x30030 + 0x40 * n) 0x1030) v)

/-- EVT_ENABLE (R257). -/
def execEvtEnable (t by_ n : Nat) (v : Reg32) (s : State) : Host.Outcome State Fault Refusal :=
  .next ((s.start t).ownVia by_ n (0x30028 + 0x40 * n) 0x1028 fun s => s.evtCtrl n v)

end Sys2Proof.Machine
end

