-- ==== Sys2Proof/Machine/Determinism.lean ====
section
/-! DEFINITION. Ordered mode, recording and its log, and the copy of the log (R327, R334 to R338, R341). -/

namespace Sys2Proof.Machine

open Sys2Proof

/-! ### Settings (R327, R334, R337, R341) -/

/-- Close every open hash window at count `c`. -/
def State.hashCloseAll (s : State) (c : Count) : State :=
  (s.allots.filter fun (_, a) => a.hashOpen).foldl (fun s (n, _) => s.hashClose n c) s

/-- DET_CTRL after a write of `v`; a window length out of range is not taken. -/
def detWord (old v : Reg32) : Reg32 :=
  BitVec.ofNat 32 (fld v 0 5 + at_ 8 6 (if 16 ≤ fld v 8 6 ∧ fld v 8 6 ≤ 40 then fld v 8 6 else fld old 8 6))

/-- Set DET_CTRL and LOG_FULL. -/
def State.setDet (s : State) (new : Reg32) (full : Bool) : State :=
  { s with det := { s.det with ctrl := new, full := full } }

/-- A write of DET_CTRL. A change of the windows' bounds closes the windows that are open (assumption 43). -/
def State.detCtrl (s : State) (v : Reg32) : State :=
  let old := s.det.ctrl
  let new := detWord old v
  let s := if bitOf new 3 = bitOf old 3 ∧ fld new 8 6 = fld old 8 6 then s else s.hashCloseAll s.now
  let s := s.setDet new (s.det.full && bitOf new 2 && bitOf new 4)
  if bitOf new 2 ∧ !bitOf old 2 then s.recordConfig else s.digestUpdate

/-- DET_CTRL (R327). -/
def execDetCtrl (t : Nat) (v : Reg32) (s : State) : Host.Outcome State Fault Refusal :=
  .next ((s.start t).viaBar 0 0x100000 fun s => s.detCtrl v)

/-! ### Windows and the buffer -/

/-- HASH_WINDOW_CLOSE: the end of an allotment's time window is passed (R337). -/
def execHashWindowClose (t n : Nat) (s : State) : Host.Outcome State Fault Refusal :=
  let s := s.start t
  let a := s.allot n
  let c := a.hashStart + 2 ^ fld s.det.ctrl 8 6
  if !a.hashOpen || bitOf s.det.ctrl 3 || decide (s.now < c) then .next s else .next (s.hashClose n c)

/-- REPLAY_BUFFER_DRAIN: bytes of the on-die buffer are programmed and counted (R139); one GAP record tells of what was
discarded while it was full (R335). -/
def execReplayBufferDrain (t bytes : Nat) (s : State) : Host.Outcome State Fault Refusal :=
  let s := s.start t
  let s := s.countInternal (Nat.min bytes s.det.buffered)
  let s := { s with det := { s.det with buffered := s.det.buffered - bytes } }
  if s.det.gapOpen = 0 ∨ !s.recording ∨ logBuffer < s.det.buffered + 65536 then .next s
  else
    let g := s.det.gapOpen
    .next (({ s with det := { s.det with gapOpen := 0 } }).record 5 0 0 0xFFFF s.now g 0 1 0)

/-! ### The copy of the log (R338) -/

/-- 32 B unit `u` of a record: its header, then its body. -/
def LogRec.unit (r : LogRec) (u : Nat) : BitVec 256 :=
  if u = 0 then
    BitVec.ofNat 256 (r.type + at_ 8 8 r.flags + at_ 16 6 r.allot + at_ 32 16 r.queue + at_ 48 16 r.len +
      at_ 64 64 r.stamp + at_ 128 64 r.seq + r.detail.toNat <<< 192)
  else BitVec.ofNat 256 (r.pkt.toNat >>> (256 * (u - 1)))

/-- The 32 B of the log region of flash at cumulative byte `o`, encrypted under the storage key (R334, R396); bytes of no
record are the padding of a 64 KiB unit. -/
def State.logFlash (s : State) (o : Nat) : BitVec 256 :=
  logCipher (o % logRing) (match s.det.log.find? fun r => decide (r.off ≤ o) && decide (o < r.off + 32 * r.len) with
    | some r => r.unit ((o - r.off) / 32)
    | none => 0)

/-- The 32 B of the log at byte `o` as a copy delivers them. -/
def State.logUnit (s : State) (o : Nat) : BitVec 256 := logCipher (o % logRing) (s.logFlash o)

/-- The cumulative byte count at a log offset: the latest one not after the tail. -/
def State.logAt (s : State) (src : Nat) : Nat :=
  let a := s.det.tail / logRing * logRing + src
  if s.det.tail < a then a - logRing else a

/-- A range of the log is kept and written in full. -/
def State.logHas (s : State) (a len : Nat) : Bool := decide (s.det.head ≤ a) && decide (a + len ≤ s.det.tail)

/-- The destination of a copy: a range of one PRIVATE extent that allotment 0 owns and may write. -/
def State.copyTarget (s : State) (dst len : Nat) : Bool :=
  match s.rangeExtent dst len with
  | some (_, x) => x.owner == 0 && x.sharing == 0 && !x.composite && s.operandFault 0 s.now ⟨dst, len, true⟩ == 0
  | none => false

/-- GO is written to DET_COPY_CTRL. -/
def State.logCopy (s : State) (v : Reg32) : State :=
  let len := 65536 * fld s.det.copyLen 0 16
  if !bitOf v 0 ∨ len = 0 then s
  else
    let src := fld s.det.copySrc 0 40
    let dst := fld s.det.copyDst 0 48
    let a := s.logAt src
    if src % 65536 != 0 || dst % 64 != 0 || !s.logHas a len || !s.copyTarget dst len || s.det.copying.isSome then
      { s with det := { s.det with copyErr := true } }
    else
      let s := match s.extentAt dst with | some (e, _) => s.stampWrite e s.now | none => s
      { s with det := { s.det with copying := some (a, dst, len) } }

/-- LOG_COPY (R338). -/
def execLogCopy (t : Nat) (v : Reg32) (s : State) : Host.Outcome State Fault Refusal :=
  .next ((s.start t).viaBar 0 0x100054 fun s => s.logCopy v)

/-- Copy one line of the log to a local address, while its extent is still there. -/
def State.copyLogLine (s : State) (o addr : Nat) : State :=
  match s.extentAt addr with
  | none => s
  | some (e, x) =>
    let v : Line := s.logUnit (o + 32) ++ s.logUnit o
    let n := (addr - x.base) / 64
    let s := (s.wipeFrames e x n).foldl (fun s k => (s.wipeFrame k).wake .wipe k noEnv) s
    (s.writeLogical e x 0 0 x.ver n (.data v) noEnv).2

/-- LOG_COPY_DONE: the copy in progress ends. -/
def execLogCopyDone (t : Nat) (s : State) : Host.Outcome State Fault Refusal :=
  let s := s.start t
  match s.det.copying with
  | none => .next s
  | some (a, dst, len) =>
    let s := (List.range (len / 64)).foldl (fun s i => s.copyLogLine (a + 64 * i) (dst + 64 * i)) s
    .next { s with det := { s.det with copying := none, copyDone := true } }

end Sys2Proof.Machine
end

