-- ==== Sys2Proof/Machine/Dram.lean ====
section
/-! DEFINITION. GDDR7 maintenance: refresh, retraining, escalation, and the evacuation of a channel (R114 to R125). -/

namespace Sys2Proof.Machine

open Sys2Proof

/-- Owed refreshes that force a train. -/
def State.postponeMax (s : State) : Nat := fld s.drm.ctrl 0 4
/-- Refreshes issued ahead when idle. -/
def State.pullInMax (s : State) : Nat := fld s.drm.ctrl 4 4
/-- A channel that no longer serves. -/
def Chan.out (c : Chan) : Bool := c.st == 4 || c.st == 5
/-- The part schedules no maintenance of a channel: it no longer serves, or GDDR7 refreshes itself (R362). -/
def State.chanRests (s : State) (ch : Nat) : Bool := (s.chan ch).out || s.ep.lowPower
/-- Interval between refreshes that fall due (R114). -/
def Chan.interval (c : Chan) : Nat := if c.hot then 119 else 238

/-- Count from `now` on at which channel `ch` next pauses (R117). -/
def nextPause (ch now : Nat) : Count :=
  let n := now / 1000000 * 1000000 + ch * 13888
  if now ≤ n then n else n + 1000000

/-- The next pause or sweep slice of a channel: owed refreshes go with one that is less than 2,000 CC away (R116). -/
def Chan.nextStop (c : Chan) (ch now : Nat) : Count :=
  if c.st = 1 then if c.lastSlice = 0 then now else Nat.max now (c.lastSlice + 4000) else nextPause ch now

/-- A pause or slice started less than 2,000 CC ago: what falls due goes with it (R116). -/
def Chan.near (c : Chan) (now : Count) : Bool := c.lastMaint != 0 && decide (now < c.lastMaint + 2000)

/-- No forced train may start yet: the last one is less than 2,000 CC ago, or a pause or slice comes within 2,000 CC
(R116). -/
def Chan.holdTrain (c : Chan) (ch now : Nat) : Bool :=
  (c.lastTrain != 0 && decide (now < c.lastTrain + 2000)) || decide (c.nextStop ch now < now + 2000)

/-- REFRESH_DUE: a refresh falls due, at its interval after the last, and is issued, taken from those issued ahead,
postponed, or forced with the others owed (R114 to R116). -/
def execRefreshDue (t ch : Nat) (busy : Bool) (s : State) : Host.Outcome State Fault Refusal :=
  let s := s.start t
  let c := s.chan ch
  if s.chanRests ch ∨ s.now < c.due then .next s
  else
    let s := s.modChan ch fun c => { c with due := (if c.due = 0 then s.now else c.due) + c.interval }
    if 0 < c.ahead then .next (s.modChan ch fun c => { c with ahead := c.ahead - 1 })
    else if !busy then .next (s.modChan ch fun c => { c with owed := 0 })
    else if c.owed + 1 < s.postponeMax then .next (s.modChan ch fun c => { c with owed := c.owed + 1 })
    else if c.near s.now then .next (s.modChan ch fun c => { c with owed := 0 })
    else if c.holdTrain ch s.now then .next (s.modChan ch fun c => { c with owed := c.owed + 1 })
    else .next (s.modChan ch fun c => { c with owed := 0, forced := satAdd 16 c.forced 1, lastTrain := s.now })

/-- PULL_IN_REFRESH: an idle channel issues what it owes, then refreshes ahead of time (R115). -/
def execPullInRefresh (t ch n : Nat) (busy : Bool) (s : State) : Host.Outcome State Fault Refusal :=
  let s := s.start t
  if busy || s.chanRests ch then .next s
  else .next (s.modChan ch fun c => { c with
    owed := c.owed - n, ahead := Nat.min s.pullInMax (c.ahead + (n - c.owed)) })

/-- Worst lane margin that passes: 1/32 UI in 1/256 UI (R117). -/
def marginOk (margin : Nat) : Bool := decide (8 ≤ margin)

/-- Refreshes owed that would be forced within 2,000 CC are issued inside a pause or slice (R116). -/
def State.issueOwed (s : State) (ch : Nat) : State :=
  s.modChan ch fun c => { c with owed := if s.postponeMax ≤ c.owed + 2000 / c.interval then 0 else c.owed }

/-- A retraining pause is due: at the channel's counts, or one that test mode has added and R116 permits (R117, R435). -/
def State.pauseDue (s : State) (ch : Nat) : Bool :=
  let c := s.chan ch
  (s.now % 1000000 == ch * 13888 && c.lastMaint != s.now) ||
  (s.prt.pauses.contains ch && !(c.near s.now) && !(c.lastTrain != 0 && decide (s.now < c.lastTrain + 2000)))

/-- RETRAINING_PAUSE: training in the narrow window and a reading of the temperature; escalation suspends the pauses
(R114, R117, R119, R435). -/
def execRetrainingPause (t ch margin : Nat) (hot : Bool) (s : State) : Host.Outcome State Fault Refusal :=
  let s := s.start t
  let c := s.chan ch
  if c.st = 1 ∨ s.chanRests ch ∨ !(s.pauseDue ch) then .next s
  else
    let s := if s.now % 1000000 = ch * 13888 then s
      else { s with prt := { s.prt with pauses := s.prt.pauses.erase ch } }
    let s := s.modChan ch fun c => { c with hot := hot, margin := margin % 256, lastMaint := s.now }
    let s := s.issueOwed ch
    .next (if marginOk margin then s.modChan ch fun c => { c with retrains := (c.retrains + 1) % 2 ^ 32 }
      else s.escalate ch)

/-- Slices of an escalation step (R119). -/
def stepSlices (step : Nat) : Nat := if step = 1 then 32 else if step = 2 then 64 else if step = 3 then 128 else 64

/-- A slice may start: 4,000 CC after the last one, and 2,000 CC after any other interruption (R116, R119). -/
def Chan.sliceDue (c : Chan) (now : Count) : Bool :=
  (c.lastSlice == 0 || decide (c.lastSlice + 4000 ≤ now)) && !(c.near now) &&
  !(c.lastTrain != 0 && decide (now < c.lastTrain + 2000))

/-- SWEEP_SLICE: one slice of the current step; the step passes with it, or gives way to the next after its last
(R119 to R122). -/
def execSweepSlice (t ch margin : Nat) (s : State) : Host.Outcome State Fault Refusal :=
  let s := s.start t
  let c := s.chan ch
  if c.st != 1 ∨ s.ep.lowPower ∨ !(c.sliceDue s.now) then .next s
  else
    let s := s.modChan ch fun c => { c with
      slices := c.slices + 1, lastMaint := s.now, lastSlice := s.now, margin := margin % 256 }
    let s := s.issueOwed ch
    if marginOk margin then
      if c.sweep < 4 then .next (s.modChan ch fun c => { c with st := 0, slices := 0, lastChange := s.now })
      else
        let s := s.modChan ch fun c => { c with st := 2, slices := 0, copied := none, switched := 0, lastChange := s.now }
        .next (s.retireChannel ch 0x11)
    else if c.slices + 1 < stepSlices c.sweep then .next s
    else if c.sweep < 4 then .next (s.modChan ch fun c => { c with sweep := c.sweep + 1, slices := 0 })
    else .next (s.channelLost ch)

/-- The last chunk has switched: the channel is RETIRED, and the life record holds it (R121). -/
def State.evacuated (s : State) (ch : Nat) : State :=
  (s.modChan ch fun c => { c with st := 4, copied := none, lastChange := s.now }).recordChannel ch

/-- EVACUATION_CHUNK_COPY: the next chunk, in ascending order, has been copied to its slot and its switch count is fixed
(R121). -/
def execEvacuationChunkCopy (t ch w : Nat) (s : State) : Host.Outcome State Fault Refusal :=
  let s := s.start t
  let c := s.chan ch
  if (c.st != 2 ∧ c.st != 3) ∨ c.copied.isSome then .next s
  else
    let s := if c.st = 2 then s.modChan ch fun c => { c with st := 3, readFails := (0, 0), lastChange := s.now } else s
    match c.todo with
    | [] => .next (s.evacuated ch)
    | i :: _ => .next (s.modChan ch fun c => { c with copied := some (i, Nat.max w s.now) })

/-- CHUNK_SWITCH: the switch count is reached and requests use the slot; after the last chunk the channel is
RETIRED (R121). -/
def execChunkSwitch (t ch : Nat) (s : State) : Host.Outcome State Fault Refusal :=
  let s := s.start t
  match (s.chan ch).copied with
  | some (i, w) =>
    if s.now < w then .next s
    else
      let s := s.modChan ch fun c => { c with
        todo := c.todo.filter (· != i), copied := none, switched := c.switched + 1 }
      .next (if (s.chan ch).todo.isEmpty then s.evacuated ch else s)
  | none => .next s

end Sys2Proof.Machine
end

