-- ==== Sys2Proof/Machine/Endpoint.lean ====
section
/-! DEFINITION. The host endpoint: links and their training, HDM decoders, function-level reset, bus mastering,
D-states, MSI-X and IDE keying (R70, R310, R345, R347, R351, R357 to R365, R454). -/

namespace Sys2Proof.Machine

open Sys2Proof

/-! ### Resets of functions and links (R310, R323, R345, R360, R454) -/

/-- A logical device after a function-level reset, with BAR4 at the size that ALT_CTRL asks for and its key handles
discarded (R351, R360, R406). HDM decoders, accepted capacity, the mailbox logs, SPDM sessions and PME state are no PCIe
state (assumption 44). -/
def Ld.reset (d : Ld) (aperture : Nat) : Ld :=
  { d with dstate := 0, bme := false, mse := false, memEn := false, msix := false, fmask := false, intxDis := false
           intx := false, hdmDb := false, aperture := aperture, masked := List.range 128, pend := [], table := []
           handles := [] }

/-- BAR4 size that ALT_CTRL of a logical device's allotment asks for (R84); the management function has none (R350). -/
def State.wantAperture (s : State) (k : Nat) : Nat :=
  match s.boundAllot k with | some n => if n = 0 then 0 else fld (s.allot n).ctrl 0 6 | none => 0

/-- A function enters D0: a part in its low-power state starts its exit (R362). -/
def State.leaveRest (s : State) : State :=
  if s.ep.lowPower then { s with ep := { s.ep with exiting := true } } else s

/-- Function-level reset of a logical device at this count: its allotment's queues, windows, views and reservations,
and its PCIe state (R320, R360). -/
def State.resetFunction (s : State) (k kind : Nat) : State :=
  let ap := s.wantAperture k
  let s := s.leaveRest
  match s.allotOf k with
  | some n => ((s.modLd k fun d => { d.reset ap with crs := true }).resetAllot n kind s.now none)
  | none => s.modLd k fun d => d.reset ap

/-- Port mode: 0 SLD, 1 MLD, 2 merged into the even partner, 3 disabled (R367). -/
def State.portMode (s : State) (p : Nat) : Nat := fld s.ep.portMode (2 * p) 2

/-- LD-IDs that a port exposes (R344). -/
def State.portLds (s : State) (p : Nat) : List Nat :=
  match s.portMode p with | 0 => [0] | 1 => List.range 16 | _ => []

/-- Lanes of a port when it trains in full. -/
def State.fullWidth (s : State) (p : Nat) : Nat := if p % 2 = 0 ∧ s.portMode (p + 1) = 2 then 16 else 8

/-- Operating points of R345: 32 or 64 GT/s at full or half width. -/
def State.pointOk (s : State) (p rate width : Nat) : Bool :=
  (rate == 1 || rate == 2) && (width == s.fullWidth p || 2 * width == s.fullWidth p)

/-- The port has a link of its own. -/
def State.portLive (s : State) (p : Nat) : Bool := s.portMode p == 0 || s.portMode p == 1

/-- Receivers of a link event of a port: allotment 0 and the port's own allotments. -/
def State.portAllots (s : State) (p : Nat) : List Nat :=
  s.enabledAllots.filter fun n => n == 0 || s.ldOf n / 16 == p

/-- A link leaves L0: every logical device of the port is reset, and LINK_DOWN is posted, or kept in the part fault
log when allotment 0 is bound to the port (R310). -/
def State.linkDown (s : State) (p : Nat) : State :=
  let s := s.modHport p fun h => { h with rate := 0, width := 0, training := !h.perst && s.portLive p }
  let s := { s with ep := { s.ep with linkChange := true } }
  let s := (s.portLds p).foldl (fun s l => s.resetFunction (ldKey p l) 3) s
  (s.faultTo (if s.ldOf 0 / 16 = p then [] else [0]) 5 0x51 p 0xFFFF 0).digestUpdate

/-- A link is degraded: it serves below the top operating point (R310, R345). -/
def State.linkPoor (s : State) (p rate width : Nat) : State :=
  if rate = 2 ∧ width = s.fullWidth p then s else s.faultTo (s.portAllots p) 5 0x50 p 0xFFFF 0

/-- A link that trained to an unsupported point is held down, and its training is tried again 1 s later (R345). -/
def State.holdDown (s : State) (p : Nat) : State :=
  (s.linkDown p).modHport p fun h => { h with held := some (s.now + 1000000000) }

/-- A link enters L0 at an operating point, or is held down (R345). -/
def State.linkUp (s : State) (p rate width : Nat) : State :=
  if s.pointOk p rate width then
    let s := s.modHport p fun h => { h with
      rate := rate, width := width, training := false, held := none
      replays := (h.replays + h.corrupt) % 2 ^ 32, corrupt := 0 }
    let s := { s with ep := { s.ep with linkChange := true } }
    (s.linkPoor p rate width).digestUpdate
  else s.holdDown p

/-- LINK_UP: a link that trains, and is not held down, finishes training (R345). -/
def execLinkUp (t port rate width : Nat) (s : State) : Host.Outcome State Fault Refusal :=
  let s := s.start t
  .next (if (s.hport port).training && (s.hport port).held.isNone then s.linkUp port rate width else s)

/-- LINK_TRAINING_RETRY: from 1 s on a link held down trains again; at an unsupported point it stays held for another
(R345). -/
def execLinkTrainingRetry (t port rate width : Nat) (s : State) : Host.Outcome State Fault Refusal :=
  let s := s.start t
  .next (if (s.hport port).training && (s.hport port).held.any (fun c => decide (c ≤ s.now)) then
      (if s.pointOk port rate width then s.linkUp port rate width
      else s.modHport port fun h => { h with held := some (s.now + 1000000000) })
    else s)

/-- LINK_DOWN (R310). -/
def execLinkDown (t port : Nat) (s : State) : Host.Outcome State Fault Refusal :=
  let s := s.start t
  .next (if (s.hport port).rate = 0 then s else s.linkDown port)

/-- LINK_DEGRADED: a link retrains narrower or slower and keeps serving, or is held down (R310, R345). -/
def execLinkDegraded (t port rate width : Nat) (s : State) : Host.Outcome State Fault Refusal :=
  let s := s.start t
  let h := s.hport port
  if h.rate = 0 then .next s
  else if !s.pointOk port rate width then .next (s.holdDown port)
  else
    let s := s.modHport port fun h => { h with rate := rate, width := width }
    let s := { s with ep := { s.ep with linkChange := true } }
    .next (s.faultTo (s.portAllots port) 5 0x50 port 0xFFFF 0).digestUpdate

/-- PERST# of the odd port of a merged pair is ignored (R454). -/
def execPerstAssert (t port : Nat) (s : State) : Host.Outcome State Fault Refusal :=
  let s := s.start t
  if s.portMode port = 2 then .next s
  else
    let s := s.modHport port fun h => { h with perst := true, training := false, held := none }
    .next (if (s.hport port).rate = 0 then s else s.linkDown port)

/-- PERST_DEASSERT: with PWR_GOOD high the port begins link training (R454). -/
def execPerstDeassert (t port : Nat) (s : State) : Host.Outcome State Fault Refusal :=
  let s := s.start t
  if s.portMode port = 2 then .next s
  else .next (s.modHport port fun h => { h with
    perst := false, training := h.training || (s.gen.pwrGood && s.portLive port && h.rate == 0) })

/-- FUNCTION_LEVEL_RESET (R360). -/
def execFunctionLevelReset (t port ld : Nat) (s : State) : Host.Outcome State Fault Refusal :=
  .next ((s.start t).config (ldKey port ld) fun s => s.resetFunction (ldKey port ld) 1)

/-- A write to the CXL and MSI-X blocks in BAR0 of a logical device (R347). -/
def State.ldBar (s : State) (k : Nat) (f : State → State) : State :=
  match s.allotOf k with
  | some n => if s.barOn n then f s else s.emit (.unsupported 0)
  | none => s.emit (.unsupported 0)

/-! ### HDM decoders (R70) -/

/-- Ways and granularity that a decoder may have. -/
def decoderOk (d : HdmDecoder) : Bool :=
  [1, 2, 4, 8].contains d.ways && [256, 512, 1024, 2048, 4096, 8192, 16384].contains d.gran

/-- DPA at which decoder `k` starts: after the committed decoders below it, and its skip. -/
def Ld.nextDpa (d : Ld) (k skip : Nat) : Nat :=
  maxN 0 ((d.decoders.filter fun (i, _) => decide (i < k)).map fun (_, x) => x.dpaBase + x.size / x.ways) + skip

/-- HDM_DECODER_COMMIT: the decoder decodes from now on, or its commit fails (R70). -/
def execHdmDecoderCommit (t port ld k : Nat) (dec : HdmDecoder) (s : State) : Host.Outcome State Fault Refusal :=
  .next ((s.start t).ldBar (ldKey port ld) fun s => s.modLd (ldKey port ld) fun d =>
    if decoderOk dec then
      { d with decoders := sins d.decoders k { dec with dpaBase := d.nextDpa k dec.skip }
               decErr := d.decErr.filter (· != k) }
    else { d with decoders := sdel d.decoders k, decErr := k :: d.decErr.filter (· != k) })

/-! ### Bus mastering and D-states (R252, R359, R361) -/

/-- An allotment's function stops mastering: its queues stop, outstanding fetches are discarded, and its held
commands end. -/
def State.masterLost (s : State) (n : Nat) : State :=
  let qs := s.queuesOf n
  let s := qs.foldl (fun s q =>
    let s := s.modQueue q fun v => { v with fetchDrop := v.fetchDrop || v.fetching != 0 }
    if (s.queue q).state = 1 ∨ (s.queue q).state = 2 then s.queueTo q 3 3 else s) s
  let held := s.cmds.filter fun c => c.allot == n && c.phase == .held && qs.contains c.queue
  held.foldl (fun s c => (s.cancel c).masterOff c.id) s

/-- Pending messages of unmasked vectors are sent (R357, R359). -/
def State.sendPending (s : State) (k : Nat) : State :=
  let d := s.ld k
  if d.msix && d.master && !d.fmask then
    let go := (d.pend.filter fun v => !d.masked.contains v).reverse
    let s := s.setLd k { d with pend := d.pend.filter fun v => d.masked.contains v }
    go.foldl (fun s v => s.emit (.msix k v)) s
  else s

/-- Event writes of an allotment go on while slots are free (R359). -/
def State.evtResume (n : Nat) : Nat → State → State
  | 0, s => s
  | k + 1, s =>
    let a := s.allot n
    if s.evtWritable n && (!a.evtHeld.isEmpty || !a.evtGroup.isEmpty || !a.evtNext.isEmpty || a.evtLost != 0) then
      State.evtResume n k (s.evtStep n)
    else s

/-- A function masters again. -/
def State.masterBack (s : State) (k : Nat) : State :=
  let s := s.sendPending k
  match s.allotOf k with
  | some n => State.evtResume n 101 s
  | none => s

/-- BUS_MASTER_CLEAR (R252, R359). -/
def execBusMasterClear (t port ld : Nat) (s : State) : Host.Outcome State Fault Refusal :=
  let k := ldKey port ld
  .next ((s.start t).config k fun s =>
    let was := (s.ld k).master
    let s := s.modLd k fun d => { d with bme := false }
    match s.allotOf k with
    | some n => if was then s.masterLost n else s
    | none => s)

/-- BUS_MASTER_SET (R359). -/
def execBusMasterSet (t port ld : Nat) (s : State) : Host.Outcome State Fault Refusal :=
  let k := ldKey port ld
  .next ((s.start t).config k fun s => (s.modLd k fun d => { d with bme := true }).masterBack k)

/-- D3HOT_ENTRY (R361). -/
def execD3hotEntry (t port ld : Nat) (s : State) : Host.Outcome State Fault Refusal :=
  let k := ldKey port ld
  .next ((s.start t).config k fun s =>
    let s := s.modLd k fun d => { d with dstate := 3 }
    match s.allotOf k with
    | some n => s.masterLost n
    | none => s)

/-- D0_ENTRY: everything is as it was, and the part leaves its low-power state (R361, R362). -/
def execD0Entry (t port ld : Nat) (s : State) : Host.Outcome State Fault Refusal :=
  let k := ldKey port ld
  .next ((s.start t).config k fun s =>
    let s := s.modLd k fun d => { d with dstate := 0 }
    s.leaveRest.masterBack k)

/-- Conditions of the part's low-power state (R362, R445). -/
def State.mayRest (s : State) : Bool :=
  bitOf s.ep.ctrl 0 && !s.ep.lowPower && s.cmds.isEmpty && !(s.tam.ports.any fun (_, p) => p.up) &&
    s.enabledAllots.all fun n => (s.ld (s.ldOf n)).dstate == 3

/-- Encode and write every dirty entry of the merge buffer (R149, R167, R362). -/
def State.flushAll (s : State) (env : ReadEnv) : State := s.dir.merge.foldl (fun s m => s.flushEntry m env) s

/-- PART_LOW_POWER_ENTRY (R362). -/
def execPartLowPowerEntry (t : Nat) (env : ReadEnv) (s : State) : Host.Outcome State Fault Refusal :=
  let s := s.startEnv t env
  if s.mayRest then
    let s := s.flushAll env
    .next { s with ep := { s.ep with lowPower := true, exiting := false } }
  else .next s

/-- A channel leaves self-refresh with one retraining pause; what the pause reads stands in `pauses`, and a channel that is
not listed there reads as it did last (R123). -/
def State.exitPause (s : State) (pauses : List (Nat × Nat × Bool)) (ch : Nat) : State :=
  let c := s.chan ch
  if c.out then s
  else
    let r := ((pauses.find? (·.1 == ch)).map (·.2)).getD (Nat.max 8 c.margin, c.hot)
    let s := s.modChan ch fun c => { c with hot := r.2, margin := r.1 % 256, lastMaint := s.now, due := 0, rows := [] }
    if marginOk r.1 then s.modChan ch fun c => { c with retrains := (c.retrains + 1) % 2 ^ 32 } else s.escalate ch

/-- Every pause of an exit passes. -/
def exitPasses (pauses : List (Nat × Nat × Bool)) : Bool := pauses.all fun (_, m, _) => marginOk m

/-- LOW_POWER_EXIT_DONE: every channel has passed one retraining pause, in the order of R117, and waiting requests are
served (R123, R362); while a channel has not passed, they go on waiting. -/
def execLowPowerExitDone (t : Nat) (env : ExitEnv) (s : State) : Host.Outcome State Fault Refusal :=
  let s := s.startEnv t env.reads
  if s.ep.exiting then
    let s := (List.range 72).foldl (fun s ch => s.exitPause env.pauses ch) s
    .next (if exitPasses env.pauses then
        ({ s with ep := { s.ep with lowPower := false, exiting := false } }).wake .exit 0 env.reads
      else s)
  else .next s

/-! ### Memory space, vectors and IDE (R351, R357, R365) -/

/-- MEMORY_SPACE_ENABLE: while it is clear, BAR4 takes the size of ALT_CTRL (R351). -/
def execMemorySpaceEnable (t port ld : Nat) (on : Bool) (s : State) : Host.Outcome State Fault Refusal :=
  let k := ldKey port ld
  .next ((s.start t).config k fun s =>
    s.modLd k fun d => { d with mse := on, aperture := if on then d.aperture else s.wantAperture k })

/-- A vector's mask is cleared; its pending message is sent while the function masters (R357). -/
def State.unmask (s : State) (k vec : Nat) : State :=
  (s.modLd k fun d => { d with masked := d.masked.filter (· != vec) }).sendPending k

/-- MSIX_VECTOR_UNMASK (R357). -/
def execMsixVectorUnmask (t port ld vec : Nat) (s : State) : Host.Outcome State Fault Refusal :=
  .next ((s.start t).ldBar (ldKey port ld) fun s => s.unmask (ldKey port ld) vec)

/-- IDE_KM: a stream is keyed and Secure: 0 CXL.cachemem and 1 CXL.io link through LD-ID 0, 2 to 9 the selective
streams; only over a secured session (R365). -/
def execIdeKm (t port ld stream : Nat) (ok : Bool) (s : State) : Host.Outcome State Fault Refusal :=
  let s := s.start t
  if !ok ∨ (s.ld (ldKey port ld)).sessions.isEmpty ∨ (stream < 2 ∧ ld != 0) then .next s
  else .next ((s.modLd (ldKey port ld) fun d => { d with lastSigned := none }).modHport port fun h => { h with ide := if h.ide.contains stream then h.ide else h.ide ++ [stream] })

end Sys2Proof.Machine
end

