-- ==== Sys2Proof/Machine/Mailbox.lean ====
section
/-! DEFINITION. The primary mailbox of a logical device and the FM API of an MLD port (R346, R348, R349, R366).
Return codes are those of CXL 3.1 (assumption 45): 0 success, 2 invalid input, 3 unsupported, 6
busy. -/

namespace Sys2Proof.Machine

open Sys2Proof

/-- A mailbox command reaches the part through BAR0 of its logical device (R347, R352). -/
def State.mailbox (s : State) (port ld : Nat) (f : Nat → Nat → State → State) : State :=
  let k := ldKey port ld
  match s.allotOf k with
  | none => s.emit (.unsupported 0)
  | some n => if s.barOn n then f k n s else s.emit (.unsupported 0)

/-- Dynamic-capacity commands complete with Busy before READY (R463). -/
def State.capacityBox (s : State) (port ld : Nat) (f : Nat → State → State) : State :=
  s.mailbox port ld fun k _ s => if s.gen.phase = 6 then f k s else s.reply 6 []

/-- Device ID of R347. -/
def deviceId (n : Nat) : Nat := if n = 0 then 0x1865 else 0x1864

/-- IDENTIFY: vendor, device and serial number (R347, R348). -/
def execIdentify (t port ld : Nat) (s : State) : Host.Outcome State Fault Refusal :=
  .next ((s.start t).mailbox port ld fun _ n s => s.reply 0 [0x1F3B, deviceId n, Config.serial.toNat])

/-- An event log of a logical device: 0 informational, 4 dynamic capacity. -/
def Ld.eventLog (d : Ld) (log : Nat) : Option (List (Nat × Nat × Nat)) :=
  if log = 0 then some d.infoLog else if log = 4 then some d.dcdLog else none

/-- GET_EVENT_RECORDS: handle, kind and extent of each record (R348). -/
def execGetEventRecords (t port ld log : Nat) (s : State) : Host.Outcome State Fault Refusal :=
  .next ((s.start t).mailbox port ld fun k _ s =>
    match (s.ld k).eventLog log with
    | some l => s.reply 0 (l.flatMap fun (h, kind, e) => [h, kind, e])
    | none => s.reply 2 [])

/-- CLEAR_EVENT_RECORDS: the records with the named handles are removed (R348). -/
def execClearEventRecords (t port ld log : Nat) (handles : List Nat) (s : State) : Host.Outcome State Fault Refusal :=
  .next ((s.start t).mailbox port ld fun k _ s =>
    let keep := fun (r : Nat × Nat × Nat) => !handles.contains r.1
    match (s.ld k).eventLog log with
    | none => s.reply 2 []
    | some l =>
      if handles.any fun h => !(l.any fun r => r.1 == h) then s.reply 2 []
      else
        (s.modLd k fun d => if log = 0 then { d with infoLog := d.infoLog.filter keep }
          else { d with dcdLog := d.dcdLog.filter keep }).reply 0 [])

/-- GET_EVENT_INTERRUPT_POLICY: the vector of each log (R348). -/
def execGetEventInterruptPolicy (t port ld : Nat) (s : State) : Host.Outcome State Fault Refusal :=
  .next ((s.start t).mailbox port ld fun k _ s =>
    s.reply 0 ((s.ld k).logVec.flatMap fun (l, v) => [l, v]))

/-- SET_EVENT_INTERRUPT_POLICY (R348). -/
def execSetEventInterruptPolicy (t port ld log vec : Nat) (s : State) : Host.Outcome State Fault Refusal :=
  .next ((s.start t).mailbox port ld fun k _ s =>
    if ((s.ld k).eventLog log).isNone ∨ 128 ≤ vec then s.reply 2 []
    else (s.modLd k fun d => { d with logVec := sins d.logVec log vec }).reply 0 [])

/-- Power-on time in seconds (R424). -/
def State.powerOn (s : State) : Nat :=
  s.pwr.powerOnBase + (match s.pwr.powerOnSince with | some c => (s.now - c) / 1000000000 | none => 0)

/-- The calendar now, in seconds; once the count has been lost it goes on by power-on time alone, and it stays 0 until
it is first set (R425). -/
def State.calendarNow (s : State) : Nat :=
  if s.pwr.calValid then s.pwr.calendar + (s.now - s.pwr.calendarAt) / 1000000000
  else if s.pwr.calendar = 0 then 0
  else s.pwr.calendar + (s.powerOn - s.pwr.calendarAt)

/-- GET_TIMESTAMP (R348, R425). -/
def execGetTimestamp (t port ld : Nat) (s : State) : Host.Outcome State Fault Refusal :=
  .next ((s.start t).mailbox port ld fun _ _ s => s.reply 0 [s.calendarNow])

/-- Opcodes of the mailbox (R348). -/
def mailboxOps : List Nat :=
  [0x0001, 0x0100, 0x0101, 0x0102, 0x0103, 0x0300, 0x0400, 0x0401, 0x4000, 0x4800, 0x4801, 0x4802, 0x4803]

/-- GET_SUPPORTED_LOGS: the Command Effects Log alone, and its size in bytes (R348). -/
def execGetSupportedLogs (t port ld : Nat) (s : State) : Host.Outcome State Fault Refusal :=
  .next ((s.start t).mailbox port ld fun _ _ s => s.reply 0 [1, 4 * mailboxOps.length])

/-- GET_LOG: opcode and effects of each mailbox command; the effects are stated nowhere and free (R348). -/
def execGetLog (t port ld off len : Nat) (s : State) : Host.Outcome State Fault Refusal :=
  .next ((s.start t).mailbox port ld fun _ _ s =>
    if 4 * mailboxOps.length < off + len then s.reply 2 []
    else
      let (v, s) := s.fresh
      let log := mailboxOps.zipIdx.flatMap fun (op, i) => leBytes 2 op ++ leBytes 2 (fld v (16 * i) 16)
      s.reply 0 [] ((log.drop off).take len))

/-- IDENTIFY_MEMORY_DEVICE: volatile capacity 0, and the dynamic region (R70, R348). -/
def execIdentifyMemoryDevice (t port ld : Nat) (s : State) : Host.Outcome State Fault Refusal :=
  .next ((s.start t).mailbox port ld fun _ _ s => s.reply 0 [0, 2 ^ 46])

/-- GET_DYNAMIC_CAPACITY_CONFIGURATION: one region at DPA 0 of 64 TiB, blocks of 2 MiB (R70, R348). -/
def execGetDynamicCapacityConfiguration (t port ld : Nat) (s : State) : Host.Outcome State Fault Refusal :=
  .next ((s.start t).capacityBox port ld fun _ s => s.reply 0 [1, 0, 2 ^ 46, mib2])

/-- GET_DYNAMIC_CAPACITY_EXTENT_LIST: the ranges accepted (R348). -/
def execGetDynamicCapacityExtentList (t port ld : Nat) (s : State) : Host.Outcome State Fault Refusal :=
  .next ((s.start t).capacityBox port ld fun k s =>
    s.reply 0 ((s.ld k).accepted.flatMap fun (b, l, _) => [b, l]))

/-- ADD_DYNAMIC_CAPACITY_RESPONSE: offered ranges that are listed pass check 3 from this stamp; an empty list rejects
the oldest offer (R349). -/
def execAddDynamicCapacityResponse (t port ld : Nat) (exts : List DcdExtent) (s : State) :
    Host.Outcome State Fault Refusal :=
  .next ((s.start t).capacityBox port ld fun k s =>
    let d := s.ld k
    let offered (x : DcdExtent) := d.offered.any fun (b, l) => b == x.dpa && l == x.len
    if exts.isEmpty then (s.setLd k { d with offered := d.offered.drop 1 }).reply 0 []
    else if !exts.all offered then s.reply 2 []
    else
      (s.setLd k { d with
        accepted := d.accepted ++ exts.map fun x => (x.dpa, x.len, s.now)
        offered := d.offered.filter fun (b, l) => !exts.any fun x => x.dpa == b && x.len == l }).reply 0 [])

/-- RELEASE_DYNAMIC_CAPACITY: the named ranges fail check 3 from this stamp (R349). -/
def execReleaseDynamicCapacity (t port ld : Nat) (exts : List DcdExtent) (s : State) :
    Host.Outcome State Fault Refusal :=
  .next ((s.start t).capacityBox port ld fun k s =>
    let d := s.ld k
    let held (x : DcdExtent) := d.accepted.any fun (b, l, _) => decide (b ≤ x.dpa) && decide (x.dpa + x.len ≤ b + l)
    if !exts.all held then s.reply 2 []
    else
      (s.setLd k { d with accepted := exts.foldl (fun l x => cutRange x.dpa (x.dpa + x.len) l) d.accepted }).reply 0 [])

/-! ### FM API (R346, R366) -/

/-- The FM API answers on an MLD port alone. -/
def State.fmApi (s : State) (port : Nat) (f : State → State) : State :=
  if s.portMode port = 1 then f s else s.reply 3 []

/-- GET_LD_INFO: memory size 0 and 16 LDs (R346). -/
def execGetLdInfo (t port : Nat) (s : State) : Host.Outcome State Fault Refusal :=
  .next ((s.start t).fmApi port fun s => s.reply 0 [0, 16])

/-- GET_LD_ALLOCATIONS: 0 for every LD (R346). -/
def execGetLdAllocations (t port : Nat) (s : State) : Host.Outcome State Fault Refusal :=
  .next ((s.start t).fmApi port fun s => s.reply 0 (List.replicate 16 0))

/-- GET_QOS_CONTROL: its fields are stated nowhere and free (R346). -/
def execGetQosControl (t port : Nat) (s : State) : Host.Outcome State Fault Refusal :=
  .next ((s.start t).fmApi port fun s =>
    let (v, s) := s.fresh
    s.reply 0 [v.toNat])

/-- GET_QOS_STATUS: the DevLoad of the most recent response (R366). -/
def execGetQosStatus (t port ld : Nat) (s : State) : Host.Outcome State Fault Refusal :=
  .next ((s.start t).fmApi port fun s => s.reply 0 [(s.ld (ldKey port ld)).lastLoad])

end Sys2Proof.Machine
end

