-- ==== Sys2Proof/Machine/Clock.lean ====
section
/-! DEFINITION. The Common Count: its start, its reference, and synchronisation (R27 to R33, R53, R458). -/

namespace Sys2Proof.Machine

open Sys2Proof

/-- TICK_LOOP_LOCK: the loop locks, to COUNT_REF or to the holdover oscillator, and the count runs (R27, R29, R458). -/
def execTickLoopLock (t : Nat) (toRef : Bool) (s : State) : Host.Outcome State Fault Refusal :=
  let s := s.start t
  if s.cc.running ∨ !s.gen.aux then .next s
  else
    let s := { s with cc := { s.cc with running := true, onRef := toRef } }
    let s := (s.ccBit 0 toRef).ccBit 2 (!toRef)
    .next (if toRef then s else ((s.ccBit 6 true).ccBit 1 false).clockEvent)

/-- COUNT_REF_LOSS: the count goes on from the holdover oscillator (R29). -/
def execCountRefLoss (t : Nat) (s : State) : Host.Outcome State Fault Refusal :=
  let s := s.start t
  if !s.cc.running then .next s
  else
    let s := { s with cc := { s.cc with onRef := false } }
    .next ((((s.ccBit 0 false).ccBit 2 true).ccBit 6 true).ccBit 1 false).clockEvent

/-- COUNT_REF_RETURN: the loop locks to the reference again; SYNCED stays clear (R29). -/
def execCountRefReturn (t : Nat) (s : State) : Host.Outcome State Fault Refusal :=
  let s := s.start t
  if !s.cc.running then .next s
  else .next (({ s with cc := { s.cc with onRef := true } }.ccBit 0 true).ccBit 2 false)

/-- An admitted command has not completed: its work runs, it waits for its launch count, or its completion entry has not
been written (R32, R46); a refused command's entry, which carries no promise, is none. -/
def State.workOpen (s : State) : Bool :=
  (s.cmds.any fun c => c.phase != .asking) || s.queues.any fun (_, q) => q.held.any fun h => h.2.1 != 2 ^ 64

/-- LOAD: the agreed value becomes the count unless work is outstanding (R32). The replay log records it (R336). What
governs the requests of the new count is what stands (R472). -/
def State.syncLoad (s : State) (agreed : Count) : State :=
  if s.workOpen then s.ccBit 5 true
  else
    let old := s.now
    let s := { s with cc := { s.cc with now := agreed, slew := 0, slewTick := 0 }, old := s.governs }
    ((s.ccBit 1 true).ccBit 8 false).record 3 0 0 0xFFFF agreed old 0 1 0

/-- CHECK: the difference is slewed away when it lies within the alignment of R31 (R33). -/
def State.syncCheck (s : State) (agreed : Count) (within : Nat) : State :=
  let d : Int := (s.now : Int) - (agreed : Int)
  let s := { s with cc := { s.cc with syncOffset := sint 32 d } }
  if d.natAbs ≤ within then
    ({ s with cc := { s.cc with slew := -d, slewTick := 0 } }.ccBit 1 true).ccBit 8 (d != 0)
  else ((s.ccBit 4 true).ccBit 1 false).clockEvent

/-- A sync event while SYNC_ARM is set (R30). -/
def State.syncEvent (s : State) (agreed : Count) (within : Nat) : State :=
  let load := bitOf s.cc.ctrl 2
  let s := { s with cc := { s.cc with ctrl := setBit s.cc.ctrl 0 false } }.ccBit 3 true
  let s := if load then s.syncLoad agreed else s.syncCheck agreed within
  { s with cc := { s.cc with lastSync := BitVec.ofNat 64 s.now } }

/-- COUNT_SYNC_EDGE: an edge of COUNT_SYNC; the selected one is a sync event while SYNC_ARM is set (R30, R457). -/
def execCountSyncEdge (t : Nat) (falling : Bool) (s : State) : Host.Outcome State Fault Refusal :=
  let s := s.start t
  if bitOf s.cc.ctrl 0 ∧ !bitOf s.cc.ctrl 1 ∧ bitOf s.cc.ctrl 5 = falling ∧ s.cc.running then
    .next (s.syncEvent s.cc.syncValue.toNat 2)
  else .next s

/-- A write of CC_CTRL (R53). -/
def State.ccCtrl (s : State) (v : Reg32) : State :=
  { s with cc := { s.cc with ctrl := BitVec.ofNat 32 (fld v 0 6) } }

/-- SYNC_ARM: CC_CTRL is written with SYNC_ARM 1 (R30). -/
def execSyncArm (t : Nat) (v : Reg32) (s : State) : Host.Outcome State Fault Refusal :=
  .next ((s.start t).viaBar 0 0x10010 fun s => s.ccCtrl (setBit v 0 true))

/-- SLEW_COMPLETE: the whole offset is removed (R33). -/
def execSlewComplete (t : Nat) (s : State) : Host.Outcome State Fault Refusal :=
  let s := s.start t
  .next ({ s with cc := { s.cc with slew := 0, slewTick := 0 } }.ccBit 8 false)

end Sys2Proof.Machine
end

