-- ==== Sys2Proof/Machine/Integrity.lean ====
section
/-! DEFINITION. The leaky buckets, the wiping of pages and the Gleaner's passes (R292 to R295, R299, R300, R304, R305,
R467). -/

namespace Sys2Proof.Machine

open Sys2Proof

/-! ### Wipes (R299, R300) -/

/-- The wipe that comes next: promoted ones first, then in the order in which they became pending. -/
def State.nextWipe (s : State) : Option Nat :=
  let l := s.dir.frames.filterMap fun (n, f) => f.wipe.map fun k => (n, f.promoted, k)
  let before (a b : Nat × Bool × Nat) : Bool := (a.2.1 && !b.2.1) || (a.2.1 == b.2.1 && decide (a.2.2 < b.2.2))
  ((sortBy before l).head?).map (·.1)

/-- Every line of a pending page is unwritten, and the requests that waited for it are served. -/
def State.doWipe (s : State) (n : Nat) : State :=
  (s.modFrame n fun f => { f with wipe := none, promoted := false, lines := [], errs := [], lens := [], lenDie := [] }).wake
    .wipe n noEnv

/-- PAGE_WIPE: the next wipe-pending page is wiped (R299). -/
def execPageWipe (t : Nat) (s : State) : Host.Outcome State Fault Refusal :=
  let s := s.start t
  .next (match s.nextWipe with | some n => s.doWipe n | none => s)

/-! ### Buckets (R292) -/

/-- LEAK_SEC in counts. -/
def State.leakEvery (s : State) : Nat := fld s.int.ctrl 16 12 * 1000000000

/-- BUCKET_LEAK: each multiple of the leak interval that has passed lowers every bucket above 0 by 1 (R292). -/
def execBucketLeak (t : Nat) (s : State) : Host.Outcome State Fault Refusal :=
  let s := s.start t
  let n := s.now / s.leakEvery - s.int.lastLeak / s.leakEvery
  let s := (List.range 72).foldl (fun s c => s.modChan c fun ch => { ch with bucket := ch.bucket - n }) s
  .next { s with int := { s.int with lastLeak := s.now } }

/-! ### The Gleaner (R294, R304, R305) -/

/-- A corrected line is written back, its check symbols through the cache, and read once more: errors at the same
positions make it a hard line (R110, R294). -/
def State.hardTest (s : State) (f l : Nat) (ps : List Nat) (again : List LineFault) : State :=
  let s := ((s.corrected f l ps).modFrame f fun fr => fr.heal l).checkWrite f l
  let (_, qs, s) := s.readOnce f l again
  let s := if qs.isEmpty then s else s.corrected f l qs
  let same := ps.filter fun p => qs.contains p
  if same.isEmpty then s
  else
    let s := { s with int := { s.int with hard := satAdd 32 s.int.hard 1 } }
    ((same.map (s.chanOf f l)).eraseDups).foldl (fun s c =>
      s.modChan c fun ch => { ch with hardNow := satAdd 16 ch.hardNow 1 }) s

/-- One line as the Gleaner reads it (R305). -/
def State.scrubLine (s : State) (f l : Nat) (env : ReadEnv) : State :=
  let (o, ps, s) := s.readOnce f l env.first
  match o with
  | .bad c =>
    let (ok, s) := s.rereadOk
    if !ok then (s.recordUe (1024 * f + l) c true).handUe f l
    else
      let (o, ps, s) := s.readOnce f l env.second
      match o with
      | .bad c => (s.recordUe (1024 * f + l) c true).handUe f l
      | _ => if ps.isEmpty then s else s.hardTest f l ps []
  | _ => if ps.isEmpty then s else s.hardTest f l ps env.second

/-- The blocks of an EXP page are judged as a read judges them; nothing is written (R305). -/
def State.scrubBlocks (s : State) (f : Nat) (env : ReadEnv) : State :=
  match (s.frame f).bind fun fr => s.extent fr.ext with
  | some x =>
    if x.codec != 1 then s
    else (List.range 64).foldl (fun s b =>
      match s.frame f with
      | some fr => if fr.st = 3 then s else (s.readBlock f b (s.tableOf x) { env with first := [], second := [] } true).2
      | none => s) s
  | none => s

/-- A frame as the Gleaner visits it: its merge entries are flushed and its check lines written, then its lines read;
an unlisted line is read as the marker that it is, so only the ones that meet an error are named. A line that sends the
frame away ends the visit. -/
def State.scrubFrame (s : State) (f : Nat) (env : ReadEnv) : State :=
  let s := (s.flushFrame f env).checkClean f
  let held : List Nat := match s.frame f with | some fr => fr.lines.map (·.1) | none => []
  let struck := ((s.prt.armed.filter fun a => a.kind == 0).map (·.line)) ++ env.first.map (·.line)
  let ls := held ++ ((struck.filter fun k => k / 1024 == f && !held.contains (k % 1024)).map (· % 1024)).eraseDups
  let s := ls.foldl (fun (s : State) l => match s.frame f with
    | some fr => if fr.st = 3 then s else s.scrubLine f l env
    | none => s) s
  s.scrubBlocks f env

/-- Scrub period of a number of hours. -/
def hours (n : Nat) : Nat := n * 3600000000000

/-- A pass begins with the period set now. -/
def State.startPass (s : State) : State :=
  { s with int := { s.int with
      inPass := true, pos := 0, passStart := s.now, passPeriod := fld s.int.scrub 0 8, passLate := false } }

/-- SCRUB_PASS_START: from READY on, a pass ends and its successor's start count is reached (R304). -/
def execScrubPassStart (t : Nat) (s : State) : Host.Outcome State Fault Refusal :=
  let s := s.start t
  if s.gen.phase != 6 ∨ s.int.inPass ∨ (s.int.passes != 0 ∧ s.now < s.int.passStart + hours s.int.passPeriod) then .next s
  else .next s.startPass

/-- A pass that outlasts its period sets SCRUB_LATE, once (R304, R306). -/
def State.passLate (s : State) : State :=
  if s.int.inPass ∧ !s.int.passLate ∧ s.int.passStart + hours s.int.passPeriod < s.now then
    let s := s.intBit 8
    { s with int := { s.int with passLate := true } }
  else s

/-- A pass ends (R304, R306). -/
def State.endPass (s : State) : State :=
  let s := { s with int := { s.int with inPass := false, passes := (s.int.passes + 1) % 2 ^ 32 } }
  (List.range 72).foldl (fun s c => s.modChan c fun ch => { ch with hard := ch.hardNow, hardNow := 0 }) s

/-- The next frame of a pass: not FREE and not FILLING. -/
def State.nextScrub (s : State) : Option Nat :=
  (s.dir.frames.find? fun (n, f) => decide (s.int.pos ≤ n) && f.st != 3).map (·.1)

/-- SCRUB_FRAME: the Gleaner visits the next frame; after the last the pass is over (R304, R305). -/
def execScrubFrame (t : Nat) (env : ReadEnv) (s : State) : Host.Outcome State Fault Refusal :=
  let s := (s.startEnv t env).passLate
  if !s.int.inPass || s.ep.lowPower then .next s
  else match s.nextScrub with
    | none => .next s.endPass
    | some f =>
      let s := s.scrubFrame f env
      let s := { s with int := { s.int with pos := f + 1 } }
      .next (if s.nextScrub.isNone then s.endPass else s)

end Sys2Proof.Machine
end

