-- ==== Sys2Proof/Machine/Tamian.lean ====
section
/-! DEFINITION. Tamian links, echo and sync messages, and federation: exports, page moves, remote views and publishes
(R368 to R381, R389, R443, R444). -/

namespace Sys2Proof.Machine

open Sys2Proof

/-! ### Links (R368 to R371, R388) -/

/-- PORT_ENABLE of a port; without a configuration record every port is held down (R404). -/
def State.portEnabled (s : State) (p : Nat) : Bool := s.sec.cfgValid && bitOf s.tam.ctrl (16 + p)

/-- Plans follow what a port's new state gives: a lower rate at once, a higher one as growth (R50, R369). -/
def State.portPlan (s : State) : State :=
  if s.plan.cur.ver = 0 then s
  else
    let new := (s.compute s.plan.cur).rates
    let old := s.plan.cur.rates
    if (List.range 9).any fun i => decide (nth new i < nth old i) then s.retirePlan
    else if new = old then s else s.issueLive 5 id

/-- A port fails its HELLO: it stays down (R370). -/
def State.helloFails (s : State) (p bit : Nat) : State :=
  ((s.modTport p fun x => { x with up := false, width := 0, tried := s.now }).tamBit bit).fault0 6 0x63 p

/-- HELLO: identities, roles and firmware versions are exchanged and the session is authenticated; then the round trip is
measured for the first time (R370, R381). -/
def execHello (t port peer : Nat) (lead auth : Bool) (fw : Reg32) (width : Nat) (s : State) :
    Host.Outcome State Fault Refusal :=
  let s := s.start t
  if !s.portEnabled port ∨ (s.tport port).retired ∨ (width != 1 ∧ width != 2) then .next s
  else if peer = s.myId then .next (s.helloFails port 0)
  else if !auth then .next (s.helloFails port 1)
  else if port = 3 ∧ (!bitOf s.tam.id 8 ∨ peer != s.partnerId ∨ lead = s.isLead) then .next (s.helloFails port 1)
  else
    let was := s.tport port
    let s := s.modTport port fun x => { x with
      up := true, width := width, peer := peer, sent := 0, replays := satAdd 16 x.replays x.corrupt, corrupt := 0 }
    let s := s.portSend port (s.message 0x01 0 peer 0 0 [s.myId, if s.isLead then 1 else 0, s.sec.fwVersion.toNat, fw.toNat])
    let s := s.portSend port (s.message 0x02 0 peer 0 0 [s.now])
    let s := if width = 1 ∧ was.width != 1 then s.fault0 6 0x61 port else s
    let s := if port = 3 then
        { s with tam := { s.tam with lastBeat := s.now } }
      else s
    .next s.portPlan.digestUpdate

/-- A port is retired: its rate is 0 in every later plan (R369). -/
def State.retirePort (s : State) (p : Nat) : State :=
  let s := s.modTport p fun x => { x with up := false, width := 0, retired := true }
  (((s.tamBit 2).fault0 6 0x62 p).portPlan).digestUpdate

/-- TAMIAN_LINK_DOWN: a link goes down (width 0) or retrains to x4 (1) or x8 (2) (R368, R369). -/
def execTamianLinkDown (t port width : Nat) (s : State) : Host.Outcome State Fault Refusal :=
  let s := s.start t
  let p := s.tport port
  if !p.up then .next s
  else
    let starts := recent p.starts s.now dayCc
    let s := s.modTport port fun x => { x with starts := starts, retrains := satAdd 16 x.retrains 1 }
    if 4 ≤ starts.length then .next (s.retirePort port)
    else if width = 1 ∨ width = 2 then
      let s := s.modTport port fun x => { x with width := width }
      let s := if width = 1 ∧ p.width != 1 then s.fault0 6 0x61 port else s
      .next s.portPlan.digestUpdate
    else
      let s := s.modTport port fun x => { x with up := false, width := 0, tried := s.now }
      .next (s.fault0 6 0x60 port).digestUpdate

/-- TAMIAN_TRAINING_RETRY: 1 s after it went down or was last tried, a port held down trains again, at x4 or x8; its HELLO
follows (R368, R370). -/
def execTamianTrainingRetry (t port width : Nat) (s : State) : Host.Outcome State Fault Refusal :=
  let s := s.start t
  let p := s.tport port
  if p.up ∨ p.retired ∨ !s.portEnabled port ∨ (width != 1 ∧ width != 2) ∨ s.now < p.tried + 1000000000 then .next s
  else .next ((s.modTport port fun x => { x with tried := s.now }).emit
    (.tam port (s.message 0x01 0 0 0 0 [s.myId, if s.isLead then 1 else 0, s.sec.fwVersion.toNat])))

/-- FLIT_REPLAY_REQUEST: the kept flits since the failed one are sent again; messages do not change (R369). -/
def execFlitReplayRequest (t port seq : Nat) (s : State) : Host.Outcome State Fault Refusal :=
  .next ((s.start t).modTport port fun p =>
    let n := (p.sent + 4096 - seq % 4096) % 4096
    if !p.up ∨ 512 < n then p else { p with replays := satAdd 16 p.replays n })

/-- RESERVED_MESSAGE_TYPE: the message is discarded and counted (R372). -/
def execReservedMessageType (t port : Nat) (_m : TamMsg) (s : State) : Host.Outcome State Fault Refusal :=
  .next ((s.start t).modTport port fun p => { p with replays := satAdd 16 p.replays 1 })

/-! ### Echo and sync (R381) -/

/-- ECHO: answered on the same port with the sender's count. -/
def execEcho (t port : Nat) (m : TamMsg) (s : State) : Host.Outcome State Fault Refusal :=
  let s := s.start t
  .next (s.portSend port { s.message 0x03 m.cls m.src m.tag 0 m.nums with flags := 2 })

/-- ECHO_REPLY: one measurement; TAM_RTT is the smallest of the last 16. -/
def execEchoReply (t port : Nat) (m : TamMsg) (s : State) : Host.Outcome State Fault Refusal :=
  let s := s.start t
  .next (s.modTport port fun p =>
    let l := ((s.now - nth m.nums 0) :: p.rtts).take 16
    { p with rtts := l, rtt := Nat.min 65535 (l.foldl Nat.min (s.now - nth m.nums 0)) })

/-- RTT_MEASURE: every 1 s ECHO is sent on every port that is up. -/
def execRttMeasure (t : Nat) (s : State) : Host.Outcome State Fault Refusal :=
  let s := s.start t
  if s.now < s.tam.echoAt + 1000000000 then .next s
  else .next ((List.range 4).foldl (fun s p => s.portSend p (s.message 0x02 0 (s.tport p).peer 0 0 [s.now]))
    { s with tam := { s.tam with echoAt := s.now } })

/-- SYNC: on the armed port it is a sync event with C_tx, half the round trip and the offset of CC_SYNC_VALUE. -/
def execSync (t port : Nat) (m : TamMsg) (s : State) : Host.Outcome State Fault Refusal :=
  let s := s.start t
  if bitOf s.cc.ctrl 0 ∧ bitOf s.cc.ctrl 1 ∧ fld s.cc.ctrl 3 2 = port ∧ s.cc.running then
    .next (s.syncEvent ((nth m.nums 0 + (s.tport port).rtt / 2 + s.cc.syncValue.toNat) % 2 ^ 64) 8)
  else .next s

/-- TAM_CTRL is written; SYNC_SEND sends one SYNC on SYNC_TX_PORT, and a port that is no longer enabled goes down
(R381, R389). -/
def State.tamCtrl (s : State) (v : Reg32) : State :=
  let s := { s with tam := { s.tam with ctrl := v &&& 0x000F0106 } }
  let s := (List.range 4).foldl (fun s p =>
    if (s.tport p).up && !s.portEnabled p then
      ((s.modTport p fun x => { x with up := false, width := 0 }).fault0 6 0x60 p).digestUpdate else s) s
  if bitOf v 0 then
    let p := fld v 1 2
    s.portSend p (s.message 0x04 0 (s.tport p).peer 0 0 [s.now])
  else s

/-- SYNC_SEND: TAM_CTRL is written with SYNC_SEND 1 (R381). -/
def execSyncSend (t : Nat) (v : Reg32) (s : State) : Host.Outcome State Fault Refusal :=
  .next ((s.start t).viaBar 0 0x120000 fun s => s.tamCtrl (setBit v 0 true))

/-! ### Forwarding and exports (R373, R374, R443) -/

/-- The message is for this part; either part of a pair serves what names the other (R443). -/
def State.forMe (s : State) (m : TamMsg) : Bool :=
  m.dst == s.myId || (s.onePlan && m.dst == s.partnerId)

/-- Pass a message on, or tell its source why not. -/
def State.forward (s : State) (m : TamMsg) : State :=
  let no (s : State) (st bit : Nat) := if bitOf (BitVec.ofNat 8 m.flags) 1 then s.tamBit bit else (s.tamBit bit).tamReply m m.type st []
  if m.hops = 0 then no s 4 4
  else if !bitOf s.tam.ctrl 8 ∨ (s.route m.dst).isNone then no s 2 3
  else s.tamSend { m with hops := m.hops - 1 }

/-- Serve a message that is for this part; pass another on. -/
def State.receive (s : State) (m : TamMsg) (f : State → State) : State := if s.forMe m then f s else s.forward m

/-- The export entry that lets expander `src` reach an extent; answers its WRITE. -/
def State.exported (s : State) (e src : Nat) : Option Bool :=
  (s.tam.export_.find? fun (_, v) => bitOf v 16 && fld v 0 16 == e && (bitOf v 18 || fld v 24 8 == src)).map
    fun (_, v) => bitOf v 17

/-- What a home says of an address: the extent, or a status (R374, R377, R444). -/
def State.homeExtent (s : State) (m : TamMsg) : Except Nat (Nat × Extent × Bool) :=
  match s.extentAt m.addr with
  | none => .error 3
  | some (e, x) =>
    let pair := s.onePlan && m.src == s.partnerId
    if (x.composite || x.sharing == 0 || (x.sharing == 2 && !x.frozen)) && !pair then .error 3
    else match (if pair then some true else s.exported e m.src) with
      | none => .error 3
      | some w => if x.revoke.any fun r => decide (r ≤ s.now) then .error 1 else .ok (e, x, w)

/-! ### Pages (R375, R376, R379, R380, R444) -/

/-- Answer a PAGE_READ with a page at a version: from its frame, or from its flash image without a fill. -/
def State.servePage (s : State) (m : TamMsg) (e : Nat) (x : Extent) (v : Nat) (env : ReadEnv) : State :=
  let p := (m.addr - x.base) / pageBytes
  let comp := x.codec == 1
  let reply (s : State) (cur : Nat) : TamMsg :=
    { s.message 0x11 m.cls m.src m.tag m.addr [cur, v] with flags := 2 }
  match s.locate e p v with
  | .frame n =>
    let s := (s.settle n env).flushFrame n env
    match s.frame n with
    | some f =>
      let (g, s) := s.pageCells n f env
      s.tamSend (s.pageMessage (reply s f.ver) g comp)
    | none => s
  | .image i =>
    match s.fls.images[i]? with
    | some im =>
      let s := s.flashRead im
      let ls : Sparse Cell := if im.lost then (List.range 1024).map fun l => (l, .marker 3 s.now)
        else im.lines.map fun (l, c) => (l, s.decCell x (1024 * p + l) c)
      let ls := (badLines env.flashBad e p).foldl (fun ls l => sins ls l (.marker 2 s.now)) ls
      s.tamSend (s.pageMessage (reply s im.ver) { Frame.fresh 0 e p 1 im.ver with lines := ls, lens := im.lens } comp)
    | none => s
  | .empty => s.tamSend (s.pageMessage (reply s (Nat.min v 1)) (Frame.fresh 0 e p 1 0) comp)

/-- A load that a returning partner passes on: one line, as the requester's allotment reads it (R387). -/
def State.serveLine (s : State) (m : TamMsg) (e a : Nat) (env : ReadEnv) : State :=
  let n := match s.extent e with | some x => (m.addr - x.base) / 64 | none => 0
  let (r, s) := s.readAny none none e a (s.viewsOf a) [] n env
  let l := m.addr % pageBytes / 64
  s.tamSend { s.message 0x11 m.cls m.src m.tag m.addr [] with
    flags := 2, lines := [match r with | .ok v => (l, 0, v) | _ => (l, 2, 0)] }

/-- PAGE_READ: the home answers with the page, or with what it holds of the range a GRANT asks for. -/
def execPageRead (t port : Nat) (m : TamMsg) (env : ReadEnv) (s : State) : Host.Outcome State Fault Refusal :=
  let s := s.startEnv t env
  if !(s.tport port).up then .next s
  else .next (s.receive m fun s =>
    match s.homeExtent m with
    | .error st => s.tamReply m 0x11 st []
    | .ok (e, x, w) =>
      match m.nums with
      | [_, a] => if m.src = s.partnerId then s.serveLine m e a env else s
      | [] => s.tamReply m 0x11 0 [x.base, x.size, x.attr.toNat, if w then 1 else 0]
      | v :: _ => s.servePage m e x v env)

/-- A proxy is revoked by its home at this count (R377). -/
def State.homeRevokes (s : State) (e : Nat) (x : Extent) : State :=
  if x.homeRevoked.isSome then s
  else
    let s := s.faultTo x.holders 6 0x66 x.home e x.base
    (s.modExtent e fun x => { x with homeRevoked := some s.now }).revokeReached e

/-- Tags of a sealed proxy's page that has come, where its data page and its tag page are both here (R379; assumption
99). -/
def State.sealPage (s : State) (e p v : Nat) : State :=
  match s.extent e with
  | none => s
  | some x => (x.tagPairs p).foldl (fun s (d, q) => match s.locate e d v, s.locate e q v with
    | .frame n, .frame m => s.sealFrames x d n m
    | _, _ => s) s

/-- A page from the home stands in its frame under the proxy's own key and version (R379). -/
def State.storePage (s : State) (n : Nat) (f : Frame) (m : TamMsg) : State :=
  let cells := match s.extent f.ext with
    | some x => s.codedCells x f.page (msgCells s.now m)
    | none => []
  (s.setFrame n { f with
    lines := f.lines.foldl (fun (a : Sparse Cell) (l, c) => sins a l c) cells
    lens := msgLens m, st := if f.pinned then 2 else 1, dirty := false, fillEmpty := false }).sealPage f.ext f.page f.ver

/-- A fill from the home ends: the page is stored and requests that wait for it are served (R379). -/
def State.storeFill (s : State) (n : Nat) (m : TamMsg) (env : ReadEnv) : State :=
  let s := match s.frame n with | some f => s.storePage n f m | none => s
  let s := { s with tam := { s.tam with
    pagesIn := (s.tam.pagesIn + 1) % 2 ^ 64, wireIn := (s.tam.wireIn + 256 * tamFlits m) % 2 ^ 64 } }
  s.wake .fill n env

/-- A command touches page `p` of extent `e`. -/
def Cmd.touches (c : Cmd) (e : Nat) (x : Extent) (p : Nat) : Bool :=
  c.exts.contains e && (c.reads ++ c.writes).any fun (b, n) => (x.bytePages (b - x.base) n).contains p

/-- A fill fails: waiting loads get poison, commands end with ST_POISON, and the frame is FREE (R444). -/
def State.failFill (s : State) (e p ver : Nat) : State :=
  match (s.framesOf e p).find? fun (_, f) => f.st == 3 && f.fillVer == ver with
  | none => s
  | some (n, _) =>
    let go : List HostReq := s.waiting.filter fun r => r.wait == Wait.fill && r.on == n
    let s : State := { s with waiting := s.waiting.filter fun r => !(r.wait == Wait.fill && r.on == n) }
    let s : State := go.foldl (fun s r => s.failReq r 0x02 true true) s
    let s := s.freeFrame n
    match s.extent e with
    | none => s
    | some x =>
      let hit : List Cmd := s.cmds.filter fun c => c.phase == CmdPhase.running && c.touches e x p
      hit.foldl (fun s c => s.finishCmd c.id 6 true 0) s

/-- A load that was sent to the partner for one line is answered (R383). -/
def State.answerFar (s : State) (m : TamMsg) (r : HostReq) : State :=
  match m.status, (m.lines.find? fun (l, _) => l == r.laddr % pageBytes / 64) with
  | 0, some (_, 0, v) => s.readDone r false v
  | 0, _ => s.readDone r true 0
  | _, _ => s.failReq r 0x02 true true

/-- The answer to a PAGE_READ of this part, or its absence (status 2). -/
def State.pageAnswer (s : State) (w : TamWait) (m : TamMsg) : State :=
  match w.cmd.bind s.cmd with
  | some d => s.homeAnswer d (homeAgrees d.pkt m.status m.nums)
  | none =>
    let far := s.waiting.filter fun r => r.wait == .remote && r.on == w.tag
    if !far.isEmpty then
      let s := { s with waiting := s.waiting.filter fun r => !(r.wait == .remote && r.on == w.tag) }
      far.foldl (fun s r => s.answerFar m r) s
    else
      let ver := match (s.framesOf w.ext w.page).find? fun (_, f) => f.st == 3 with | some (_, f) => f.fillVer | none => 0
      let ver := if m.nums.length < 2 then ver else nth m.nums 1
      match m.status with
      | 0 =>
        match (s.framesOf w.ext w.page).find? fun (_, f) => f.st == 3 && f.fillVer == ver with
        | some (n, _) => s.storeFill n m noEnv
        | none => s
      | st =>
        let s := if st = 1 then match s.extent w.ext with | some x => s.homeRevokes w.ext x | none => s else s
        s.failFill w.ext w.page ver

/-- The request that a reply answers. -/
def State.waitOf (s : State) (m : TamMsg) (types : List Nat) : Option TamWait :=
  s.tam.waits.find? fun w => w.tag == m.tag && types.contains w.type

/-- A request is no longer waited for; the place of a PAGE_READ goes to the next that waits for it (R380). -/
def State.dropWait (s : State) (w : TamWait) : State :=
  let s := { s with tam := { s.tam with waits := s.tam.waits.filter (· != w) } }
  if w.type = 0x10 then
    ({ s with tam := { s.tam with held := s.tam.held.filter fun m => m.tag != w.tag } }).sendHeld
  else s

/-- A status of NO_ROUTE or HOP_LIMIT is recorded (R378). -/
def State.routeBit (s : State) (st : Nat) : State := if st = 2 then s.tamBit 3 else if st = 4 then s.tamBit 4 else s

/-- PAGE_DATA: the answer to a PAGE_READ. -/
def execPageData (t port : Nat) (m : TamMsg) (s : State) : Host.Outcome State Fault Refusal :=
  let s := s.start t
  if !(s.tport port).up then .next s
  else .next (s.receive m fun s =>
    match s.waitOf m [0x10] with
    | some w => ((s.dropWait w).routeBit m.status).pageAnswer w m
    | none => s)

/-! ### Remote views and publishes (R376 to R378) -/

/-- PAGE_WRITE: the home keeps a page for a coming publish. -/
def execPageWrite (t port : Nat) (m : TamMsg) (s : State) : Host.Outcome State Fault Refusal :=
  let s := s.start t
  if !(s.tport port).up then .next s
  else .next (s.receive m fun s =>
    match s.homeExtent m with
    | .ok (e, x, true) =>
      let p := (m.addr - x.base) / pageBytes
      let s := s.modExtent e fun x => { x with
        inPages := (x.inPages.filter fun i => !(i.src == m.src && i.page == p)) ++
          [InPage.mk m.src p (msgCells s.now m) (msgLens m) s.now] }
      if s.tam.pair = 1 ∧ m.src != s.partnerId ∧ port != 3 then s.portSend 3 m else s
    | _ => s)

/-- OPEN_REMOTE: the home registers the remote view at its current version. The reply lists the changed pages when
the previous version lies within 16 of it. -/
def execOpenRemote (t port : Nat) (m : TamMsg) (s : State) : Host.Outcome State Fault Refusal :=
  let s := s.start t
  if !(s.tport port).up then .next s
  else .next (s.receive m fun s =>
    match s.homeExtent m with
    | .error st => s.tamReply m 0x14 st []
    | .ok (e, x, _) =>
      let old := nth m.nums 0
      let near := old != 0 && verLe old x.ver && decide (verDist old x.ver ≤ 16)
      let pages := if near then ((x.history.filter fun h => verLe h.ver x.ver && verLe old h.ver && h.ver != old).flatMap
        (·.pages)).eraseDups else []
      let s := s.setExtent e { x with remoteViews := (x.remoteViews.filter (·.1 != m.src)) ++ [(m.src, x.ver)] }
      (s.release e).tamReply m 0x14 0 ([x.ver, if near then 1 else 0] ++ pages))

/-- Frames of a proxy when its version moves from `v` to `w`: those of unchanged pages are retagged, the others at `v`
become COLD (R376). -/
def State.retagProxy (s : State) (e v w : Nat) (changed : Option (List Nat)) : State :=
  if v = w then s
  else
    let keep (p : Nat) : Bool := match changed with | some l => !l.contains p | none => false
    (s.dir.frames.filter fun (_, f) => f.ext == e && (f.st == 1 || f.st == 2) && f.ver == v).foldl (fun s (n, f) =>
      s.setFrame n (if keep f.page then { f with ver := w } else { f with hint := 0 })) s

/-- Status of a command that its home refuses, by the home's answer (R378). -/
def remoteStatus (st : Nat) : Nat := if st = 1 then 4 else if st = 3 then 0x0C else if st = 5 then 3 else 0x0E

/-- The answer to an OPEN of this part, or its absence. -/
def State.openAnswer (s : State) (w : TamWait) (m : TamMsg) : State :=
  match w.cmd.bind s.cmd, s.extent w.ext with
  | some c, some x =>
    if m.status != 0 then
      let s := if m.status = 1 then s.homeRevokes w.ext x else s
      s.finishCmd c.id (remoteStatus m.status) false 0
    else
      let v := nth m.nums 0
      let old := match x.view c.allot with | some y => y.ver | none => 0
      let changed := if nth m.nums 1 = 1 then some (m.nums.drop 2) else none
      let s := s.retagProxy w.ext old v changed
      let y := { x with ver := v, history := x.history ++ [⟨v, changed.getD (List.range x.pages)⟩] }
      s.moveView c w.ext y v
  | _, _ => s

/-- OPEN_REPLY: the answer to an OPEN_REMOTE. -/
def execOpenReply (t port : Nat) (m : TamMsg) (s : State) : Host.Outcome State Fault Refusal :=
  let s := s.start t
  if !(s.tport port).up then .next s
  else .next (s.receive m fun s =>
    match s.waitOf m [0x13] with
    | some w => ((s.dropWait w).routeBit m.status).openAnswer w m
    | none => s)

/-- A local PUBLISH may still come with the stamp of a remote one, before which it ranks (R376). -/
def State.rivalPublish (s : State) (e : Nat) : Bool :=
  s.ties.any Tie.isPacket || (s.extent e).any fun x => x.views.any fun v => x.rights v.allot == 2

/-- PUBLISH_REMOTE: the home checks the publish and commits it, after the local ones of its stamp; the partner of a LEAD
passes it to the LEAD (R376, R443). -/
def execPublishRemote (t port : Nat) (m : TamMsg) (s : State) : Host.Outcome State Fault Refusal :=
  let s := s.start t
  if !(s.tport port).up then .next s
  else .next (s.receive m fun s =>
    if s.tam.pair = 1 ∧ !s.isLead then s.portSend 3 { m with type := 0x22, dst := s.partnerId, nums := 0x15 :: m.nums }
    else match s.homeExtent m with
      | .error st => s.tamReply m 0x16 st []
      | .ok (e, x, w) =>
        if !w then s.tamReply m 0x16 3 []
        else
          if s.rivalPublish e then s.tie ⟨s.now, 64, m.src, 0, .publish m false, noEnv, s.old⟩
          else s.remotePublish m e x false)

/-- The home has committed a proxy's publish: its set becomes the pages of the new version. -/
def State.publishDone (s : State) (c : Cmd) (e : Nat) (x : Extent) (v : Nat) : State :=
  let w := x.cmdSet c.allot e []
  let set := (s.shadowSet e w).filter fun (_, f) => f.fillVer == 2 ^ 32
  let pages := (set.map fun (_, f) => f.page).eraseDups
  let old := match x.view c.allot with | some y => y.ver | none => x.ver
  let s := if verNext old = v then s.retagProxy e old v (some pages) else s
  let s := set.foldl (fun s (n, f) => (s.promote e x n f v).modFrame n fun g => { g with dirty := false }) s
  let s := (s.shadowSet e w).foldl (fun s (n, _) => s.modFrame n fun g => { g with ver := v }) s
  let s := s.modExtent e fun y =>
    { y with
      views := y.views.map fun q => if q.allot = c.allot then { q with ver := v } else q, ver := v
      commits := s.keepCommits e ((v, s.now) :: y.commits), history := y.history ++ [⟨v, pages⟩] }
  let s := (s.moveSet e c.allot w w v c.eff).release e
  let s := if bitOf s.ext.ctrl 0 then
      (x.views.filter fun y => y.allot != c.allot).foldl (fun s y =>
        s.post y.allot 3 [(16, 2, e), (18, 1, c.allot), (20, 4, v), (24, 8, s.now)]) s
    else s
  s.finishCmd c.id 0 false (result [(20, 4, v), (24, 4, pages.length)])

/-- A publish has failed at the home: the set stands as it was, with what was written since (R376). -/
def State.keepSet (s : State) (e w : Nat) : State :=
  let fs := s.shadowSet e w
  fs.foldl (fun s (n, f) =>
    if f.fillVer != 2 ^ 32 then s
    else if fs.any fun (k, g) => k != n && g.page == f.page && g.fillVer == 0 then s.freeFrame n
    else s.modFrame n fun g => { g with fillVer := 0 }) s

/-- The answer to a PUBLISH of this part, or its absence (status 2). -/
def State.publishAnswer (s : State) (w : TamWait) (m : TamMsg) : State :=
  match s.extent w.ext with
  | none => s
  | some x =>
    match w.cmd.bind s.cmd with
    | none =>
      if m.status = 0 ∧ w.type = 0x115 then
        s.post w.page 3 [(16, 2, w.ext), (18, 1, w.page), (20, 4, nth m.nums 0), (24, 8, s.now)]
      else s
    | some c =>
      if m.status = 0 then s.publishDone c w.ext x (nth m.nums 0)
      else
        let s := s.keepSet w.ext (x.cmdSet c.allot w.ext [])
        let s := if m.status = 1 then s.homeRevokes w.ext x else s
        s.finishCmd c.id (remoteStatus m.status) false
          (if m.status = 5 then result [(20, 4, nth m.nums 0), (24, 4, nth m.nums 1), (28, 4, nth m.nums 2)] else 0)

/-- The LEAD tells its partner what a home has answered (R443). -/
def State.passAnswer (s : State) (w : TamWait) (m : TamMsg) : State :=
  if s.tam.pair = 1 ∧ s.isLead then
    match w.cmd.bind s.cmd with
    | some c => s.portSend 3 (s.message 0x22 0 s.partnerId 0 0 ([0x16, w.ext, c.allot, m.status] ++ m.nums))
    | none => s
  else s

/-- PUBLISH_REPLY: the answer to a PUBLISH_REMOTE; one that comes late still tells the publisher of its version. -/
def execPublishReply (t port : Nat) (m : TamMsg) (s : State) : Host.Outcome State Fault Refusal :=
  let s := s.start t
  if !(s.tport port).up then .next s
  else .next (s.receive m fun s =>
    match s.waitOf m [0x15, 0x115] with
    | some w => (((s.passAnswer w m).dropWait w).routeBit m.status).publishAnswer w m
    | none => s)

/-- CLOSE_REMOTE: the home ends the remote view and answers; the answer ends the resending. -/
def execCloseRemote (t port : Nat) (m : TamMsg) (s : State) : Host.Outcome State Fault Refusal :=
  let s := s.start t
  if !(s.tport port).up then .next s
  else .next (s.receive m fun s =>
    if m.flags / 2 % 2 = 1 then
      match s.waitOf m [0x17] with
      | some w =>
        let s := s.dropWait w
        { s with tam := { s.tam with closing := s.tam.closing.filter (· != w.ext) } }
      | none => s
    else
      match s.extentAt m.addr with
      | none => s.tamReply m 0x17 0 []
      | some (e, _) =>
        let s := s.modExtent e fun x => { x with
          remoteViews := x.remoteViews.filter (·.1 != m.src), inPages := x.inPages.filter (·.src != m.src) }
        (s.release e).tamReply m 0x17 0 [])

/-- REVOKED: the proxies of the home's extent are revoked at this count (R377). -/
def execRevoked (t port : Nat) (m : TamMsg) (s : State) : Host.Outcome State Fault Refusal :=
  let s := s.start t
  if !(s.tport port).up then .next s
  else .next (s.receive m fun s =>
    (s.ext.tbl.filter fun (_, x) => x.proxy && x.home == m.src &&
      (x.homeAddr 0 == m.addr || nth m.nums 1 != 0 && decide (m.addr ≤ x.homeAddr 0) &&
        decide (x.homeAddr 0 < m.addr + nth m.nums 1))).foldl (fun s (e, x) => s.homeRevokes e x) s)

/-- The bound of R380 for a part. -/
def State.bound380 (s : State) (dst : Nat) : Nat :=
  400000 + 200000 * (match s.route dst with | some (_, h) => h | none => 0)

/-- CLOSE_REMOTE_RESEND: 1 s after it was sent an unanswered CLOSE_REMOTE is sent again (R378). -/
def execCloseRemoteResend (t ext : Nat) (s : State) : Host.Outcome State Fault Refusal :=
  let s := s.start t
  match s.extent ext with
  | some x =>
    if s.tam.closing.contains ext ∧ !(s.tam.waits.any fun w => w.type == 0x17 && w.ext == ext && decide (s.now < w.at_ + 1000000000)) then
      let s := { s with tam := { s.tam with waits := s.tam.waits.filter fun w => !(w.type == 0x17 && w.ext == ext) } }
      .next (s.closeRemote ext x)
    else .next s
  | none => .next s

/-- PAGE_WRITE_DISCARD: pages whose PUBLISH_REMOTE has not come within the bound after the last of them go (R378). -/
def execPageWriteDiscard (t src ext : Nat) (s : State) : Host.Outcome State Fault Refusal :=
  let s := s.start t
  .next (s.modExtent ext fun x =>
    let last := maxN 0 ((x.inPages.filter (·.src == src)).map (·.at_))
    if s.now < last + s.bound380 src then x else { x with inPages := x.inPages.filter (·.src != src) })

end Sys2Proof.Machine
end

