-- ==== Sys2Proof/Machine/Pairing.lean ====
section
/-! DEFINITION. Paired expanders: mirrored writes, shared-state operations, heartbeats, the loss and the return of a
partner (R382 to R387, R441 to R443). -/

namespace Sys2Proof.Machine

open Sys2Proof

/-! ### Mirrored writes (R383) -/

/-- The publish that has taken the set which a write of allotment `a` stamped `c` belongs to (R94). -/
def Extent.cutAfter (x : Extent) (a : Nat) (c : Count) : Option PendPub :=
  x.pubs.find? fun p => p.allot == a && p.src.isNone && p.base != noView && decide (c < p.cut)

/-- Perform a mirrored line here, as its allotment wrote it. -/
def State.mirrored (s : State) (m : TamMsg) : Bool × State :=
  match s.extentAt m.addr, m.lines with
  | some (e, x), (_, k, v) :: _ =>
    let a := nth m.nums 1
    let c := nth m.nums 0
    let r : HostReq := { HostReq.blank 0 1 0 a m.addr c v (k != 0) with
      laddr := m.addr, ext := e
      ver := match x.cutAfter a c with | some p => p.base | none => (s.verOf (s.viewsOf a) e).getD x.ver
      set := match x.cutAfter a c with | some p => p.set | none => x.cmdSet a e [] }
    let s := (s.wipeFrames e x ((m.addr - x.base) / 64)).foldl (fun s k => (s.wipeFrame k).wake .wipe k noEnv) s
    s.performStore r x noEnv
  | _, _ => (false, s)

/-- Commands whose work is done and which no longer wait for the partner are released (R45, R383). -/
def State.releaseFar (s : State) : State :=
  let go := s.cmds.filter fun c => c.phase == .paced && !c.paced && s.releasable c
  go.foldl (fun s c => (s.releaseCmd c).fences s.cmds.length) s

/-- A mirrored write of this part is settled: what waits for it is acknowledged, or fails. -/
def State.mirrorDone (s : State) (tag : Nat) (ok : Bool) : State :=
  let go := s.waiting.filter fun r => r.wait == Wait.arbiter && r.on == tag
  let s := { s with waiting := s.waiting.filter fun r => !(r.wait == Wait.arbiter && r.on == tag)
                    tam := { s.tam with mirrors := s.tam.mirrors.filter (·.1 != tag) } }
  let s := go.foldl (fun s r => match s.extent r.ext with
    | some x => s.storeEnds r x ok
    | none => if r.acked then s.reap else if ok then s.writeDone r else s.failReq r 0x03 true false) s
  (s.drainOrder noEnv).releaseFar

/-- MIRROR: a line that its arbiter performed is performed here and confirmed; a line for this arbiter is performed
and returned; a returned line is performed and its store acknowledged. -/
def execMirror (t : Nat) (m : TamMsg) (s : State) : Host.Outcome State Fault Refusal :=
  let s := s.start t
  if !(s.tport 3).up ∨ !s.onePlan then .next s
  else if m.flags / 2 % 2 = 1 then
    let (ok, s) := if m.status = 0 then s.mirrored m else (false, s)
    .next (s.mirrorDone m.tag ok)
  else
    let here := s.isArbiter m.addr
    let (ok, s) := s.mirrored m
    if here then
      .next (s.portSend 3 { m with flags := 2, src := s.myId, dst := s.partnerId, status := if ok then 0 else 5 })
    else .next (s.portSend 3 { s.message 0x21 0 s.partnerId m.tag m.addr [] with flags := 2, status := if ok then 0 else 5 })

/-- MIRROR_ACK: both parts hold the line, and the store is acknowledged; a line that the partner could take no frame for
fails as it would have here (R18, R81, R91, R383). -/
def execMirrorAck (t : Nat) (m : TamMsg) (s : State) : Host.Outcome State Fault Refusal :=
  let s := s.start t
  .next (if (s.tport 3).up then s.mirrorDone m.tag (m.status == 0) else s)

/-! ### Shared-state operations (R386, R441 to R443) -/

/-- A GRANT applied on both parts takes the nonce that the LEAD draws (R442). -/
def State.pairNonce (s : State) (p : Packet) (aux : List Nat) (nonce : BitVec 256) : State :=
  if pkOp p = 0x50 ∧ pk p 24 1 != 1 then s.modExtent (nth aux 2) fun x => { x with nonce := nonce } else s

/-- Answer the partner's PAIR_OP: 0 it is applied here in its order, 1 its work here is done, 2 it is refused. -/
def State.pairReply (s : State) (m : TamMsg) (nums : List Nat) (nonce : BitVec 256) : State :=
  s.portSend 3 { s.message 0x22 0 s.partnerId m.tag 0 nums with flags := 2, lens := nonce }

/-- Checks of a command for the partner; a key comes with it. -/
def State.pairCheck (s : State) (c : Ask) (args : List Line) : Verdict × State :=
  if pkOp c.p = 0x80 then (.ok { args := args }, s) else s.checkOp c noEnv

/-- Apply a command of the partner: what the leading part reserved for it is kept. -/
def State.pairApply (s : State) (m : TamMsg) (p : Packet) (args : List Line) : State :=
  let c : Ask := ⟨nth m.nums 0, pairQueue, m.tag, p, s.now, nth m.nums 1⟩
  let lead := s.leads
  let (v, s) := s.pairCheck c args
  match v with
  | .refuse st _ => s.pairReply m [2, st] 0
  | .ok w =>
    let aux := if lead ∨ m.nums.length ≤ 2 then w.aux else m.nums.drop 2
    let w := { w with aux := aux }
    let d := { s.newCmd c w false 0 s.now false with phase := .running, paced := false, intr := false }
    let nonce := if lead then (Config.freeValue s.free).setWidth 256 else m.lens
    let s := { s with cmds := s.cmds ++ [d], nextCmd := s.nextCmd + 1 }
    let s := (s.admitOp d w).modCmd d.id fun c => { c with vers := s.captureVers c, sets := s.captureSets c }
    let s := if lead then s.pairReply m (0 :: aux) nonce else s
    match s.cmd d.id with
    | some d => (s.beginOp d noEnv).pairNonce p aux nonce
    | none => s

/-- The partner's answer about a command of this part. -/
def State.pairAnswer (s : State) (w : TamWait) (m : TamMsg) : State :=
  let gone (s : State) : State := s.dropWait w
  match w.cmd.bind s.cmd with
  | none => if nth m.nums 0 = 0 then s else gone s
  | some c =>
    match m.nums with
    | 0 :: aux =>
      let s := s.modCmd c.id fun c => { c with aux := aux }
      let s := { s with tam := { s.tam with waits := s.tam.waits.map fun v => if v = w then { v with page := 1 } else v } }
      match s.cmd c.id with
      | some c => (s.beginOp c noEnv).pairNonce c.pkt aux m.lens
      | none => s
    | 2 :: st => (gone s).finishCmd c.id (nth st 0) false 0
    | _ =>
      let s := gone s
      if c.phase = .paced ∧ s.releasable c then (s.releaseCmd c).fences s.cmds.length else s

/-- The partner's rates: the lower of both apply, as a new plan where that changes one (R441). -/
def State.pairRates (s : State) (rates : List Nat) : State :=
  let s := { s with tam := { s.tam with peerRates := rates } }
  if s.plan.cur.ver = 0 ∨ (s.compute s.planBase).same s.planBase then s
  else s.issueAs s.plan.cur.cause s.planBase none

/-! ### The tables that a returning partner receives (R387) -/

/-- Pairs of a list of even length. -/
def pairsOf : List Nat → List (Nat × Nat)
  | a :: b :: l => (a, b) :: pairsOf l
  | _ => []

/-- A list with its length in front. -/
def counted (l : List Nat) : List Nat := l.length :: l

/-- The first counted list and the rest. -/
def uncount (l : List Nat) : List Nat × List Nat :=
  match l with
  | n :: r => (r.take n, r.drop n)
  | [] => ([], [])

/-- An optional number as one number. -/
def optNat (o : Option Nat) : Nat := match o with | some n => n + 1 | none => 0
/-- That number as an optional one. -/
def natOpt (n : Nat) : Option Nat := if n = 0 then none else some (n - 1)

/-- An entry of the extent table as a message. -/
def State.extentMessage (s : State) (e : Nat) (x : Extent) : TamMsg :=
  { s.message 0x22 0 s.partnerId 0 0 ([0xE0, e, x.base, x.size, x.attr.toNat, x.owner, x.salt, x.slot, optNat x.written,
        optNat x.pool, x.ver, if x.frozen then 1 else 0, x.pubHorizon, optNat x.revoke, optNat x.openedAt, x.nextSet,
        optNat x.homeRevoked] ++
      counted (x.members.flatMap fun (n, w) => [n, if w then 1 else 0]) ++
      counted (x.views.flatMap fun v => [v.allot + 64 * (if v.spoiled then 1 else 0) + 128 * v.set, v.ver]) ++
      counted (x.memRevoke.flatMap fun (n, c) => [n, c]) ++ counted (x.endedViews.flatMap fun (n, k) => [n, k]) ++
      counted (x.commits.flatMap fun (n, c) => [n, c]) ++ counted (x.remoteViews.flatMap fun (n, v) => [n, v]) ++
      x.history.flatMap fun h => counted (h.ver :: h.pages)) with
    lines := [(0, 0, x.desc)], lens := x.nonce }

/-- Versions and page sets of a list of counted ones. -/
def pageSets : Nat → List Nat → List PageSet
  | 0, _ => []
  | k + 1, l =>
    match uncount l with
    | (v :: ps, r) => ⟨v, ps⟩ :: pageSets k r
    | _ => []

/-- The entry that such a message gives. -/
def extentOfMessage (m : TamMsg) (l : List Nat) : Extent :=
  let (ms, r) := uncount (l.drop 16)
  let (vs, r) := uncount r
  let (rs, r) := uncount r
  let (ev, r) := uncount r
  let (cs, r) := uncount r
  let (fs, r) := uncount r
  { base := nth l 1, size := nth l 2, attr := BitVec.ofNat 32 (nth l 3), owner := nth l 4
    members := (pairsOf ms).map fun (n, w) => (n, w == 1), salt := nth l 5, nonce := m.lens, slot := nth l 6, rebound := none
    written := natOpt (nth l 7), desc := (match m.lines with | (_, _, v) :: _ => v | [] => 0), pool := natOpt (nth l 8)
    ver := nth l 9, frozen := nth l 10 == 1, views := (pairsOf vs).map fun (n, v) => ⟨n % 64, v, n / 64 % 2 == 1, n / 128⟩
    endedViews := pairsOf ev, pubs := [], history := pageSets r.length r, pubHorizon := nth l 11, commits := pairsOf cs
    openedAt := natOpt (nth l 13), nextSet := nth l 14, locks := [], revoke := natOpt (nth l 12), memRevoke := pairsOf rs
    shrink := none, moving := none, remoteViews := pairsOf fs, inPages := [], homeRevoked := natOpt (nth l 15) }

/-- Send the extent table, the code tables, the recipes and the key slots; the first message empties the partner's. -/
def State.sendTables (s : State) : State :=
  let put (s : State) (l : List Nat) (key : BitVec 256) : State :=
    s.portSend 3 { s.message 0x22 0 s.partnerId 0 0 l with lens := key }
  let s := put s [0xE4] 0
  let s := s.ext.tbl.foldl (fun s (e, x) => s.portSend 3 (s.extentMessage e x)) s
  let s := s.cod.slots.foldl (fun s (k, f, l) => put s ([0xE1, k, if f then 1 else 0] ++ l.flatMap fun (x, n) => [x, n]) 0) s
  let s := s.spr.slots.foldl (fun s (k, l) => put s ([0xE2, k, (sget (BitVec.allOnes 64) s.spr.allow k).toNat] ++
    l.flatMap fun (i, w) => [i, w.toNat]) 0) s
  s.sec.slots.foldl (fun s (k, v) => put s [0xE3, k, v.assign.toNat, if v.loaded then 1 else 0] v.key) s

/-- Store a table entry of the part that the partner returns to. -/
def State.storeTable (s : State) (m : TamMsg) (kind : Nat) (l : List Nat) : State :=
  let k := nth l 0
  match kind with
  | 0xE0 =>
    let x := extentOfMessage m l
    { s.setExtent k x with sec := { s.sec with nonces := sins s.sec.nonces k (wrapKey x.nonce) } }
  | 0xE1 =>
    let t := (pairsOf (l.drop 2)).foldl (fun t (x, n) => sput 0 t x n) ([] : Sparse Nat)
    { s with cod := { s.cod with slots := sins s.cod.slots k (nth l 1 == 1, t) } }
  | 0xE2 =>
    let t := (pairsOf (l.drop 2)).foldl (fun t (i, w) => sput 0 t i (BitVec.ofNat 32 w)) ([] : Sparse Reg32)
    { s with spr := { s.spr with slots := sins s.spr.slots k t
                                 allow := sput (BitVec.allOnes 64) s.spr.allow k (BitVec.ofNat 64 (nth l 1)) } }
  | 0xE3 =>
    let s := s.modSlot k fun _ => ⟨nth l 2 == 1, BitVec.ofNat 64 (nth l 1), m.lens⟩
    { s with sec := { s.sec with wrapped := sins s.sec.wrapped k (wrapKey m.lens) } }
  | 0xE4 =>
    { s with ext := { s.ext with tbl := [] }, dir := { s.dir with frames := [], staging := [], merge := [] }
             cod := { s.cod with slots := [] }, spr := { s.spr with slots := [], allow := [] }
             sec := { s.sec with slots := [], wrapped := [], nonces := [] } }
  | _ => s

/-- The LEAD has heard from the home of a proxy: the publish that waits for it here ends in the same way (R443). -/
def State.leadAnswer (s : State) (e a : Nat) (m : TamMsg) : State :=
  match s.cmds.find? fun c => pkOp c.pkt == 0x31 && pk c.pkt 24 2 == e && c.allot == a && c.left == [2 ^ 65] with
  | some c => s.publishAnswer ⟨0, 0x15, s.partnerId, e, 0, some c.id, s.now⟩ m
  | none => s

/-- PAIR_OP: a command of the partner, an answer about one of this part, the partner's rates, a publish that another
part sent to the partner, or a table entry for a returning partner. -/
def execPairOp (t : Nat) (m : TamMsg) (s : State) : Host.Outcome State Fault Refusal :=
  let s := s.start t
  if !(s.tport 3).up ∨ !s.onePlan then .next s
  else if m.flags / 2 % 2 = 1 then
    match s.waitOf m [0x22] with
    | some w => .next (s.pairAnswer w m)
    | none => .next s
  else
    match m.nums, m.lines with
    | 0xE0 :: l, _ => .next (if s.tam.pair = 4 then s.storeTable m 0xE0 l else s)
    | _, (_, _, p) :: args => .next (s.pairApply m p (args.map fun (_, _, v) => v))
    | 0 :: rates, [] => .next (s.pairRates rates)
    | 0x16 :: e :: a :: st :: l, [] => .next (s.leadAnswer e a { m with status := st, nums := l })
    | 0x15 :: l, [] =>
      match s.homeExtent { m with nums := l } with
      | .ok (e, x, true) => .next (s.remotePublish { m with nums := l } e x (!s.isLead))
      | .ok _ => .next (if s.isLead then s.tamReply m 0x16 3 [] else s)
      | .error st => .next (if s.isLead then s.tamReply m 0x16 st [] else s)
    | k :: l, [] => .next (if s.tam.pair = 4 then s.storeTable m k l else s)
    | [], [] => .next s

/-! ### Heartbeats and the loss of a partner (R385) -/

/-- Send a HEARTBEAT: the count and the pair state. -/
def State.beat (s : State) : State := s.portSend 3 (s.message 0x23 0 s.partnerId 0 0 [s.now, s.tam.pair])

/-- HEARTBEAT_SEND: every 10,000 CC on a part that the configuration record pairs. -/
def execHeartbeatSend (t : Nat) (s : State) : Host.Outcome State Fault Refusal :=
  let s := s.start t
  .next (if bitOf s.tam.id 8 ∧ s.tam.beatAt + 10000 ≤ s.now then { s.beat with tam := { s.beat.tam with beatAt := s.now } }
    else s)

/-- Move to a pair state. -/
def State.toPair (s : State) (n : Nat) : State := { s with tam := { s.tam with pair := n } }

/-- A part becomes PAIRED after a return: T3 is planned again and RESILVER_DONE is posted (R387). -/
def State.resilvered (s : State) : State :=
  let s := s.toPair 1
  let s := { s with tam := { s.tam with bitmap := [], resLeft := [] } }
  ((if s.plan.cur.ver = 0 then s else s.issue 5 id).fault0 6 0x65 3)

/-- HEARTBEAT: the partner lives; its state tells this part of a first pairing, of a return and of its end. -/
def execHeartbeat (t : Nat) (m : TamMsg) (s : State) : Host.Outcome State Fault Refusal :=
  let s := s.start t
  if !(s.tport 3).up ∨ !bitOf s.tam.id 8 then .next s
  else
    let s := { s with tam := { s.tam with lastBeat := s.now } }
    let own := s.tam.pair
    let his := nth m.nums 1
    if own = 0 ∧ (his = 0 ∨ his = 1) then .next ((s.toPair 1).sendRates s.plan.cur)
    else if (own = 0 ∨ own = 1 ∨ own = 3) ∧ his = 5 then
      let lost := s.tam.waits.filter fun w => w.type == 0x22
      let s := { s with tam := { s.tam with waits := s.tam.waits.filter fun w => w.type != 0x22 } }
      let s := lost.foldl (fun s w => match w.cmd with | some id => s.finishCmd id 0x0E false 0 | none => s) s
      .next (s.toPair 4)
    else if own = 4 ∧ his = 1 then .next s.resilvered
    else .next s

/-- Commands that waited for the partner go on here: those that the partner was to order begin, and those whose work
is done are released. -/
def State.pairAlone (s : State) : State :=
  let led := s.leads
  let lost := s.tam.waits.filter fun w => w.type == 0x22
  let s := { s with tam := { s.tam with waits := s.tam.waits.filter fun w => w.type != 0x22 } }
  lost.foldl (fun s w =>
    match w.cmd.bind s.cmd with
    | some c =>
      if c.phase = .paced then (if s.releasable c then (s.releaseCmd c).fences s.cmds.length else s)
      else if led ∨ w.page = 1 then s
      else s.beginOp c noEnv
    | none => s) s

/-- SOLO: a plan without T3, writes acknowledged once held here, and those that waited for the partner performed
here (R385). -/
def State.solo (s : State) : State :=
  let s := s.pairAlone
  let tags := s.tam.mirrors
  let s := ({ s with tam := { s.tam with mirrors := [], resLeft := [] } }).toPair 2
  let s := s.retirePlan
  tags.foldl (fun s (tag, _) => s.wake .arbiter tag noEnv) s

/-- FENCED: nothing is served; what waited for the partner is not performed (R385). -/
def State.fencePart (s : State) : State :=
  let go := s.waiting.filter fun r => r.wait == Wait.arbiter || r.wait == Wait.remote
  let s := { s with waiting := s.waiting.filter fun r => !(r.wait == Wait.arbiter || r.wait == Wait.remote)
                    tam := { s.tam with mirrors := [] } }
  go.foldl (fun s r => s.failReq r 0x01 true true) (s.toPair 3)

/-- PARTNER_LOSS: T3 is down, or no HEARTBEAT has come for 1 ms. -/
def execPartnerLoss (t : Nat) (s : State) : Host.Outcome State Fault Refusal :=
  let s := s.start t
  if !s.onePlan ∨ ((s.tport 3).up ∧ s.now < s.tam.lastBeat + 1000000) then .next s
  else
    let s := (s.tamBit 5).fault0 6 0x64 3
    .next (if s.tam.pair = 5 ∨ (s.tam.pair = 1 ∧ s.isLead) then s.solo else s.fencePart)

/-! ### Takeover and return (R385, R387) -/

/-- What a returning partner is sent: PINNED, SHADOW and RETAINED frames in ascending order, then the pages written
to flash while SOLO. -/
def State.resilverList (s : State) : List Nat :=
  ((s.dir.frames.filter fun (_, f) => f.st == 2 || f.st == 5 || f.st == 6).map (·.1)) ++
    s.tam.bitmap.map fun (e, p) => 2 ^ 64 + e * 2 ^ 32 + p

/-- A write of TAM_PAIR. -/
def State.tamPair (s : State) (v : Reg32) : State :=
  let s := if bitOf v 8 ∧ s.tam.pair = 3 then s.solo else s
  if bitOf v 9 ∧ s.tam.pair = 2 ∧ (s.tport 3).up then
    let s := (s.toPair 5).beat
    let s := s.sendTables
    { s with tam := { s.tam with resSent := 0, resLeft := s.resilverList } }
  else s

/-- TAKEOVER: a FENCED part goes on alone. -/
def execTakeover (t : Nat) (v : Reg32) (s : State) : Host.Outcome State Fault Refusal :=
  .next ((s.start t).viaBar 0 0x12000C fun s => s.tamPair (setBit v 8 true))

/-- REJOIN: a part in SOLO takes its partner back. -/
def execRejoin (t : Nat) (v : Reg32) (s : State) : Host.Outcome State Fault Refusal :=
  .next ((s.start t).viaBar 0 0x12000C fun s => s.tamPair (setBit v 9 true))

/-- RESILVER_PAGE of a frame, with its directory state. -/
def State.frameMessage (s : State) (f : Frame) : TamMsg :=
  s.pageMessage (s.message 0x24 0 s.partnerId 0 0 [f.ext, f.page, f.ver, f.st, f.writer, f.hint, f.fillVer,
    if f.pinned then 1 else 0, if f.charged then 1 else 0, if f.dirty then 1 else 0, f.set]) f false

/-- RESILVER_PAGE of a page in flash. -/
def State.imageMessage (s : State) (i : Image) : TamMsg :=
  s.pageMessage (s.message 0x24 0 s.partnerId 0 0 [i.ext, i.page, i.ver, 15]) { Frame.fresh 0 i.ext i.page 1 i.ver with
    lines := if i.lost then (List.range 1024).map fun l => (l, .marker 3 s.now)
      else match s.extent i.ext with
        | some x => i.lines.map fun (l, c) => (l, s.decCell x (1024 * i.page + l) c)
        | none => []
    lens := i.lens } false

/-- Send what the next entry of the list names. -/
def State.sendResilver (s : State) (k : Nat) : State :=
  if k < 2 ^ 64 then
    let s := s.settle k noEnv
    let s := if (s.frame k).any fun f => f.st == 5 then s.copyShadow k (List.range 1024) noEnv else s
    let s := s.flushFrame k noEnv
    match s.frame k with
    | some f =>
      let (g, s) := s.pageCells k f noEnv
      s.portSend 3 (s.frameMessage g)
    | none => s
  else
    let e := (k - 2 ^ 64) / 2 ^ 32
    let p := (k - 2 ^ 64) % 2 ^ 32
    (s.fls.images.filter fun i => i.ext == e && i.page == p).foldl (fun s i => s.portSend 3 (s.imageMessage i)) s

/-- Store a page of the part that this one returns to. -/
def State.storeResilver (s : State) (m : TamMsg) : State :=
  let n := m.nums
  match s.extent (nth n 0) with
  | none => s
  | some x =>
    let cells := s.codedCells x (nth n 1) (msgCells s.now m)
    if nth n 3 = 15 then
      s.putImage { ext := nth n 0, page := nth n 1, ver := nth n 2, die := 512, row := 0, seq := 0, lines := cells
                   lens := msgLens m, lost := false, retained := false } false
    else
      let (t, s) := s.takeFrame x.salt (nth n 1) (some (nth n 0, nth n 1)) noEnv
      match t with
      | none => s
      | some (k, entry) =>
        s.setFrame k { Frame.fresh entry (nth n 0) (nth n 1) (nth n 3) (nth n 2) with
          writer := nth n 4, hint := nth n 5, fillVer := nth n 6, pinned := nth n 7 == 1, charged := nth n 8 == 1
          dirty := nth n 9 == 1, lines := cells, lens := msgLens m
          set := nth n 10, copied := if nth n 3 = 5 then List.range 1024 else [] }

/-- RESILVER_PAGE: a part in SOURCING sends the next page, and after the last one both parts are PAIRED; a part in
RESILVERING stores the page. -/
def execResilverPage (t : Nat) (m : TamMsg) (s : State) : Host.Outcome State Fault Refusal :=
  let s := s.start t
  if !(s.tport 3).up then .next s
  else if s.tam.pair = 4 then .next (s.storeResilver m)
  else if s.tam.pair != 5 then .next s
  else
    match s.tam.resLeft with
    | [] => .next s.resilvered.beat
    | k :: rest =>
      let s := s.sendResilver k
      let s := { s with tam := { s.tam with resSent := (s.tam.resSent + 1) % 2 ^ 32, resLeft := rest } }
      .next (if rest.isEmpty then s.resilvered.beat else s)

/-! ### Requests without a reply (R373, R378, R380) -/

/-- TAMIAN_REQUEST_TIMEOUT: a request has no reply within the bound: it counts as NO_ROUTE. A publish may still be
answered, and its publisher then learns of the version. -/
def execTamianRequestTimeout (t tag : Nat) (s : State) : Host.Outcome State Fault Refusal :=
  let s := s.start t
  match s.tam.waits.find? fun w => w.tag == tag && [0x10, 0x13, 0x15].contains w.type with
  | none => .next s
  | some w =>
    if s.now < w.at_ + s.bound380 w.dst then .next s
    else
      let m := { s.message w.type 0 s.myId tag 0 [] with flags := 2, status := 2 }
      let s := (s.dropWait w).routeBit 2
      match w.type with
      | 0x10 => .next (s.pageAnswer w m)
      | 0x13 => .next (s.openAnswer w m)
      | _ =>
        let a := match w.cmd.bind s.cmd with | some c => c.allot | none => 0
        let s := (s.passAnswer w m).publishAnswer w m
        .next { s with tam := { s.tam with waits := s.tam.waits ++ [{ w with type := 0x115, cmd := none, page := a }] } }

end Sys2Proof.Machine
end

