-- ==== Sys2Proof/Machine/Descriptor.lean ====
section
/-! DEFINITION. The descriptor window of the expansion ROM: header, TLV area and the signed device record (R353 to
R356). -/

namespace Sys2Proof.Machine

open Sys2Proof

/-- Zero bytes. -/
def zeros (n : Nat) : Bytes := List.replicate n 0

/-- A value padded with zeros to a multiple of 4 B, under its TYPE and LENGTH (R354). -/
def tlv (type : Nat) (v : Bytes) : Bytes :=
  leBytes 2 type ++ leBytes 2 v.length ++ v ++ zeros ((4 - v.length % 4) % 4)

/-- Part name in ASCII, zero-padded to 16 B. -/
def partName : Bytes := ("VLM-1864".toList.map fun c => BitVec.ofNat 8 c.toNat) ++ zeros 8

/-- Sizes of the register blocks GEN to PRT in KiB and their offsets (R354, R468). -/
def blockSizes : List (Nat × Nat) :=
  ((List.range 10).map fun i => (64, i * 65536)) ++ [(128, 0xA0000)] ++
    (List.range 11).map fun i => (64, 0xC0000 + i * 65536)

/-- The TLV area, END included. -/
def tlvArea : Bytes :=
  tlv 1 (partName ++ leBytes 4 (fld Config.siliconRev 8 8) ++ leBytes 4 (fld Config.siliconRev 0 8)) ++
  tlv 2 ([18, 72, 32, 512, 36, 32, 4224, 4096, 4096, 64, 65536, 256, 64, 1024, 16, 64].flatMap (leBytes 4)) ++
  tlv 3 ([65536, 64, 2097152, 128 * 2 ^ 30, 124 * 2 ^ 30, 48 * 2 ^ 40].flatMap (leBytes 8)) ++
  tlv 4 [8, 4, 64, 16] ++
  tlv 5 (blockSizes.zipIdx.flatMap fun ((k, o), i) => leBytes 2 i ++ leBytes 2 k ++ leBytes 4 o) ++
  tlv 6 (leBytes 32 (sumN (((List.range 256).filter knownOp).map (2 ^ ·)))) ++
  tlv 7 ([1600, 1200, 400000, 2500, 1600, 9000, notice].flatMap (leBytes 8)) ++
  tlv 0xFFFF []

/-- The header (R353). -/
def State.romHeader (s : State) : Bytes :=
  leBytes 4 0x44524C56 ++ leBytes 2 1 ++ leBytes 2 32 ++ leBytes 4 tlvArea.length ++ leBytes 4 0x4000 ++
    leBytes 4 (if s.sec.recovery then 0 else 16800) ++ zeros 12

/-- The window before the record. -/
def State.romHead (s : State) : Bytes :=
  let b := s.romHeader ++ tlvArea
  b ++ zeros (0x4000 - b.length)

/-- FLT_RETIRED (R325). -/
def State.retiredWord (s : State) : Nat :=
  at_ 0 7 s.drm.retired.length + at_ 16 10 s.retiredDies + at_ 32 6 s.mxe.retired.length + at_ 48 13 s.spr.retired.length

/-- Bytes 0–191 of the device record, as start-up forms them (R355). -/
def State.deviceHead (s : State) : Bytes :=
  leBytes 4 0x52454456 ++ leBytes 2 16800 ++ leBytes 2 1 ++ leBytes 16 Config.serial.toNat ++ leBytes 1 s.myId ++
    leBytes 2 s.ep.portMode.toNat ++ zeros 1 ++ leBytes 4 s.sec.fwVersion.toNat ++ leBytes 8 s.pwr.startups ++
    leBytes 8 s.retiredWord ++ leBytes 48 (identityHash 0).toNat ++ leBytes 48 (identityHash 1).toNat ++
    leBytes 48 (Config.sha384 s.romHead).toNat

/-- The whole record with both signatures. -/
def State.deviceRecord (s : State) : Bytes :=
  s.sec.device ++ identitySign 0 s.sec.device ++ identitySign 1 s.sec.device

/-- Byte `i` of the expansion ROM window; what lies past the record reads 0, and so does the record in recovery
state. -/
def State.romByte (s : State) (i : Nat) : Byte :=
  if i < 0x4000 then s.romHead.getD i 0
  else if s.sec.recovery then 0
  else s.deviceRecord.getD (i - 0x4000) 0

end Sys2Proof.Machine
end

