-- ==== Sys2Proof/Machine/Security.lean ====
section
/-! DEFINITION. Attestation and keys over SPDM, configuration records, and key slots (R397 to R407, R409, R412, R460).
An SPDM answer's code is 0, or the ERROR code of SPDM 1.3 (assumption 46). -/

namespace Sys2Proof.Machine

open Sys2Proof

/-! ### Attestation (R397 to R401) -/

/-- An SPDM request other than GET_PQ_SIG: the signature of an earlier response can no longer be asked for (R400). -/
def State.spdm (s : State) (port ld : Nat) (f : Nat → State → State) : State :=
  let k := ldKey port ld
  s.config k fun s => f k (s.modLd k fun d => { d with lastSigned := none })

/-- A signed response: the RSA signature of the to-be-signed bytes; the SLH-DSA one may be asked for next. -/
def State.signed (s : State) (k : Nat) (tbs : Bytes) (nums : List Nat) (body : Bytes) : State :=
  (s.modLd k fun d => { d with lastSigned := some tbs }).reply 0 nums (body ++ identitySign 0 tbs)

/-- GET_CERTIFICATE: part of the RSA chain of slot 0, its length and what remains. -/
def execGetCertificate (t port ld off len : Nat) (s : State) : Host.Outcome State Fault Refusal :=
  .next ((s.start t).spdm port ld fun _ s =>
    let b := ((Config.certChain 0).drop off).take len
    s.reply 0 [b.length, (Config.certChain 0).length - (off + b.length)] b)

/-- CHALLENGE: CHALLENGE_AUTH is signed. -/
def execChallenge (t port ld : Nat) (tbs : Bytes) (s : State) : Host.Outcome State Fault Refusal :=
  .next ((s.start t).spdm port ld fun k s => s.signed k tbs [] [])

/-- Measurement block `i` of R399. -/
def State.measurement (s : State) (i : Nat) : BitVec 384 :=
  match i with
  | 1 => Config.romDigest
  | 2 => Config.sha384 (s.sec.image.take 64)
  | 3 => BitVec.ofNat 384 s.sec.svn.toNat
  | 4 => Config.sha384 s.sec.record
  | 5 => if s.prt.isOpen then s.prt.digest else 0
  | _ => Config.sha384 s.sec.device

/-- GET_MEASUREMENTS: the six blocks, signed. -/
def execGetMeasurements (t port ld : Nat) (tbs : Bytes) (s : State) : Host.Outcome State Fault Refusal :=
  .next ((s.start t).spdm port ld fun k s =>
    s.signed k tbs [6] ([1, 2, 3, 4, 5, 6].flatMap fun i => leBytes 48 (s.measurement i).toNat))

/-- KEY_EXCHANGE: a session opens, with a signed response. -/
def execKeyExchange (t port ld : Nat) (tbs : Bytes) (s : State) : Host.Outcome State Fault Refusal :=
  .next ((s.start t).spdm port ld fun k s =>
    let id := maxN 0 (s.ld k).sessions + 1
    (s.modLd k fun d => { d with sessions := d.sessions ++ [id] }).signed k tbs [id] [])

/-- GET_PQ_CHAIN: part of the SLH-DSA chain, and the chain's length. -/
def execGetPqChain (t port ld off len : Nat) (s : State) : Host.Outcome State Fault Refusal :=
  .next ((s.start t).spdm port ld fun _ s =>
    s.reply 0 [(Config.certChain 1).length] (((Config.certChain 1).drop off).take len))

/-- GET_PQ_SIG: 1,024 B of the SLH-DSA signature over the bytes of the signed response just before; in any other order
UnexpectedRequest. -/
def execGetPqSig (t port ld off : Nat) (s : State) : Host.Outcome State Fault Refusal :=
  let k := ldKey port ld
  .next ((s.start t).config k fun s =>
    match (s.ld k).lastSigned with
    | none => s.reply 4 []
    | some tbs => s.reply 0 [] (((identitySign 1 tbs).drop off).take 1024))

/-! ### Key handles (R406) -/

/-- KEY_DELIVER: the key is held under a new handle; at most 16 of a logical device. -/
def execKeyDeliver (t port ld : Nat) (session : Option Nat) (key : BitVec 256) (s : State) :
    Host.Outcome State Fault Refusal :=
  .next ((s.start t).spdm port ld fun k s =>
    match session.filter fun n => (s.ld k).sessions.contains n with
    | none => s.reply 0x0B []
    | some n =>
      if 16 ≤ (s.liveHandles k).length then s.reply 3 []
      else
        let h := s.sec.nextHandle
        let s := s.modLd k fun d => { d with handles := d.handles ++ [(h, key, n, s.now)] }
        ({ s with sec := { s.sec with nextHandle := (h + 1) % 2 ^ 32 } }).reply 0 [h])

/-- KEY_FORGET: the handle is discarded. -/
def execKeyForget (t port ld : Nat) (session : Option Nat) (handle : Nat) (s : State) :
    Host.Outcome State Fault Refusal :=
  .next ((s.start t).spdm port ld fun k s =>
    match session.filter fun n => (s.ld k).sessions.contains n with
    | none => s.reply 0x0B []
    | some _ => (s.modLd k fun d => { d with handles := d.handles.filter fun x => x.1 != handle }).reply 0 [])

/-- HANDLE_EXPIRY: 100 s after its delivery a handle is discarded. -/
def execHandleExpiry (t port ld handle : Nat) (s : State) : Host.Outcome State Fault Refusal :=
  let s := s.start t
  .next (s.modLd (ldKey port ld) fun d => { d with
    handles := d.handles.filter fun (h, _, _, at') => h != handle || decide (s.now < at' + 100000000000) })

/-- END_SESSION: the session's handles are discarded with it. -/
def execEndSession (t port ld session : Nat) (s : State) : Host.Outcome State Fault Refusal :=
  .next ((s.start t).spdm port ld fun k s => (s.modLd k fun d => { d with
    sessions := d.sessions.filter (· != session), handles := d.handles.filter fun (_, _, n, _) => n != session }).reply 0 [])

/-! ### Configuration records (R402 to R404) -/

/-- Length of a record. -/
def recordLen : Nat := 17176

/-- Outcome of R403 as CFG_REASON: 0 accepted, 1 format, 2 serial, 3 sequence, 4 RSA, 5 SLH-DSA, 6 owner. -/
def State.judgeRecord (s : State) (b : Bytes) : Nat :=
  let paired := leAt b 33 1 % 2 == 1
  let sigs := Config.recordSigs b
  if b.length != recordLen || leAt b 0 4 != 0x47464356 || leAt b 4 2 != recordLen || leAt b 6 2 != 1 ||
      decide (1 < leAt b 33 1) || (!paired && leAt b 34 1 != 0) || leAt b 35 1 != 0 || leAt b 38 2 != 0 then 1
  else if leAt b 8 16 != Config.serial.toNat then 2
  else if leAt b 24 8 ≤ s.sec.cfgSeq.toNat then 3
  else if !sigs.1 then 4
  else if !sigs.2 then 5
  else if s.sec.owned && (Config.sha384 ((b.drop 136).take 384) != s.sec.ownerRsa ||
      Config.sha384 ((b.drop 520).take 48) != s.sec.ownerSlh) then 6
  else 0

/-- Validate a record; an accepted one waits for the next whole-part reset and enrols its owner or the next one. -/
def State.commitRecord (s : State) (b : Bytes) : State :=
  let why := s.judgeRecord b
  let s := { s with sec := { s.sec with cfgAccepted := why == 0, cfgReason := why } }
  if why != 0 then s
  else
    let next := leAt b 40 48 != 0 && leAt b 88 48 != 0
    let s := { s with sec := { s.sec with nextRecord := b } }
    if next then
      { s with sec := { s.sec with
          owned := true, ownerRsa := BitVec.ofNat 384 (leAt b 40 48), ownerSlh := BitVec.ofNat 384 (leAt b 88 48) } }
    else if s.sec.owned then s
    else
      { s with sec := { s.sec with
          owned := true, ownerRsa := Config.sha384 ((b.drop 136).take 384)
          ownerSlh := Config.sha384 ((b.drop 520).take 48) } }

/-- SEC_CFG_STATUS; a validation ends within its step. -/
def State.cfgStatus (s : State) : Nat := atB 1 s.sec.cfgAccepted + at_ 8 4 s.sec.cfgReason

/-- A write of SEC_CFG_CTRL. -/
def State.cfgCtrl (s : State) (v : Reg32) : State :=
  if bitOf v 0 then s.commitRecord (sbytes s.sec.cfgBuf recordLen) else s

/-- CFG_COMMIT: COMMIT is written. -/
def execCfgCommit (t : Nat) (v : Reg32) (s : State) : Host.Outcome State Fault Refusal :=
  .next ((s.start t).viaBar 0 0x130018 fun s => s.cfgCtrl (setBit v 0 true))

/-- CFG_RECORD: a piece of a record over the management bus; the last piece commits it (R460). -/
def execCfgRecord (t off : Nat) (data : Bytes) (last : Bool) (s : State) : Host.Outcome State Fault Refusal :=
  let s := s.start t
  if s.gen.phase = 0 ∨ s.gen.phase = 1 ∨ s.gen.phase = 7 then .next (s.reply 1 [])
  else if 256 < data.length ∨ recordLen < off + data.length then .next (s.reply 2 [])
  else
    let buf := data.zipIdx.foldl (fun m (b, i) => sput 0 m (off + i) b) s.sec.busBuf
    let s := { s with sec := { s.sec with busBuf := buf } }
    let s := if last then
        let s := s.commitRecord (sbytes buf recordLen)
        { s with sec := { s.sec with busBuf := [] } }
      else s
    .next (s.reply 0 [s.cfgStatus])

/-! ### Key slots (R405, R407, R409) -/

/-- Set SLOT_ERR. -/
def State.slotError (s : State) : State := { s with sec := { s.sec with slotErr := true } }

/-- A write of SEC_SLOT_ASSIGN for the selected slot. -/
def State.slotMask (s : State) (v : Reg64) : State :=
  let k := fld s.sec.slotSel 0 8
  if (s.slot k).loaded then s.slotError
  else
    let s := s.modSlot k fun x => { x with assign := v }
    { s with sec := { s.sec with slotAssign := v } }

/-- SEC_SLOT_ASSIGN: the mask of an EMPTY slot is set. -/
def execSecSlotAssign (t : Nat) (v : Reg64) (s : State) : Host.Outcome State Fault Refusal :=
  .next ((s.start t).viaBar 0 0x130028 fun s => (s.wrote64 0x130028 false v).slotMask v)

/-- A write of SEC_SLOT_CTRL. -/
def State.slotCtrl (s : State) (v : Reg32) : State :=
  let k := fld s.sec.slotSel 0 8
  if !bitOf v 0 then s else if s.slotBound k = 0 then s.eraseSlot k else s.slotError

/-- SLOT_ERASE: ERASE is written. -/
def execSlotErase (t : Nat) (v : Reg32) (s : State) : Host.Outcome State Fault Refusal :=
  .next ((s.start t).viaBar 0 0x130034 fun s => s.slotCtrl (setBit v 0 true))

/-- KEY_ERASE_FLASH_DONE: the block that held the wrapped copy is erased. -/
def execKeyEraseFlashDone (t : Nat) (s : State) : Host.Outcome State Fault Refusal :=
  let s := s.start t
  .next { s with sec := { s.sec with erasePending := false } }

end Sys2Proof.Machine
end

