-- ==== Sys2Proof/Machine/Shutdown.lean ====
section
/-! DEFINITION. The shutdown sequence, whole-part reset and the loss of a supply (R27, R149, R319, R323, R324, R363,
R419, R420, R424, R425, R451 to R453). The sequence runs within one step (assumption 47). -/

namespace Sys2Proof.Machine

open Sys2Proof

/-! ### The shutdown sequence (R149) -/

/-- Programs that the dies have: one that waits for a place under R150 is not issued. -/
def State.issued (s : State) : List Program := s.fls.programs.filter (·.issued)

/-- Which of the issued programs became whole when the sequence did not finish: unknown, one free bit each. -/
def State.halfPrograms (s : State) : State :=
  s.issued.foldl (fun s g =>
    let (v, s) := s.fresh
    if bitOf v 0 then s.landImage g.img g.host else s) s

/-- The life record's summary: the counters, and the calendar (R424); its bytes are counted (R139). -/
def State.summary (s : State) : State :=
  ({ s with pwr := { s.pwr with summaries := s.pwr.summaries + 1, summaryAt := s.powerOn, calSaved := s.calendarNow } }).countInternal
    (Config.systemBytes 2)

/-- Every open stripe row is closed, its missing images counting as zero (R128, R149). -/
def State.closeRows (s : State) : State :=
  (s.fls.stripes.filter (!·.closed)).foldl (fun s r => s.closeRow r.group r.row) s

/-- Shutdown: no command is fetched any more, issued programs complete, open stripe rows are closed, and the life record
is written (each switch of the map is in the journal already); nothing else is saved. PWR_GOOD goes low (R452). -/
def State.shutdown (s : State) (finished : Bool) : State :=
  let s := if finished then ((s.issued.foldl (fun s g => s.landImage g.img g.host) s).closeRows).summary
    else s.halfPrograms
  { s with
    fls := { s.fls with programs := [], unclean := !finished }
    pwr := { s.pwr with powerOnBase := s.powerOn, powerOnSince := none }
    gen := { s.gen with pwrGood := false } }

/-! ### Whole-part reset (R323, R324) -/

/-- An extent as start-up restores it: its current version, with no views, sets or locks. A revocation whose count has
come stands; one that still waited for its count is forgotten (assumption 67). -/
def Extent.restored (x : Extent) (now : Count) : Extent :=
  { x with
           members := x.members.filter fun (n, _) => !(x.memRevoke.any fun (m, c) => m == n && decide (c ≤ now))
           rebound := none, views := [], endedViews := [], pubs := [], history := [], pubHorizon := 0, commits := [], openedAt := none
           locks := [], revoke := none, memRevoke := [], shrink := none, moving := none, remoteViews := []
           inPages := [], nonce := 0 }

/-- A die as start-up finds it; what the life record keeps of it stays. -/
def Die.restored (d : Die) : Die := { Die.init with st := d.st, badBlocks := d.badBlocks, bad := d.bad }

/-- A stripe row as start-up finds it: one that was not closed takes no more images (R131). -/
def Stripe.restored (r : Stripe) : Stripe := if r.closed then r else { r with used := r.members }

/-- Records of the log that were programmed; those in the on-die buffer are lost (R335). -/
def DetBlk.restored (d : DetBlk) : DetBlk :=
  let tail := d.tail - d.buffered
  let log := d.log.filter fun r => decide (r.off + 32 * r.len ≤ tail)
  { DetBlk.init with
    log := log, tail := tail, head := Nat.min d.head tail
    records := match log.getLast? with | some r => r.seq + 1 | none => d.records - d.log.length }

/-- Whole-part reset but for what governs the requests to come: every register at its reset value, beside what the flash
system area, the life record and the always-on island keep. The on-die copies of keys and nonces are gone until RESTORE
(R324, R396). `cause` is LAST_RESET. -/
def State.afterReset (s : State) (cause : Nat) : State :=
  { State.reset with
    pending := s.pending, out := s.out, free := s.free, nextCmd := s.nextCmd, nextReq := s.nextReq
    cc := { CcBlk.init with
      now := s.cc.now, running := s.cc.running, onRef := s.cc.onRef, slew := s.cc.slew, slewTick := s.cc.slewTick
      status := s.cc.status &&& 0x107 }
    plan := { PlanBlk.init with last := s.plan.last, versions := s.plan.versions }
    ext := { ExtBlk.init with
      tbl := (s.ext.tbl.filter fun (_, x) => !(x.revoke.any fun c => decide (c ≤ s.now))).map fun (e, x) =>
        (e, x.restored s.now) }
    cod := { CodBlk.init with slots := s.cod.slots }
    dir := { DirBlk.init with gone := s.dir.gone }
    mxe := { MxeBlk.init with retired := s.mxe.retired, boot := s.mxe.retired.length }
    spr := { SprBlk.init with
      slots := s.spr.slots, allow := s.spr.allow.filter fun (k, _) => decide (16 ≤ k), retired := s.spr.retired
      boot := s.spr.retired.length }
    drm := { DrmBlk.init with
      retired := s.drm.recorded, recorded := s.drm.recorded
      chans := (s.drm.chans.filter fun (c, _) => s.drm.recorded.contains c).map fun (c, x) =>
        (c, { Chan.init with st := if x.st = 5 then 5 else 4 }) }
    fls := { FlsBlk.init with
      unclean := s.fls.unclean, hostProg := s.fls.hostProg, nandProg := s.fls.nandProg
      dies := s.fls.dies.foldl (fun l (d, x) => sput .init l d x.restored) []
      images := s.fls.images.filter (!·.retained), nextProg := s.fls.nextProg
      stripes := s.fls.stripes.map (·.restored), rowNext := s.fls.rowNext, journal := s.fls.journal }
    flt := { FltBlk.init with lastReset := cause }
    det := s.det.restored
    ep := { EpBlk.init with
      portMode := s.ep.portMode
      ports := s.ep.ports.foldl (fun l (p, h) => sput .init l p { HostPort.init with perst := h.perst }) []
      lds := s.ep.lds.foldl (fun l (k, d) => sput .init l k { Ld.init with pmeEn := d.pmeEn, pme := d.pme }) [] }
    tam := { TamBlk.init with
      id := s.tam.id, nextTag := s.tam.nextTag
      ports := s.tam.ports.foldl (fun l (p, x) => sput .init l p { TamPort.init with retired := x.retired }) [] }
    sec := { SecBlk.init with
      owned := s.sec.owned, svn := s.sec.svn, image := s.sec.image, candidate := s.sec.candidate
      record := s.sec.record, nextRecord := s.sec.nextRecord, cfgSeq := s.sec.cfgSeq, cfgValid := s.sec.cfgValid
      ownerRsa := s.sec.ownerRsa, ownerSlh := s.sec.ownerSlh, erasePending := s.sec.erasePending
      slots := s.sec.slots.map fun ((k, x) : Nat × KeySlot) => (k, { x with key := 0 })
      wrapped := s.sec.wrapped, nonces := s.sec.nonces }
    pwr := { PwrBlk.init with
      level := s.pwr.level, lastReplan := s.pwr.lastReplan, powerOnBase := s.pwr.powerOnBase
      powerOnSince := s.pwr.powerOnSince, startups := s.pwr.startups, calendar := s.pwr.calendar
      calendarAt := s.pwr.calendarAt, calSaved := s.pwr.calSaved, calValid := s.pwr.calValid
      summaries := s.pwr.summaries, summaryAt := s.pwr.summaryAt, main := s.pwr.main
      domains := s.pwr.domains.foldl (fun l (d, x) => sput .init l d
        { Domain.init with junction := x.junction, drift := x.drift, raise := x.raise, refPace := x.refPace }) [] }
    gen := { GenBlk.init with
      addr := s.gen.addr, wake := s.gen.wake, thermTrip := s.gen.thermTrip, modRst := s.gen.modRst, aux := s.gen.aux
      conv := s.gen.conv, held := s.gen.held } }

/-- Whole-part reset (R323, R324); the tables that it keeps govern from then on (R472). -/
def State.wholeReset (s : State) (cause : Nat) : State :=
  let s := s.afterReset cause
  { s with old := s.governs }

/-- A reset that starts over at once, or is held until its cause is gone. -/
def State.reboot (s : State) (cause : Nat) (held : Option Nat) (finished : Bool) : State :=
  let s := (s.shutdown finished).wholeReset cause
  { s with gen := { s.gen with held := held } }

/-- Main power goes: the sequence runs on the hold-up, and only the always-on island is left (R149, R363, R420). -/
def State.mainLost (s : State) (finished : Bool) : State :=
  let s := (s.shutdown finished).wholeReset 0
  { s with pwr := { s.pwr with main := false }, gen := { s.gen with conv := false, phase := 0, held := none } }

/-- The auxiliary supply goes: a loss of main power, and the Common Count is lost; the calendar goes on from the last
summary by power-on time (R27, R425, R451). -/
def State.auxLost (s : State) (finished : Bool) : State :=
  let s := s.mainLost finished
  let known := s.pwr.calendar != 0
  { s with
    cc := CcBlk.init
    pwr := { s.pwr with
      calendar := s.pwr.calSaved, calendarAt := s.pwr.powerOnBase, calValid := false, calLost := known }
    gen := { s.gen with aux := false, wake := false, thermTrip := false } }

/-- A thermal trip: THERM_TRIP# goes low, and the reset is held until every junction is below 80 °C (R419). -/
def State.trip (s : State) (finished : Bool) : State :=
  let s := s.reboot 0 (some 0) finished
  { s with pwr := { s.pwr with tripped := true }, gen := { s.gen with thermTrip := true } }

/-! ### The rows -/

/-- The part has main power and is not shutting down. -/
def State.powered (s : State) : Bool := s.gen.conv && s.gen.held.isNone

/-- SHUTDOWN_SEQUENCE by its cause. A power-up shuts nothing down. -/
def execShutdownSequence (t : Nat) (cause : ResetCause) (finished : Bool) (s : State) :
    Host.Outcome State Fault Refusal :=
  let s := s.start t
  if !s.powered then .next s
  else
    match cause with
    | .powerUp => .next s
    | .modRst => .next (s.reboot 1 (some 1) finished)
    | .fltReset => .next (s.reboot 2 none finished)
    | .watchdog => .next (s.reboot 3 none finished)
    | .therm => .next (s.trip finished)
    | .input => .next (s.mainLost finished)
    | .d3cold => .next (s.mainLost finished)
    | .aux => .next (s.auxLost finished)

/-- Measured input voltage in units of 10 mV (R426). -/
def State.voltage (s : State) (mv10 : Nat) : State :=
  { s with pwr := { s.pwr with input := setFld s.pwr.input 0 16 mv10 } }

/-- INPUT_LOW: below 40 V for 1 ms. -/
def execInputLow (t mv10 : Nat) (s : State) : Host.Outcome State Fault Refusal :=
  let s := s.start t
  if mv10 < 4000 ∧ s.gen.conv then
    let s := s.voltage mv10
    .next ({ s with pwr := { s.pwr with inputLow := true } }.fault0 7 0x83 0)
  else .next s

/-- INPUT_HIGH: above 60 V for 1 ms. -/
def execInputHigh (t mv10 : Nat) (s : State) : Host.Outcome State Fault Refusal :=
  let s := s.start t
  if 6000 < mv10 ∧ s.gen.conv then
    let s := s.voltage mv10
    .next ({ s with pwr := { s.pwr with inputHigh := true } }.fault0 7 0x84 0)
  else .next s

/-- INPUT_DISCONNECT: above 63 V the conversion stage disconnects the input. -/
def execInputDisconnect (t mv10 : Nat) (finished : Bool) (s : State) : Host.Outcome State Fault Refusal :=
  let s := s.start t
  .next (if 6300 < mv10 ∧ s.gen.conv then s.mainLost finished else s)

/-- AUX_LOSS: P3V3_AUX is lost. -/
def execAuxLoss (t : Nat) (finished : Bool) (s : State) : Host.Outcome State Fault Refusal :=
  let s := s.start t
  .next (if s.gen.aux then s.auxLost finished else s)

/-- MOD_RST# is held low: a pulse below 100 CC is ignored, one from 1,000 CC on starts a whole-part reset, and the
effect of one between is undefined (R453). -/
def execModRst (t low : Nat) (finished : Bool) (s : State) : Host.Outcome State Fault Refusal :=
  let s := s.start t
  if low < 100 then .next s
  else if low < 1000 then .refused .undefinedPulse
  else if !s.gen.aux then .next s
  else
    let s := if s.gen.conv then s.reboot 1 (some 1) finished else s
    .next { s with gen := { s.gen with modRst := true } }

/-- MOD_RST# returns high, and start-up begins (R453). -/
def execModRstRelease (t : Nat) (s : State) : Host.Outcome State Fault Refusal :=
  let s := s.start t
  .next { s with gen := { s.gen with modRst := false, held := s.gen.held.filter (· != 1) } }

/-- WATCHDOG_EXPIRY: 2 s without a firmware heartbeat; the watchdog runs from DRAM_TRAINING on (R319, R462). -/
def execWatchdogExpiry (t : Nat) (finished : Bool) (s : State) : Host.Outcome State Fault Refusal :=
  let s := s.start t
  .next (if 3 ≤ s.gen.phase ∧ s.powered then s.reboot 3 none finished else s)

/-- A write of FLT_RESET: 0xA5A5 starts a whole-part reset (R319, R325). -/
def State.fltReset (s : State) (v : Reg32) (finished : Bool) : State :=
  if fld v 0 16 = 0xA5A5 then s.reboot 2 none finished else s

/-- FLT_RESET is written. -/
def execFltReset (t : Nat) (v : Reg32) (finished : Bool) (s : State) : Host.Outcome State Fault Refusal :=
  .next ((s.start t).viaBar 0 0xF0008 fun s => s.fltReset v finished)

/-- GO: the recovery window is verified; an image that passes is programmed and the part reset as FLT_RESET does; a
failure is recorded. After PUF_FAIL nothing is loaded (R393). -/
def State.recoveryGo (s : State) (v : Reg32) (finished : Bool) : State :=
  if !bitOf v 0 ∨ !s.sec.recovery then s
  else if s.sec.rcvStatus = 6 then s
  else
    let b := sbytes s.sec.window (fld s.sec.rcvLen 0 25)
    let why := verifyImage s.sec.svn.toNat b
    if why = 0 then ({ s with sec := { s.sec with image := b } }).reboot 2 none finished
    else { s with sec := { s.sec with rcvStatus := why } }

/-- RECOVERY_LOAD: GO in SEC_RCV_CTRL is written. -/
def execRecoveryLoad (t : Nat) (v : Reg32) (finished : Bool) (s : State) : Host.Outcome State Fault Refusal :=
  .next ((s.start t).viaBar 0 0x130044 fun s => s.recoveryGo (setBit v 0 true) finished)

end Sys2Proof.Machine
end

