-- ==== Sys2Proof/Machine/Power.lean ====
section
/-! DEFINITION. Power domains, the governor, thermal limits, pace, re-plans and the effective count of a plan (R39, R41,
R49, R50, R150, R413 to R427, R459, R460). -/

namespace Sys2Proof.Machine

open Sys2Proof

/-! ### Domains (R413, R414) -/

/-- Domain `d` is on. -/
def State.domainOn (s : State) (d : Nat) : Bool :=
  if !s.powered || s.gen.phase == 0 then false
  else if s.ep.lowPower then (decide (51 ≤ d) && decide (d ≤ 58) && decide (s.portMode (d - 51) < 2)) || d == 63
  else if d < 32 then !((List.range 132).all fun c => s.spr.retired.contains (132 * d + c))
  else if d < 41 then
    let holders := (roleHolders s.mxe.retired s.mxe.boot).filterMap id
    (List.range 4).any fun i => holders.contains (4 * (d - 32) + i)
  else if d < 47 then !((List.range 12).all fun c => s.drm.retired.contains (12 * (d - 41) + c))
  else if d < 51 then !((List.range 128).all fun c => (s.die (128 * (d - 47) + c)).st == 2)
  else if d < 59 then decide (s.portMode (d - 51) < 2)
  else if d = 59 then s.sec.cfgValid && fld s.tam.ctrl 16 4 != 0
  else decide (d < 64)

/-- AGE_DOM_STATUS of a domain. -/
def Domain.ageWord (d : Domain) : Reg64 :=
  BitVec.ofNat 64 (d.drift.toNat + at_ 16 6 d.raise + at_ 32 16 d.refPace)

/-- The level of the power plan in force, or of the life record before there is one. -/
def State.levelNow (s : State) : Nat := if s.plan.cur.ver = 0 then s.pwr.level else s.plan.cur.level

/-- Cap of a level in W and its core voltage floor in mV (R415). -/
def levelCap : Nat → Nat
  | 0 => 650
  | 1 => 520
  | 2 => 400
  | _ => 280
@[inherit_doc levelCap] def levelFloor : Nat → Nat
  | 0 => 720
  | 1 => 680
  | 2 => 620
  | _ => 560

/-- Every domain of `l` gets the setpoint that `f` gives it from a free value; the spec states no voltage beside the
floors and the raises (R416, assumption 48). -/
def State.setpoints (s : State) (l : List Nat) (f : Domain → Nat → Nat) : State :=
  l.foldl (fun s d =>
    let (v, s) := s.fresh
    s.modDom d fun x => { x with setpoint := f x (fld v 0 10) }) s

/-- POWER_GOVERNOR_SAMPLE: above 97% of the cap setpoints fall toward the level's floor, never below it (R416). -/
def execPowerGovernorSample (t mv10 watts inlet outlet flow : Nat) (s : State) : Host.Outcome State Fault Refusal :=
  let s := s.start t
  if !s.powered then .next s
  else
    let near := decide (97 * levelCap s.levelNow < 100 * watts)
    let s := { s with pwr := { s.pwr with
      input := BitVec.ofNat 32 (at_ 0 16 mv10 + at_ 16 16 watts), capNear := near
      coolant := BitVec.ofNat 32 (at_ 0 8 inlet + at_ 8 8 outlet + at_ 16 16 flow) } }
    .next (if near then
      s.setpoints ((List.range 64).filter s.domainOn) fun x v =>
        Nat.min x.setpoint (Nat.max v (levelFloor s.levelNow + x.raise))
    else s)

/-! ### Thermal limits (R419, R441) -/

/-- The hottest domain, the lowest number first. -/
def State.hottest (s : State) : Nat :=
  (List.range 64).foldl (fun h d => if (s.dom h).junction < (s.dom d).junction then d else h) 0

/-- A level change that is no packet: a request over the management bus, or a thermal step; a pair changes level
together (R417, R441). -/
def State.levelTo (s : State) (l : Nat) : State :=
  let s := if s.onePlan then
      (s.tamRequest { s.message 0x22 0 s.partnerId 0 0 [0, s.now] with
        lines := [(0, 0, withOp (setFld (0 : Packet) 192 8 l) 0xF1)] } 0xFFFF 0 none).2
    else s
  s.powerSet l

/-- The part steps its level down while the hottest junction is at or above STEP_C and no lowering is pending. -/
def State.thermalStep (s : State) : State :=
  let h := s.hottest
  let l := s.plan.cur.level
  if bitOf s.pwr.ctrl 0 ∧ fld s.pwr.ctrl 16 8 ≤ (s.dom h).junction ∧ s.plan.cur.ver != 0 ∧ l < 3 ∧ s.planBase.level ≤ l then
    let s := (s.levelTo (l + 1)).fault0 7 0x81 h
    { s with plan := { s.plan with stepping := s.plan.pend.isSome } }
  else s

/-- The junctions that the sensors read, and their peaks (R419). -/
def State.readJunctions (s : State) (temps : List Nat) : State :=
  (List.range 64).foldl (fun s d => s.modDom d fun x => { x with
    junction := nth temps d % 256, peak := Nat.max x.peak (nth temps d % 256) }) s

/-- THERM_WARN follows the hottest domain: a crossing upward is a fault of its own (R419). -/
def State.thermWarnAt (s : State) (h : Nat) : State :=
  let above := decide (fld s.pwr.ctrl 8 8 ≤ (s.dom h).junction)
  let s := if above && !s.pwr.warm then s.fault0 7 0x80 h else s
  { s with pwr := { s.pwr with thermWarn := s.pwr.thermWarn || above, warm := above } }

/-- What the hottest domain asks for: the end of a thermal hold, a trip, or a warning and a step (R419). -/
def State.hottestActs (s : State) : State :=
  let hot := (s.dom s.hottest).junction
  if s.gen.held = some 0 then
    if hot < 80 then { s with gen := { s.gen with held := none, thermTrip := false } } else s
  else if 110 ≤ hot then s.trip true
  else
    let s := s.thermWarnAt s.hottest
    if s.plan.stepping then s else s.thermalStep

/-- JUNCTION_SAMPLE: the sensors are read, and the hottest domain acts (R419). -/
def execJunctionSample (t : Nat) (temps : List Nat) (s : State) : Host.Outcome State Fault Refusal :=
  let s := s.start t
  .next (if s.gen.conv then (s.readJunctions temps).hottestActs else s)

/-! ### Pace and re-plans (R41, R421, R422) -/

/-- A re-plan starts to measure; one that measures goes on. -/
def State.startReplan (s : State) : State := { s with pwr := { s.pwr with replanning := true } }

/-- A domain's drift since the last re-plan, from a measured pace, in 1/65,536 (R421). -/
def driftOf (ref : Nat) (pace : Nat) : Int := ((ref : Int) - (pace : Int)) * 65536 / (ref : Int)

/-- The setpoint of domain `d` is raised so that it stands `new` mV above its start of life, which is at most 40 mV; the
limit is reported when it is reached (R422). -/
def State.raiseTo (s : State) (d new : Nat) : State :=
  let was := (s.dom d).raise
  let new := Nat.max was (Nat.min 40 new)
  let s := s.modDom d fun x => { x with raise := new, setpoint := (x.setpoint + (new - was)) % 1024 }
  if new = 40 ∧ was < 40 then ({ s with pwr := { s.pwr with vmax := true } }).fault0 7 0x85 d else s

/-- PACE_ALARM raises the domain's setpoint within the limit of R422, by steps of a free number (R41 gives none). -/
def State.raiseFree (s : State) (d : Nat) : State :=
  let was := (s.dom d).raise
  let (v, s) := s.fresh
  s.raiseTo d (was + 1 + fld v 0 6)

/-- The measured pace of domain `d`: within 1% of the planned pace PACE_ALARM is set, the domain's setpoint raised and a
re-plan started, and so it is by drift (R41, R422, R427). -/
def State.paceOne (s : State) (d : Nat) (m : BitVec 16) : State :=
  if !s.domainOn d then s
  else
    let s := { s with cc := { s.cc with measured := sput 0 s.cc.measured d m.toNat } }
    let drift := driftOf (s.dom d).refPace (Config.refPace d m)
    let s := s.modDom d fun x => { x with drift := sint 16 drift }
    let planned := (s.plan.cur.paces.getD d 0).toNat
    let alarm := s.plan.cur.ver != 0 && decide (100 * m.toNat ≤ 101 * planned)
    let s := if alarm then (s.ccBit 7 true).raiseFree d else s
    if alarm || decide ((65536 * fld s.pwr.ageCtrl 8 8 : Int) < 1000 * drift) then s.startReplan else s

/-- PACE_SAMPLE: the measured paces of the domains that are on. -/
def execPaceSample (t : Nat) (paces : List (BitVec 16)) (s : State) : Host.Outcome State Fault Refusal :=
  let s := s.start t
  if !s.powered then .next s
  else .next ((List.range 64).foldl (fun s d => s.paceOne d (paces.getD d 0)) s)

/-- REPLAN_PERIOD: PERIOD_DAYS of power-on time have passed since the last re-plan. -/
def execReplanPeriod (t : Nat) (s : State) : Host.Outcome State Fault Refusal :=
  let s := s.start t
  .next (if s.gen.phase = 6 ∧ s.pwr.lastReplan + 86400 * fld s.pwr.ageCtrl 0 8 ≤ s.powerOn then s.startReplan else s)

/-- Worst eye margin of the channels of a GDDR7 group that have trained, in 1/256 UI. -/
def State.groupMargin (s : State) (g : Nat) : Nat :=
  ((List.range 12).filterMap fun i =>
    let c := s.chan (12 * g + i)
    if c.out || c.lastMaint == 0 then none else some c.margin).foldl Nat.min 255

/-- Domain `d` takes its measured raise, at most 40 steps and never less than before, and its reference pace (R422). -/
def State.raiseOne (s : State) (d raise ref : Nat) : State :=
  (s.modDom d fun x => { x with refPace := ref % 65536, drift := 0 }).raiseTo d raise

/-- A GDDR7 group whose smallest margin is below 12 gets 10 steps more (R422). -/
def State.raiseGroup (s : State) (g : Nat) : State :=
  if s.groupMargin g < 12 then s.modDom (41 + g) fun x => { x with setpoint := (x.setpoint + 10) % 1024 } else s

/-- REPLAN_MEASURE_DONE: setpoints are raised, and a plan with cause AGEING is issued; the REPLANs that waited
complete (R422, R283). -/
def execReplanMeasureDone (t : Nat) (meas : PlanInput) (refs raises : List Nat) (s : State) :
    Host.Outcome State Fault Refusal :=
  let s := s.start t
  if !s.pwr.replanning ∨ s.plan.cur.ver = 0 then .next s
  else
    let last := s.plan.last
    let s := (List.range 64).foldl (fun s d => s.raiseOne d (nth raises d) (nth refs d)) s
    let s := (List.range 6).foldl (fun s g => s.raiseGroup g) s
    let waiting := s.pwr.replanCmds
    let s := { s with
      plan := { s.plan with meas := meas }
      pwr := { s.pwr with replanning := false, replanDone := true, lastReplan := s.powerOn, replanCmds := [] } }
    let s := s.issue 2 id
    .next (waiting.foldl (fun s id => s.finishCmd id 0 false (s.planResult last)) s)

/-- HOLDUP_MEASURE: at start-up and at each re-plan; below 20 ms programs are limited (R150). HOLDUP_LOW, which no write
clears, follows the latest measurement (DEDUCED, assumption 100). -/
def execHoldupMeasure (t us : Nat) (s : State) : Host.Outcome State Fault Refusal :=
  let s := s.start t
  if s.gen.phase != 5 ∧ !s.pwr.replanning then .next s
  else
    let low := decide (us < 20000)
    let s := { s with
      fls := { s.fls with holdup := us % 65536, holdupLow := low }
      plan := { s.plan with holdup := if low then Nat.max us 1 else 0 } }
    let s := if low then s.fault0 7 0x75 0 else s
    .next (s.fls.programs.foldl (fun s _ => s.issueNext) s)

/-! ### Plans (R49, R50) -/

/-- The cuts of retirements whose announced count is reached apply (R50). -/
def State.takeCuts (s : State) : State :=
  if s.plan.cutAt.any fun c => decide (c ≤ s.now) then
    let s := s.applyCuts true
    { s with plan := { s.plan with cutAt := s.plan.cutAt.filter fun c => decide (s.now < c) } }
  else s

/-- The pending plan comes into force with its level and cuts; jobs that wait go on (R49, R190). -/
def State.takePlan (s : State) (p : Plan) : State :=
  let step := s.plan.stepping
  let s := { s with plan := { s.plan with pend := none } }
  let s := ((s.inForce p).applyCuts true).runJobs
  if step then s.thermalStep else s

/-- PLAN_EFFECTIVE: the pending plan comes into force with its level and cuts, or a retirement's cuts apply; a junction
still at STEP_C steps the level again. MISS engines may change their role, and the jobs that wait go on (R190). -/
def execPlanEffective (t : Nat) (s : State) : Host.Outcome State Fault Refusal :=
  let s := (s.start t).takeCuts
  match s.plan.pend with
  | none => .next s
  | some p => .next (if s.now < p.effective then s else s.takePlan p)

/-! ### The life record and the management bus (R364, R424, R459, R460) -/

/-- LIFE_RECORD_SUMMARY: each hour of power-on time (R424). -/
def execLifeRecordSummary (t : Nat) (s : State) : Host.Outcome State Fault Refusal :=
  let s := s.start t
  .next (if s.pwr.powerOnSince.isSome ∧ s.pwr.summaryAt + 3600 ≤ s.powerOn then s.summary else s)

/-- GET_STATE: phase, plan version, level, pair state. -/
def execGetState (t : Nat) (s : State) : Host.Outcome State Fault Refusal :=
  let s := s.start t
  .next (s.reply 0 [s.gen.phase, s.plan.cur.ver, s.levelNow, s.tam.pair])

/-- POWER_LEVEL: as POWER_SET at READY, and held for the first plan before it. -/
def execPowerLevel (t level : Nat) (s : State) : Host.Outcome State Fault Refusal :=
  let s := s.start t
  if s.gen.phase = 0 ∨ s.gen.phase = 7 then .next (s.reply 1 [])
  else if 3 < level then .next (s.reply 2 [])
  else if s.gen.phase = 6 then .next ((s.levelTo level).reply 0 [level])
  else .next ({ s with plan := { s.plan with heldLevel := some level } }.reply 0 [level])

/-- WAKE: a wake request for a logical device. -/
def execWake (t port ld : Nat) (s : State) : Host.Outcome State Fault Refusal :=
  let s := s.start t
  .next ((s.signalPme (ldKey port ld)).reply 0 [])

/-- PLDM_SENSOR_READ: 0 input voltage, 1 power, 2 inlet, 3 outlet, 4 flow, 5 hottest junction, 6 level; operational
state 0 enabled or 1 unavailable, then the reading (assumption 49). -/
def execPldmSensorRead (t sensor : Nat) (s : State) : Host.Outcome State Fault Refusal :=
  let s := s.start t
  let value := match sensor with
    | 0 => fld s.pwr.input 0 16
    | 1 => fld s.pwr.input 16 16
    | 2 => fld s.pwr.coolant 0 8
    | 3 => fld s.pwr.coolant 8 8
    | 4 => fld s.pwr.coolant 16 16
    | 5 => (s.dom s.hottest).junction
    | _ => s.levelNow
  if 6 < sensor then .next (s.reply 2 [])
  else if sensor < 6 ∧ !s.gen.conv then .next (s.reply 0 [1])
  else .next (s.reply 0 [0, value])

end Sys2Proof.Machine
end

