-- ==== Sys2Proof/Machine/Startup.lean ====
section
/-! DEFINITION. Start-up from the auxiliary supply to READY (R27, R123, R324, R392, R393, R402, R404, R451, R452, R458,
R461 to R466). -/

namespace Sys2Proof.Machine

open Sys2Proof

/-- POWER_UP: the always-on island powers up; the count stands at 0 until the tick loop locks. -/
def execPowerUp (addr : BitVec 3) (s : State) : Host.Outcome State Fault Refusal :=
  let s := { s with out := [] }
  if s.gen.aux then .next s
  else .next { s with cc := CcBlk.init, gen := { s.gen with aux := true, addr := addr, phase := 0 } }

/-- MAIN_CONVERSION_START: P3V3_AUX has been good for 20 ms and P48V is above 40 V; the count runs by then. WAKE# ends
with the return of main power (R364, R451, R458). -/
def execMainConversionStart (t : Nat) (s : State) : Host.Outcome State Fault Refusal :=
  let s := s.start t
  if !s.gen.aux ∨ !s.cc.running ∨ s.gen.conv then .next s
  else .next { s with gen := { s.gen with conv := true, wake := false }, pwr := { s.pwr with main := true } }

/-- Ports whose PERST# is high train once PWR_GOOD is high (R454). -/
def State.trainPorts (s : State) : State :=
  (List.range 8).foldl (fun s p => s.modHport p fun h => { h with
    training := !h.perst && s.portLive p && h.rate == 0 && (!s.sec.recovery || p == 0) }) s

/-- PWR_GOOD: the rails are good, unless a reset is held. -/
def execPwrGood (t : Nat) (s : State) : Host.Outcome State Fault Refusal :=
  let s := s.start t
  if !s.powered ∨ s.gen.modRst ∨ s.gen.pwrGood then .next s
  else
    let s := { s with
      gen := { s.gen with pwrGood := true, pwrGoodCc := s.now, phase := 1 }
      pwr := { s.pwr with powerOnSince := some s.now } }
    .next s.trainPorts

/-! ### The boot ROM (R392, R393, R402 to R404) -/

/-- TAM_ID of a record: the lower expander ID leads (R382, R389). -/
def tamIdOf (b : Bytes) : Reg32 :=
  let id := leAt b 32 1
  let paired := leAt b 33 1 % 2 == 1
  let mate := leAt b 34 1
  BitVec.ofNat 32 (id + atB 8 paired + atB 9 (paired && decide (id < mate)) + at_ 16 8 mate)

/-- The record accepted since the last reset is in force; without one R404 applies. -/
def State.loadRecord (s : State) : State :=
  let b := if s.sec.nextRecord.isEmpty then s.sec.record else s.sec.nextRecord
  let s := { s with sec := { s.sec with record := b, nextRecord := [], cfgValid := !b.isEmpty } }
  if b.isEmpty then s
  else
    { s with
      sec := { s.sec with cfgSeq := BitVec.ofNat 64 (leAt b 24 8) }
      ep := { s.ep with portMode := BitVec.ofNat 32 (leAt b 36 2) }
      tam := { s.tam with id := tamIdOf b } }

/-- Recovery state: only H0 trains, the management function alone is exposed, and no plan is computed (R393, R463). -/
def State.toRecovery (s : State) (why : Nat) : State :=
  let s := { s with
    sec := { s.sec with recovery := true, rcvStatus := why }
    gen := { s.gen with phase := 2 }
    ep := { s.ep with ports := s.ep.ports.map fun (p, h) =>
      (p, if p = 0 then h else { h with rate := 0, width := 0, training := false }) } }
  s.trainPorts

/-- A staged candidate is verified: it becomes the image, or is erased and FW_REJECTED set. -/
def State.takeCandidate (s : State) : State :=
  let b := s.sec.candidate
  if b.isEmpty then s
  else if verifyImage s.sec.svn.toNat b = 0 then
    { s with sec := { s.sec with image := b, candidate := [], svn := BitVec.ofNat 32 (imageSvn b) } }
  else { s with sec := { s.sec with candidate := [], fwRejected := true } }

/-- The firmware starts: DRAM_TRAINING (R461, R464), with the posts that R419 and R425 leave to start-up. -/
def State.startFirmware (s : State) : State :=
  let s := { s with
    gen := { s.gen with phase := 3 }
    pwr := { s.pwr with startups := s.pwr.startups + 1 } }
  let s := { s with sec := { s.sec with device := s.deviceHead } }
  let s := s.trainPorts
  let s := (List.range 8).foldl (fun s p => (s.portLds p).foldl (fun s l =>
    s.modLd (ldKey p l) fun d => { d with memInfo := true }) s) s
  let s := if s.pwr.tripped then s.fault0 7 0x82 s.hottest else s
  if s.pwr.calLost then s.fault0 7 0x86 0 else s

/-- BOOT_ROM: the steps of R392; the first failure ends in recovery state. -/
def execBootRom (t : Nat) (puf : Bool) (s : State) : Host.Outcome State Fault Refusal :=
  let s := s.start t
  if s.gen.phase != 1 ∨ !s.gen.pwrGood then .next s
  else
    let s := s.loadRecord
    if !puf then .next (s.toRecovery 6)
    else
      let s := { s with sec := { s.sec with pufOk := true } }
      let s := s.takeCandidate
      let why := verifyImage s.sec.svn.toNat s.sec.image
      let s := { s with sec := { s.sec with fwVersion := BitVec.ofNat 32 (imageVersion s.sec.image) } }
      .next (if why != 0 then s.toRecovery why else s.startFirmware)

/-! ### DRAM_TRAINING, RESTORE and MEASURE -/

/-- DRAM_TRAINING_DONE: a channel that fails goes to the limp step; limp or lost, it is retired without evacuation, and
the life record holds it (R123). -/
def execDramTrainingDone (t : Nat) (failed limpFailed : List Nat) (s : State) : Host.Outcome State Fault Refusal :=
  let s := s.start t
  if s.gen.phase != 3 then .next s
  else
    let s := failed.foldl (fun s c =>
      if s.drm.retired.contains c ∨ 72 ≤ c then s
      else
        let lost := limpFailed.contains c
        ((s.retireChannel c (if lost then 0x12 else 0x11)).modChan c fun x => { x with
          st := if lost then 5 else 4, sweep := 4, todo := [], lastChange := s.now }).recordChannel c) s
    .next { s with gen := { s.gen with phase := 4 } }

/-- The map journal is replayed: the map pages of its switches are programmed (R139, R461). -/
def State.replayJournal (s : State) : State :=
  let pages := (s.fls.journal.map fun ((e, p) : Nat × Nat) => (e, p / 1024)).eraseDups
  ({ s with fls := { s.fls with journal := [] } }).countInternal (Config.systemBytes 1 * pages.length)

/-- Slot keys and extent nonces are unwrapped from the copies in the system area; a slot whose copy is gone is EMPTY
(R324, R396). -/
def State.unwrapKeys (s : State) : State :=
  { s with
    sec := { s.sec with slots := s.sec.slots.map fun ((k, x) : Nat × KeySlot) =>
      (k, match (sfind s.sec.wrapped k).bind unwrapKey with
        | some key => { x with key := key }
        | none => { x with key := 0, loaded := false }) }
    ext := { s.ext with tbl := s.ext.tbl.map fun ((e, x) : Nat × Extent) =>
      (e, { x with nonce := ((sfind s.sec.nonces e).bind unwrapKey).getD 0 }) } }

/-- RESTORE_DONE: journalled erases are complete, the map journal is replayed, keys and nonces are unwrapped, and every
page of a PINNED extent has a wipe-pending frame (R299, R324, R396, R409). Selected values of the system area and the life record are read (R470). -/
def execRestoreDone (t : Nat) (s : State) : Host.Outcome State Fault Refusal :=
  let s := s.start t
  if s.gen.phase != 4 then .next s
  else
    let s := { s with
      sec := { s.sec with erasePending := false, slotAssign := (s.slot (fld s.sec.slotSel 0 8)).assign }
      pwr := { s.pwr with ageStatus := (s.dom (fld s.pwr.ageSel 0 6)).ageWord } }
    let s := s.replayJournal.unwrapKeys
    let s := s.ext.tbl.foldl (fun s (e, x) => s.pinPages e x noEnv) s
    .next { s with gen := { s.gen with phase := 5 } }

/-- Every extent is offered to its holders as at its GRANT (R64, R464). -/
def State.offerAll (s : State) : State :=
  s.ext.tbl.foldl (fun s (e, x) => x.holders.foldl (fun s n => s.offer n e x.base x.size) s) s

/-- READY: the first plan is in force, and LS_BUDGETs beyond its allowance are cut (R226); Memory_Active, Add Capacity, map loading, wiping and the first scrub pass
(R47, R304, R460, R461, R464, R466). -/
def execReady (t : Nat) (meas : PlanInput) (s : State) : Host.Outcome State Fault Refusal :=
  let s := s.start t
  if s.gen.phase != 5 then .next s
  else
    let level := s.plan.heldLevel.getD s.pwr.level
    let s := { s with plan := { s.plan with meas := meas, heldLevel := none } }
    let s := s.setpoints ((List.range 64).filter s.domainOn) fun x v => Nat.max v (levelFloor level + x.raise)
    let p := s.compute { Plan.none with
      level := level, lsShare := fld s.col.ctrl 0 10, miss := fld s.mxe.ctrl 0 5, stages := s.plan.cur.stages }
    let (v, s) := s.newVersion 6 s.now
    let s := (s.inForce { p with ver := v, cause := 6, effective := s.now }).applyCuts false
    let lds : Sparse Ld := s.ep.lds.map fun ((k, d) : Nat × Ld) => (k, { d with memActive := d.memInfo })
    let s := { s with
      gen := { s.gen with phase := 6, readyCc := s.now }
      fls := { s.fls with mapLoading := true }
      ep := { s.ep with lds := lds } }
    .next ((s.offerAll.sendRates s.plan.cur).startPass)

/-- STARTUP_LATE: a phase has overrun its count (R462). -/
def execStartupLate (t : Nat) (s : State) : Host.Outcome State Fault Refusal :=
  let s := s.start t
  let bound : Option Nat := match s.gen.phase with
    | 1 => some 800000000
    | 3 => some 2000000000
    | 4 => some 8000000000
    | 5 => some 16000000000
    | _ => none
  match bound with
  | some b =>
    .next (if s.gen.pwrGood ∧ s.gen.pwrGoodCc + b < s.now then { s with gen := { s.gen with late := true } } else s)
  | none => .next s

/-- Map pages of charged extents, 1,024 entries each, in ascending extent number and page order (R61, R130, R466). -/
def State.mapPages (s : State) : List (Nat × Nat) :=
  let charged := s.ext.tbl.filter fun ((_, x) : Nat × Extent) => !(x.tier == 0 || x.composite)
  (sortBy (fun (a b : Nat × Extent) => decide (a.1 < b.1)) charged).flatMap fun (e, x) =>
    (List.range (ceilDiv x.pages 1024)).map fun k => (e, k)

/-- A map page is loaded into the cache unless that is full. -/
def State.loadMap (s : State) (k : Nat × Nat) : State :=
  if s.fls.mapCache.contains k ∨ mapCachePages ≤ s.fls.mapCache.length then s
  else { s with fls := { s.fls with mapCache := s.fls.mapCache ++ [k] } }

/-- MAP_LOADING: the next map pages are loaded, until all are or the cache is full (R466). -/
def execMapLoading (t pages : Nat) (s : State) : Host.Outcome State Fault Refusal :=
  let s := s.start t
  if !s.fls.mapLoading then .next s
  else
    let all := s.mapPages
    let s := ((all.drop s.fls.mapCached).take pages).foldl (fun s k => s.loadMap k) s
    let n := Nat.min all.length (s.fls.mapCached + pages)
    .next { s with fls := { s.fls with
      mapCached := n, mapLoading := decide (n < all.length) && decide (s.fls.mapCache.length < mapCachePages) } }

end Sys2Proof.Machine
end

