-- ==== Sys2Proof/Machine/Perturb.lean ====
section
/-! DEFINITION. The PRT block: closing test mode, delays and throttles, and injections (R428 to R438). Every write
arrives through management BAR0. -/

namespace Sys2Proof.Machine

open Sys2Proof

/-- One step of the attestation trace: an accepted setting write at a block offset (R429). -/
def State.trace (s : State) (off v : Nat) : State :=
  { s with prt := { s.prt with
    digest := Config.sha384 (leBytes 48 s.prt.digest.toNat ++ leBytes 8 s.now ++ leBytes 4 off ++ leBytes 8 v)
    changes := s.prt.changes + 1 } }

/-- A write to a setting register: ignored with SET_ERR while test mode is closed or when a field is out of range;
otherwise traced, with its effect (R429, R431). -/
def State.setting (s : State) (off v : Nat) (ok : Bool) (f : State → State) : State :=
  if s.prt.isOpen && ok then f (s.trace off v) else s.prtErr

/-! ### Closing (R430) -/

/-- A change of PRT_STAGE entries goes into a plan with cause MANAGEMENT (R433). -/
def State.stagePlan (s : State) : State :=
  s.issueLive 4 fun b => { b with stages := s.prt.stage.map fun (i, v) => (i, v.toNat) }

/-- Test mode closes (R430). -/
def State.closeTest (s : State) : State :=
  let stages := !s.prt.stage.isEmpty
  let s := { s with
    prt := { s.prt with
      isOpen := false, digest := 0, gate := [], stage := [], symLine := 0, symCtrl := 0, armed := [] }
    ep := { s.ep with ports := s.ep.ports.map fun ((k, p) : Nat × HostPort) => (k, { p with corrupt := 0 }) }
    tam := { s.tam with ports := s.tam.ports.map fun ((k, p) : Nat × TamPort) => (k, { p with corrupt := 0 }) } }
  if stages then s.stagePlan else s

/-- A write of PRT_CTRL. -/
def State.prtCtrl (s : State) (v : Reg32) : State := if bitOf v 1 && s.prt.isOpen then s.closeTest else s

/-- TEST_CLOSE: a write of CLOSE to PRT_CTRL. -/
def execTestClose (t : Nat) (v : Reg32) (s : State) : Host.Outcome State Fault Refusal :=
  .next ((s.start t).viaBar 0 0x160000 fun s => s.prtCtrl (setBit v 1 true))

/-! ### Delays and throttles (R432, R433) -/

/-- A write of PRT_GATE_DELAY of a lane (R432). -/
def State.gateDelay (s : State) (lane : Nat) (v : Reg32) : State :=
  s.setting (0x40 + 4 * lane) v.toNat true fun s =>
    { s with prt := { s.prt with gate := sput 0 s.prt.gate lane (v &&& 0xFFFF) } }

/-- PRT_GATE_DELAY. -/
def execPrtGateDelay (t lane : Nat) (v : Reg32) (s : State) : Host.Outcome State Fault Refusal :=
  let s := s.start t
  if 12 ≤ lane then .next s
  else .next (s.viaBar 0 (0x160040 + 4 * lane) fun s => s.gateDelay lane v)

/-- The points that a PRT_STAGE entry may name (R433). -/
def stagePoint (p : Nat) : Bool :=
  p == 0 || (decide (2 ≤ p) && decide (p ≤ 8)) || (decide (0x10 ≤ p) && decide (p ≤ 0x15))

/-- A write of entry `i` of PRT_STAGE; in a pair with one plan a write is ignored (R433, R441). -/
def State.stageEntry (s : State) (i : Nat) (v : Reg32) : State :=
  let p := fld v 0 8
  let twice := p != 0 && s.prt.stage.any fun (j, w) => j != i && fld w 0 8 == p
  s.setting (0x80 + 4 * i) v.toNat (stagePoint p && !twice && !s.onePlan) fun s =>
    let new := v &&& 0xFFFFF
    if new = sget 0 s.prt.stage i then s
    else ({ s with prt := { s.prt with stage := sput 0 s.prt.stage i new } }).stagePlan

/-- PRT_STAGE. -/
def execPrtStage (t i : Nat) (v : Reg32) (s : State) : Host.Outcome State Fault Refusal :=
  let s := s.start t
  if 32 ≤ i then .next s
  else .next (s.viaBar 0 (0x160080 + 4 * i) fun s => s.stageEntry i v)

/-! ### Injections (R434 to R437) -/

/-- A forced escalation begins at a sweep: counted, but not toward R120 (R435). -/
def State.forceSweep (s : State) (ch sweep : Nat) : State :=
  if (s.chan ch).st != 0 then s
  else s.modChan ch fun c => { c with
    st := 1, sweep := sweep, slices := 0, escalations := satAdd 16 c.escalations 1, lastChange := s.now }

/-- A write of PRT_RETRAIN (R435). -/
def State.retrain (s : State) (v : Reg32) : State :=
  let ch := fld v 0 7
  s.setting 0x100 v.toNat (decide (ch < 72)) fun s =>
    if fld v 8 2 = 0 then { s with prt := { s.prt with pauses := s.prt.pauses ++ [ch] } }
    else s.forceSweep ch (fld v 8 2)

/-- PRT_RETRAIN. -/
def execPrtRetrain (t : Nat) (v : Reg32) (s : State) : Host.Outcome State Fault Refusal :=
  .next ((s.start t).viaBar 0 0x160100 fun s => s.retrain v)

/-- An arm of PRT_SYM_CTRL takes effect on its line, unless the frame is FREE (R434, R437). -/
def State.inject (s : State) (line : Nat) (v : Reg32) : State :=
  let f := line / 1024
  let a : Armed := { kind := 0, line := line, first := fld v 8 7, count := fld v 0 4, hash := bitOf v 4 }
  match s.frame f with
  | none => s
  | some fr =>
    if bitOf v 5 then
      let l := line % 1024
      let s := s.setFrame f { fr with errs := sput [] fr.errs l (addErrs (sget [] fr.errs l) a.errs) }
      s.injected [a]
    else { s with prt := { s.prt with armed := s.prt.armed ++ [a] } }

/-- A write of PRT_SYM_CTRL: with ARM a setting write, without it the fields only (R429, R434). -/
def State.symCtrl (s : State) (v : Reg32) : State :=
  let ok := decide (fld v 0 4 ≤ 8) && decide (fld v 8 7 ≤ 71)
  let store (s : State) : State := { s with prt := { s.prt with symCtrl := v &&& 0x7F3F } }
  if bitOf v 6 then
    s.setting 0x10C v.toNat (ok && !(bitOf v 4 && bitOf v 5)) fun s =>
      (store s).inject s.prt.symLine.toNat v
  else if ok then store s else s.prtErr

/-- SYMBOL_INJECT: a write of ARM to PRT_SYM_CTRL. -/
def execSymbolInject (t : Nat) (v : Reg32) (s : State) : Host.Outcome State Fault Refusal :=
  .next ((s.start t).viaBar 0 0x16010C fun s => s.symCtrl (setBit v 6 true))

/-- A write of PRT_LINK: each corrupted flit is a link retry, at once on a link that is up (R310, R369, R436). -/
def State.corruptLink (s : State) (v : Reg32) : State :=
  let p := fld v 0 4
  let n := fld v 8 8
  s.setting 0x110 v.toNat (decide (p < 12) && decide (0 < n)) fun s =>
    if p < 8 then s.modHport p fun h =>
      if h.rate = 0 then { h with corrupt := h.corrupt + n }
      else { h with replays := (h.replays + n) % 2 ^ 32 }
    else s.modTport (p - 8) fun h =>
      if h.up then { h with replays := satAdd 16 h.replays n } else { h with corrupt := h.corrupt + n }

/-- PRT_LINK. -/
def execPrtLink (t : Nat) (v : Reg32) (s : State) : Host.Outcome State Fault Refusal :=
  .next ((s.start t).viaBar 0 0x160110 fun s => s.corruptLink v)

/-- A write of PRT_CODEC (R437). -/
def State.corruptLength (s : State) (v : Reg64) : State :=
  let f := fld v 0 21
  let b := fld v 24 6
  let d := fld v 32 4
  s.setting 0x118 v.toNat (d != 0) fun s =>
    let a : Armed := { kind := 1, line := f, first := b, count := d, hash := false }
    match s.frame f with
    | none => s
    | some fr =>
      if bitOf v 40 then
        (s.setFrame f { fr with lens := sput 0 fr.lens b (sget 0 fr.lens b ^^^ d) }).injected [a]
      else { s with prt := { s.prt with armed := s.prt.armed ++ [a] } }

/-- PRT_CODEC. -/
def execPrtCodec (t : Nat) (v : Reg64) (s : State) : Host.Outcome State Fault Refusal :=
  .next ((s.start t).viaBar 0 0x160118 fun s => (s.wrote64 0x160118 true v).corruptLength v)

end Sys2Proof.Machine
end

