-- ==== Sys2Proof/Machine/Selectors.lean ====
section
/-! DEFINITION. The selector registers: a write selects, and takes the snapshot of what it selects at the write's stamp
(R86, R106, R126, R151, R175, R200, R219, R237, R306, R367, R389, R412, R426, R427, R472). Every one arrives through
management BAR0. -/

namespace Sys2Proof.Machine

open Sys2Proof

/-! ### Directory and versions (R86, R106) -/

/-- PAGE_TAG of a frame: where the page stands from its extent's base; bit 31 marks a tag-area page (R86, R410). -/
def State.pageTag (s : State) (f : Frame) : Nat :=
  match s.extent f.ext with
  | some x => (x.base / pageBytes + f.page) % 2 ^ 31 + atB 31 (x.sealed && decide (x.size ≤ f.page * pageBytes))
  | none => f.page % 2 ^ 31

/-- AGE: how many frames of the set were used later (the order of the ranks is the model's, assumption 50). -/
def State.ageRank (s : State) (f : Frame) : Nat :=
  ((s.setFrames f.dirSet).filter fun (_, g) => decide (f.used < g.used)).length

/-- The 128 bits of directory entry `e`; a FREE one reads 0. -/
def State.entryWord (s : State) (e : Nat) : BitVec 128 :=
  match s.dir.frames.find? fun (_, f) => f.entry == e with
  | none => 0
  | some (n, f) => BitVec.ofNat 128 (s.pageTag f + at_ 32 21 n + at_ 53 4 f.st + at_ 57 2 f.hint + atB 59 f.dirty +
      at_ 64 32 f.ver + at_ 96 6 f.writer + at_ 102 16 (s.ageRank f))

/-- A write of DIR_ENTRY_SEL. -/
def State.selectEntry (s : State) (v : Reg32) : State :=
  let v := v &&& 0x1FFFFF
  { s with dir := { s.dir with sel := v, entry := s.entryWord v.toNat } }

/-- DIR_ENTRY_SEL. -/
def execDirEntrySel (t : Nat) (v : Reg32) (s : State) : Host.Outcome State Fault Refusal :=
  .next ((s.start t).viaBar 0 0x50020 fun s => s.selectEntry v)

/-- PUB_EXTENT of an extent. -/
def Extent.versionWord (x : Extent) : Reg64 :=
  let cur := if x.versioned then x.ver else 0
  BitVec.ofNat 64 (cur + at_ 32 32 (if x.pubs.isEmpty then cur else x.pending))

/-- PUB_VIEW of an allotment. -/
def State.viewWord (s : State) (e a : Nat) (x : Extent) : Reg64 :=
  match x.view a with
  | none => 0
  | some w => BitVec.ofNat 64 (at_ 0 32 w.ver + at_ 32 17 (s.shadowSet e w.set).length + atB 49 w.spoiled)

/-- A write of PUB_SEL. -/
def State.selectVersion (s : State) (v : Reg32) : State :=
  let v := v &&& 0x3FFFFF
  let e := fld v 0 16
  let (a, b, c) : Reg64 × Reg64 × Reg32 := match s.extent e with
    | none => (0, 0, 0)
    | some x => (x.versionWord, s.viewWord e (fld v 16 6) x,
        if x.versioned then BitVec.ofNat 32 (s.oldestHeld e x) else 0)
  { s with ext := { s.ext with sel := v, extent := a, view := b, oldest := c } }

/-- PUB_SEL. -/
def execPubSel (t : Nat) (v : Reg32) (s : State) : Host.Outcome State Fault Refusal :=
  .next ((s.start t).viaBar 0 0x6000C fun s => s.selectVersion v)

/-! ### Codecs (R175) -/

/-- Stored blocks among lines and their lengths: how many, and their lines in all. -/
def storedBlocks (lines : Sparse Cell) (lens : Sparse Nat) : Nat × Nat :=
  let bs := ((lines.filter fun (_, c) => match c with | .marker 1 _ => false | _ => true).map fun (l, _) => l / 16).eraseDups
  (bs.length, sumN (bs.map fun b => sget 0 lens b + 1))

/-- COD_EXT_BLOCKS and COD_EXT_LINES: the blocks of an EXP extent's current page images; a page that is being filled has
its flash image. -/
def State.blockCounts (s : State) (e : Nat) (x : Extent) : Nat × Nat :=
  if x.codec != 1 then (0, 0)
  else
    let inFrames : List Nat := (s.dir.frames.filter fun (_, f) => f.ext == e).map fun (_, f) => f.page
    let inFlash : List Nat := (s.fls.images.filter fun i => i.ext == e).map fun i => i.page
    let pages := (inFrames ++ inFlash).eraseDups
    pages.foldl (fun (acc : Nat × Nat) p =>
      let (b, l) := match s.locate e p x.ver with
        | .frame n => (match s.frame n with
          | some f =>
            if f.st = 3 then (match s.source e p x.ver with | some i => storedBlocks i.lines i.lens | none => (0, 0))
            else storedBlocks f.lines f.lens
          | none => (0, 0))
        | .image k => (match s.fls.images[k]? with | some i => storedBlocks i.lines i.lens | none => (0, 0))
        | .empty => (0, 0)
      (acc.1 + b, acc.2 + l)) (0, 0)

/-- COD_EXT_TABLE of an extent. -/
def Extent.tableWord (x : Extent) : Reg32 :=
  BitVec.ofNat 32 (at_ 0 10 x.slot + atB 16 x.written.isSome + atB 17 (x.codec == 1))

/-- A write of COD_EXT_SEL. -/
def State.selectTable (s : State) (v : Reg32) : State :=
  let v := v &&& 0xFFFF
  let (w, b, l) : Reg32 × Nat × Nat := match s.extent v.toNat with
    | some x => (x.tableWord, s.blockCounts v.toNat x)
    | none => (0, 0, 0)
  { s with cod := { s.cod with
    extSel := v, extTable := w, extBlocks := BitVec.ofNat 64 b, extLines := BitVec.ofNat 64 l } }

/-- COD_EXT_SEL. -/
def execCodExtSel (t : Nat) (v : Reg32) (s : State) : Host.Outcome State Fault Refusal :=
  .next ((s.start t).viaBar 0 0x700C0 fun s => s.selectTable v)

/-! ### Engines and cores (R190, R200, R202, R219) -/

/-- MXE_ENG_STATUS of an engine. -/
def State.engineWord (s : State) (e : Nat) : Reg64 :=
  let active := (roleHolders s.mxe.retired s.mxe.boot).contains (some e)
  let st := if s.mxe.retired.contains e then 2 else if active then 0 else 1
  BitVec.ofNat 64 (at_ 0 2 st + atB 2 (st == 0 && (s.missEngineList s.plan.cur.miss).contains e) +
    at_ 16 16 (sget 0 s.mxe.errors e) + at_ 32 32 (sget 0 s.mxe.jobsDone e))

/-- A write of MXE_ENG_SEL; a value above 35 is ignored. -/
def State.selectEngine (s : State) (v : Reg32) : State :=
  let v := v &&& 0x3F
  if 35 < v.toNat then s else { s with mxe := { s.mxe with engSel := v, engStatus := s.engineWord v.toNat } }

/-- MXE_ENG_SEL. -/
def execMxeEngSel (t : Nat) (v : Reg32) (s : State) : Host.Outcome State Fault Refusal :=
  .next ((s.start t).viaBar 0 0x80030 fun s => s.selectEngine v)

/-- MXE_COMP_TILES of an extent: the entries that it uses, those with the newest tag of their tile and older ones
(R187, R188, R200). -/
def State.tilesWord (s : State) (e : Nat) : Reg64 :=
  match s.extent e with
  | none => 0
  | some x =>
    if !x.composite then 0
    else
      let l := s.dir.frames.filter fun (_, f) => f.st == 7 && (f.ext == e ||
        (match s.extent f.ext with | some y => x.sharesTiles y | none => false))
      let new := (l.filter fun (n, f) => s.newestEntry e x f.page == some n).length
      BitVec.ofNat 64 (at_ 0 32 new + at_ 32 32 (l.length - new))

/-- A write of MXE_COMP_SEL. -/
def State.selectComposite (s : State) (v : Reg32) : State :=
  let v := v &&& 0xFFFF
  { s with mxe := { s.mxe with compSel := v, compTiles := s.tilesWord v.toNat } }

/-- MXE_COMP_SEL. -/
def execMxeCompSel (t : Nat) (v : Reg32) (s : State) : Host.Outcome State Fault Refusal :=
  .next ((s.start t).viaBar 0 0x80040 fun s => s.selectComposite v)

/-- SPR_CORE_STATUS of a physical core: plot × 132 + position; logical core is its sliver number. -/
def State.coreWord (s : State) (c : Nat) : Reg64 :=
  let plot := c / 132
  let hold := s.holders plot
  let i := hold.findIdx fun h => h == some (c % 132)
  let (st, lg) := if s.spr.retired.contains c then (2, 0) else if i < hold.length then (0, 32 * i + plot) else (1, 0)
  BitVec.ofNat 64 (at_ 0 2 st + at_ 16 12 lg + at_ 32 16 (Nat.min 65535 (sget 0 s.spr.errors c)))

/-- A write of SPR_CORE_SEL; a value above 4,223 is ignored. -/
def State.selectCore (s : State) (v : Reg32) : State :=
  let v := v &&& 0x1FFF
  if 4223 < v.toNat then s else { s with spr := { s.spr with coreSel := v, coreStatus := s.coreWord v.toNat } }

/-- SPR_CORE_SEL. -/
def execSprCoreSel (t : Nat) (v : Reg32) (s : State) : Host.Outcome State Fault Refusal :=
  .next ((s.start t).viaBar 0 0x90020 fun s => s.selectCore v)

/-! ### Reservations, channels and dies (R126, R151, R237, R306) -/

/-- A write of COL_RES_SEL. -/
def State.selectReservation (s : State) (v : Reg32) : State :=
  let v := v &&& 0xF3F
  let (r, h) : List Nat × List Count := match s.reservation (fld v 0 6) (fld v 8 4) with
    | some r => (r.rates, r.horizons)
    | none => (List.replicate 9 0, List.replicate 9 0)
  { s with col := { s.col with resSel := v, resRate := r, resHorizon := h } }

/-- COL_RES_SEL. -/
def execColResSel (t : Nat) (v : Reg32) (s : State) : Host.Outcome State Fault Refusal :=
  .next ((s.start t).viaBar 0 0x20200 fun s => s.selectReservation v)

/-- A write of DRM_CH_SEL; a value above 71 is ignored. -/
def State.selectChannel (s : State) (v : Reg32) : State :=
  let v := v &&& 0x7F
  if 71 < v.toNat then s
  else
    let c := s.chan v.toNat
    { s with drm := { s.drm with
      chSel := v
      chStatus := BitVec.ofNat 64 (at_ 0 3 c.st + at_ 3 3 c.sweep + at_ 6 4 (Nat.min 8 c.owed) + atB 10 c.hot + at_ 16 8 c.margin +
        at_ 32 16 c.escalations)
      chCounts := BitVec.ofNat 64 (at_ 0 32 c.retrains + at_ 32 16 c.linkRetries + at_ 48 16 c.forced)
      chLast := BitVec.ofNat 64 c.lastChange } }

/-- DRM_CH_SEL. -/
def execDrmChSel (t : Nat) (v : Reg32) (s : State) : Host.Outcome State Fault Refusal :=
  .next ((s.start t).viaBar 0 0xC0010 fun s => s.selectChannel v)

/-- A write of FLS_DIE_SEL. PE_MEAN is a free value (assumption 24). -/
def State.selectDie (s : State) (v : Reg32) : State :=
  let v := v &&& 0x1FF
  let d := s.die v.toNat
  let (w, s) := s.fresh
  { s with fls := { s.fls with
    dieSel := v
    dieStatus := BitVec.ofNat 64 (at_ 0 2 d.st + at_ 16 16 d.badBlocks + at_ 32 16 (fld w 0 16) + at_ 48 16 d.recon) } }

/-- FLS_DIE_SEL. -/
def execFlsDieSel (t : Nat) (v : Reg32) (s : State) : Host.Outcome State Fault Refusal :=
  .next ((s.start t).viaBar 0 0xD0040 fun s => s.selectDie v)

/-- A write of INT_CH_SEL; a value above 71 is ignored. -/
def State.selectBucket (s : State) (v : Reg32) : State :=
  let v := v &&& 0x7F
  if 71 < v.toNat then s
  else
    let c := s.chan v.toNat
    { s with int := { s.int with
      chSel := v, chBucket := BitVec.ofNat 64 (at_ 0 16 c.bucket + at_ 32 16 c.overflows + at_ 48 16 c.hard) } }

/-- INT_CH_SEL. -/
def execIntChSel (t : Nat) (v : Reg32) (s : State) : Host.Outcome State Fault Refusal :=
  .next ((s.start t).viaBar 0 0xE0048 fun s => s.selectBucket v)

/-! ### Ports and logical devices (R367, R389) -/

/-- EP_PORT_STATUS of a host port. -/
def HostPort.word (h : HostPort) : Reg64 :=
  BitVec.ofNat 64 (atB 0 (h.rate != 0) + at_ 1 2 h.rate + at_ 3 5 h.width + atB 8 (h.ide.contains 0) +
    atB 9 (h.ide.contains 1) + sumN ((List.range 8).map fun i => atB (10 + i) (h.ide.contains (2 + i))) +
    at_ 32 32 h.replays)

/-- A write of EP_PORT_SEL. -/
def State.selectPort (s : State) (v : Reg32) : State :=
  let v := v &&& 7
  { s with ep := { s.ep with portSel := v, portStatus := (s.hport v.toNat).word } }

/-- EP_PORT_SEL. -/
def execEpPortSel (t : Nat) (v : Reg32) (s : State) : Host.Outcome State Fault Refusal :=
  .next ((s.start t).viaBar 0 0x110010 fun s => s.selectPort v)

/-- EP_LD_STATUS of a logical device. -/
def State.ldWord (s : State) (k : Nat) : Reg64 :=
  let d := s.ld k
  BitVec.ofNat 64 (at_ 0 2 d.dstate + atB 2 d.bme + atB 3 d.mse + atB 4 d.memEn + atB 5 d.msix + atB 6 d.fmask +
    atB 7 d.intx + atB 8 d.hdmDb + atB 9 d.pme + atB 10 (d.aperture != s.wantAperture k) + at_ 16 6 d.aperture)

/-- A write of EP_LD_SEL. -/
def State.selectLd (s : State) (v : Reg32) : State :=
  let v := v &&& 0xF7
  let k := ldKey (fld v 0 3) (fld v 4 4)
  let n := (s.ld k).devload
  { s with ep := { s.ep with
    ldSel := v, ldStatus := s.ldWord k
    devload := BitVec.ofNat 64 (sumN ((List.range 4).map fun i => at_ (16 * i) 16 (nth n i))) } }

/-- EP_LD_SEL. -/
def execEpLdSel (t : Nat) (v : Reg32) (s : State) : Host.Outcome State Fault Refusal :=
  .next ((s.start t).viaBar 0 0x110020 fun s => s.selectLd v)

/-- TAM_PORT_STATUS of a Tamian port. -/
def TamPort.word (p : TamPort) : Reg64 :=
  BitVec.ofNat 64 (atB 0 p.up + at_ 1 2 p.width + atB 3 p.up + atB 4 p.retired + at_ 16 8 p.peer + at_ 32 16 p.retrains +
    at_ 48 16 p.replays)

/-- A write of TAM_PORT_SEL. -/
def State.selectTam (s : State) (v : Reg32) : State :=
  let v := v &&& 3
  { s with tam := { s.tam with portSel := v, portStatus := (s.tport v.toNat).word } }

/-- TAM_PORT_SEL. -/
def execTamPortSel (t : Nat) (v : Reg32) (s : State) : Host.Outcome State Fault Refusal :=
  .next ((s.start t).viaBar 0 0x120010 fun s => s.selectTam v)

/-! ### Key slots and domains (R412, R426, R427) -/

/-- A write of SEC_SLOT_SEL. -/
def State.selectSlot (s : State) (v : Reg32) : State :=
  let v := v &&& 0xFF
  let k := s.slot v.toNat
  { s with sec := { s.sec with
    slotSel := v, slotAssign := k.assign
    slotStatus := BitVec.ofNat 32 (atB 0 k.loaded + at_ 16 16 (Nat.min 65535 (s.slotBound v.toNat))) } }

/-- SEC_SLOT_SEL. -/
def execSecSlotSel (t : Nat) (v : Reg32) (s : State) : Host.Outcome State Fault Refusal :=
  .next ((s.start t).viaBar 0 0x130020 fun s => s.selectSlot v)

/-- A write of PWR_DOM_SEL. -/
def State.selectPower (s : State) (v : Reg32) : State :=
  let v := v &&& 0x3F
  let d := s.dom v.toNat
  { s with pwr := { s.pwr with
    domSel := v
    domStatus := BitVec.ofNat 64 (at_ 0 2 (if s.domainOn v.toNat then 1 else 0) + at_ 16 10 d.setpoint +
      at_ 32 8 d.junction + at_ 40 8 d.peak) } }

/-- PWR_DOM_SEL. -/
def execPwrDomSel (t : Nat) (v : Reg32) (s : State) : Host.Outcome State Fault Refusal :=
  .next ((s.start t).viaBar 0 0x140020 fun s => s.selectPower v)

/-- A write of AGE_DOM_SEL. -/
def State.selectAge (s : State) (v : Reg32) : State :=
  let v := v &&& 0x3F
  { s with pwr := { s.pwr with ageSel := v, ageStatus := (s.dom v.toNat).ageWord } }

/-- AGE_DOM_SEL. -/
def execAgeDomSel (t : Nat) (v : Reg32) (s : State) : Host.Outcome State Fault Refusal :=
  .next ((s.start t).viaBar 0 0x150008 fun s => s.selectAge v)

end Sys2Proof.Machine
end

