-- ==== Sys2Proof/Machine/Settings.lean ====
section
/-! DEFINITION. Registers whose write has conditions or effects of its own: bindings, windows, the working floor, code
tables, recipes, MISS engines, the load/store share, classes and budgets (R54 to R56, R73, R74, R77, R84, R85, R153 to
R156, R175, R190, R203, R204, R222, R226, R237, R351). -/

namespace Sys2Proof.Machine

open Sys2Proof

/-! ### Allotments and the aperture (R54 to R56, R84, R351) -/

/-- A logical device with Memory Space Enable 0 takes the BAR4 size that ALT_CTRL asks for (R351). -/
def State.sizeAperture (s : State) (k : Nat) : State :=
  let want := s.wantAperture k
  s.modLd k fun d => if d.mse then d else { d with aperture := want }

/-- Set BIND_ERR of an allotment. -/
def State.bindError (s : State) (n : Nat) : State := s.modAllot n fun a => { a with bindErr := true }

/-- An allotment owns an extent, is a member of one, or holds a queue (R56). -/
def State.inUse (s : State) (n : Nat) : Bool :=
  (s.ext.tbl.any fun (_, x) => x.owner == n || x.members.any fun (m, _) => m == n) ||
    s.queues.any fun (_, q) => q.assigned && q.allotment == n

/-- A write to ALT_BIND that R54 or R56 ignores. -/
def State.bindBad (s : State) (n : Nat) (v : Reg32) : Bool :=
  let a := s.allot n
  let port := fld v 0 3
  let ld := fld v 4 4
  let k := ldKey port ld
  ((List.range 64).any fun m => m != n && (s.allot m).enabled && (s.allot m).ldk == k) || k == 0 ||
    (a.enabled && k != a.ldk) || !(s.portLds port).contains ld || (a.enabled && !bitOf v 8 && s.inUse n)

/-- A write of ALT_BIND; allotment 0's is read-only (R55). -/
def State.altBind (s : State) (n : Nat) (v : Reg32) : State :=
  if n = 0 then s
  else if s.bindBad n v then s.bindError n
  else
    let s := s.modAllot n fun a => { a with
      bind := v &&& 0x1F7, state := if 2 ≤ a.state then a.state else if bitOf v 8 then 1 else 0 }
    s.sizeAperture (s.ldOf n)

/-- ALT_BIND (R54). -/
def execAltBind (t n : Nat) (v : Reg32) (s : State) : Host.Outcome State Fault Refusal :=
  let s := s.start t
  if 64 ≤ n then .next s else .next (s.viaBar 0 (0x30000 + 0x40 * n) fun s => s.altBind n v)

/-- A write of ALT_CTRL: 0, or a size from 2^21 to 2^40. -/
def State.altCtrl (s : State) (n : Nat) (v : Reg32) : State :=
  let x := fld v 0 6
  if x = 0 ∨ (21 ≤ x ∧ x ≤ 40) then
    (s.modAllot n fun a => { a with ctrl := BitVec.ofNat 32 x }).sizeAperture (s.ldOf n)
  else s

/-- ALT_CTRL (R84, R351). -/
def execAltCtrl (t n : Nat) (v : Reg32) (s : State) : Host.Outcome State Fault Refusal :=
  let s := s.start t
  if 64 ≤ n then .next s else .next (s.viaBar 0 (0x30008 + 0x40 * n) fun s => s.altCtrl n v)

/-! ### Windows (R73, R74, R85) -/

/-- An enabled window that a commit may not make live: outside the aperture, or not over one extent that the
allotment may reach. -/
def State.windowBad (s : State) (n : Nat) (w : Window) : Bool :=
  let ap := (s.ld (s.ldOf n)).aperture
  ap == 0 || decide (2 ^ ap < w.base + w.len) || match s.rangeExtent w.to w.len with
    | some (_, x) => x.rights n == 0 || x.isRevoked n s.now (w.to + w.len - 1 - x.base)
    | none => true

/-- The first window of a set that fails the checks of R74. -/
def State.firstBad (s : State) (n : Nat) (l : Sparse Window) : Option Nat :=
  let on := l.filter fun (_, w) => w.on
  (on.find? fun (i, w) => s.windowBad n w || on.any fun (j, u) =>
    j != i && decide (w.base < u.base + u.len) && decide (u.base < w.base + w.len)).map (·.1)

/-- A write of WIN_COMMIT: the shadow set becomes live at its count, or at the next one (R73, R74). -/
def State.winCommit (s : State) (by_ n off : Nat) (v : Reg64) : State :=
  let a := s.allot n
  if a.winPend.isSome then s.err by_ 0x05 3 off 0 0xFFFF 0xFFFF
  else match s.firstBad n a.shadow with
    | some i => s.setAllot n { a with winErr := true, winBad := i }
    | none => s.setAllot n { a with winPend := some (Nat.max (expand48 s.now (fld v 0 48)) (s.now + 1), a.shadow) }

/-- WIN_COMMIT. -/
def execWinCommit (t by_ n : Nat) (v : Reg64) (s : State) : Host.Outcome State Fault Refusal :=
  let s := s.start t
  if 64 ≤ n then .next s
  else .next (s.ownVia by_ n (0x48000 + 0x20 * n) 0x3200 fun s =>
    (s.wrote64 (0x48000 + 0x20 * n) true v).winCommit by_ n (seenAt by_ (0x48000 + 0x20 * n) 0x3200) v)

/-- WIN_COMMIT_COUNT_REACHED: the committed set is live. -/
def execWinCommitCountReached (t n : Nat) (s : State) : Host.Outcome State Fault Refusal :=
  let s := s.start t
  match (s.allot n).winPend with
  | some (c, w) =>
    .next (if c ≤ s.now then s.modAllot n fun a => { a with
        live := w, winLive := BitVec.ofNat 64 c, winPend := none, winDead := 0 }
      else s)
  | none => .next s

/-! ### The working floor (R77) -/

/-- A write of DIR_CTRL: a floor that leaves too little for the pinned frames is ignored. -/
def State.dirCtrl (s : State) (v : Reg32) : State :=
  let g := fld v 0 6
  if g < 4 ∨ 32 < g then s
  else
    let s' : State := { s with dir := { s.dir with ctrl := BitVec.ofNat 32 g } }
    if s'.pinnedLimit < s.pinnedLimit ∧ s'.pinnedLimit < s.pinnedHeld then s.dirBit 0 else s'

/-- DIR_CTRL. -/
def execDirCtrl (t : Nat) (v : Reg32) (s : State) : Host.Outcome State Fault Refusal :=
  .next ((s.start t).viaBar 0 0x50000 fun s => s.dirCtrl v)

/-! ### Code tables (R153, R154, R156, R175) -/

/-- Extents bound to a code-table slot, those of an admitted GRANT included (R156). -/
def State.tableBound (s : State) (k : Nat) : Nat :=
  (s.ext.tbl.filter fun (_, x) => x.codec == 1 && x.slot == k).length +
    (s.cmds.filter fun c => pkOp c.pkt == 0x50 && pk c.pkt 24 1 != 1 &&
      fld (appliedAttr (BitVec.ofNat 32 (pk c.pkt 28 4))) 2 3 == 1 && !c.aux.isEmpty && nth c.aux 5 == k).length

/-- The lengths of the load buffer form a prefix code. -/
def State.bufferOk (s : State) : Bool :=
  let ls := (s.cod.buf.map (·.2)).filter (· != 0)
  !ls.isEmpty && decide (sumN (ls.map fun n => 2 ^ (15 - n)) ≤ 2 ^ 15)

/-- A write of COD_TBL_CTRL: ELEM, and a LOAD of the selected slot (R154). -/
def State.tableCtrl (s : State) (v : Reg32) : State :=
  let s := { s with cod := { s.cod with elem := bitOf v 1 } }
  let k := fld s.cod.tblSel 0 10
  if !bitOf v 0 then s
  else if k < 2 ∨ s.tableBound k != 0 ∨ !s.bufferOk then s.codBit 1
  else ({ s with cod := { s.cod with slots := sins s.cod.slots k (s.cod.elem, s.cod.buf) } }).digestUpdate

/-- TABLE_LOAD: LOAD is written to COD_TBL_CTRL. -/
def execTableLoad (t : Nat) (v : Reg32) (s : State) : Host.Outcome State Fault Refusal :=
  .next ((s.start t).viaBar 0 0x70024 fun s => s.tableCtrl (setBit v 0 true))

/-- A write of COD_GRANT_TABLE. -/
def State.grantTable (s : State) (v : Reg32) : State :=
  if (s.codeTable (fld v 0 10)).isSome then { s with cod := { s.cod with grantTable := v &&& 0x3FF } } else s.codBit 1

/-- COD_GRANT_TABLE. -/
def execCodGrantTable (t : Nat) (v : Reg32) (s : State) : Host.Outcome State Fault Refusal :=
  .next ((s.start t).viaBar 0 0x70008 fun s => s.grantTable v)

/-- A write of COD_EXT_TABLE: the selected extent is bound to another slot, unless a write to it has been stamped; one that
is stamped at this count later makes the rebinding void (R156). -/
def State.rebind (s : State) (v : Reg32) : State :=
  let e := s.cod.extSel.toNat
  let k := fld v 0 10
  match s.extent e with
  | none => s.codBit 2
  | some x =>
    if x.codec != 1 || (s.codeTable k).isNone || x.written.isSome then s.codBit 2
    else
      let was := match x.rebound with | some (c, j) => if c = s.now then j else x.slot | none => x.slot
      let s := s.setExtent e { x with slot := k, rebound := some (s.now, was) }
      ({ s with cod := { s.cod with extTable := setFld s.cod.extTable 0 10 k } }).digestUpdate

/-- COD_EXT_TABLE. -/
def execCodExtTable (t : Nat) (v : Reg32) (s : State) : Host.Outcome State Fault Refusal :=
  .next ((s.start t).viaBar 0 0x700C4 fun s => s.rebind v)

/-! ### Recipes (R203, R204, R219) -/

/-- Admitted, incomplete commands that use a recipe slot; FILL, COPY and COMPARE use slots 6 to 8 (R219, R265). -/
def State.recipeUsers (s : State) (k : Nat) : Nat :=
  (s.cmds.filter fun c => (pkOp c.pkt == 0x13 && pk c.pkt 24 1 == k) ||
    (1 ≤ pkOp c.pkt && pkOp c.pkt ≤ 3 && pkOp c.pkt + 5 == k)).length

/-- Set RCP_ERR. -/
def State.recipeError (s : State) : State := { s with spr := { s.spr with rcpErr := true } }

/-- LOAD of the selected slot: the buffer is validated, and its allowance becomes allotment 0's alone. -/
def State.loadRecipe (s : State) : State :=
  let k := fld s.spr.rcpSel 0 6
  if k < 16 ∨ s.recipeUsers k != 0 ∨ !imageOk s.spr.buf then s.recipeError
  else ({ s with spr := { s.spr with
    slots := sins s.spr.slots k s.spr.buf, allow := sput (BitVec.allOnes 64) s.spr.allow k 1 } }).digestUpdate

/-- CLEAR of the selected slot. -/
def State.clearRecipe (s : State) : State :=
  let k := fld s.spr.rcpSel 0 6
  if k < 16 ∨ s.recipeUsers k != 0 then s.recipeError
  else ({ s with spr := { s.spr with slots := sdel s.spr.slots k } }).digestUpdate

/-- A write of SPR_RCP_CTRL. -/
def State.recipeCtrl (s : State) (v : Reg32) : State :=
  let s := if bitOf v 0 then s.loadRecipe else s
  if bitOf v 1 then s.clearRecipe else s

/-- RECIPE_LOAD: LOAD is written to SPR_RCP_CTRL. -/
def execRecipeLoad (t : Nat) (v : Reg32) (s : State) : Host.Outcome State Fault Refusal :=
  .next ((s.start t).viaBar 0 0x90034 fun s => s.recipeCtrl (setBit v 0 true))

/-- RECIPE_CLEAR: CLEAR is written to SPR_RCP_CTRL. -/
def execRecipeClear (t : Nat) (v : Reg32) (s : State) : Host.Outcome State Fault Refusal :=
  .next ((s.start t).viaBar 0 0x90034 fun s => s.recipeCtrl (setBit v 1 true))

/-! ### Engines, share, classes and budgets (R190, R222, R226, R237) -/

/-- A write of MXE_CTRL: a change goes into a plan with cause MANAGEMENT. -/
def State.missEngines (s : State) (v : Reg32) : State :=
  let n := fld v 0 5
  if 16 < n ∨ n = fld s.mxe.ctrl 0 5 then s
  else ({ s with mxe := { s.mxe with ctrl := BitVec.ofNat 32 n } }).issueLive 4 fun b => { b with miss := n }

/-- MISS_ENGINES. -/
def execMissEngines (t : Nat) (v : Reg32) (s : State) : Host.Outcome State Fault Refusal :=
  .next ((s.start t).viaBar 0 0x80000 fun s => s.missEngines v)

/-- The guaranteed draw of `s` exceeds 90% of an allowance; before the first plan nothing is checked (R226). -/
def State.drawTooHigh (s : State) (allow : Nat) : Bool := s.plan.cur.ver != 0 && decide (9 * allow < 10 * s.draw)

/-- Set BUDGET_ERR. -/
def State.budgetError (s : State) : State := { s with col := { s.col with budgetErr := true } }
/-- Set CLASS_ERR. -/
def State.classError (s : State) : State := { s with col := { s.col with classErr := true } }

/-- A write of COL_CTRL: a change of LS_SHARE goes into a plan with cause MANAGEMENT, unless it breaks R226. -/
def State.lsShare (s : State) (v : Reg32) : State :=
  let n := fld v 0 10
  let allow := allowOf (nth s.plan.cur.rates 0) n
  if n < 100 ∨ 500 < n ∨ n = fld s.col.ctrl 0 10 then s
  else if allow < s.plan.cur.allow ∧ s.drawTooHigh allow then s.budgetError
  else ({ s with col := { s.col with ctrl := BitVec.ofNat 32 n } }).issueLive 4 fun b => { b with lsShare := n }

/-- LS_SHARE. -/
def execLsShare (t : Nat) (v : Reg32) (s : State) : Host.Outcome State Fault Refusal :=
  .next ((s.start t).viaBar 0 0x20000 fun s => s.lsShare v)

/-- A write of COL_BUDGET[i]. -/
def State.colBudget (s : State) (i : Nat) (v : Reg32) : State :=
  let s' : State := { s with col := { s.col with budget := sput 0 s.col.budget i (v &&& 0x0FFF0FFF) } }
  if s'.drawTooHigh s.plan.cur.allow ∧ s.draw < s'.draw then s.budgetError else s'

/-- COL_BUDGET. -/
def execColBudget (t idx : Nat) (v : Reg32) (s : State) : Host.Outcome State Fault Refusal :=
  let s := s.start t
  if 1024 ≤ idx then .next s else .next (s.viaBar 0 (0x21000 + 4 * idx) fun s => s.colBudget idx v)

/-- A write of COL_CLASS[c] (R222, R226, R237). -/
def State.colClass (s : State) (c : Nat) (v : Reg32) : State :=
  let kind := fld v 0 2
  let s' : State := { s with col := { s.col with cls := sput 0 s.col.cls c (v &&& 0x73) } }
  if kind = 3 ∨ (kind != 2 ∧ s.kind c = 2 ∧ s.col.res.any fun r => r.cls == c) then s.classError
  else if kind = 2 ∧ s.kind c != 2 ∧ s'.drawTooHigh s.plan.cur.allow then s.classError.budgetError
  else s'

/-- COL_CLASS. -/
def execColClass (t c : Nat) (v : Reg32) (s : State) : Host.Outcome State Fault Refusal :=
  let s := s.start t
  if 16 ≤ c then .next s else .next (s.viaBar 0 (0x20040 + 4 * c) fun s => s.colClass c v)

end Sys2Proof.Machine
end

