-- ==== Sys2Proof/Machine/RegMap.lean ====
section
/-! DEFINITION. The register map: the index of management BAR0, and the places of an allotment's BAR0 (R8 to R10, R468,
R469, R473, R474). -/

namespace Sys2Proof.Machine

open Sys2Proof

/-- Consecutive entries of the index: first offset, distance between entries, how many, and the width in bytes. -/
structure RegRow where
  base : Nat
  stride : Nat
  count : Nat
  width : Nat
  deriving DecidableEq, Repr

/-- GEN, CC and COL (R467, R53, R237). -/
def rowsGen : List RegRow :=
  [⟨0x0, 4, 2, 4⟩, ⟨0x8, 8, 2, 8⟩, ⟨0x10000, 8, 2, 8⟩, ⟨0x10010, 4, 2, 4⟩, ⟨0x10018, 8, 1, 8⟩, ⟨0x10020, 4, 2, 4⟩,
   ⟨0x10028, 8, 1, 8⟩, ⟨0x10030, 4, 1, 4⟩, ⟨0x10100, 4, 64, 4⟩, ⟨0x20000, 4, 7, 4⟩, ⟨0x20040, 4, 16, 4⟩,
   ⟨0x20100, 4, 64, 4⟩, ⟨0x20200, 4, 1, 4⟩, ⟨0x20220, 4, 9, 4⟩, ⟨0x20280, 8, 9, 8⟩, ⟨0x20300, 8, 9, 8⟩,
   ⟨0x20380, 4, 9, 4⟩, ⟨0x203C0, 4, 9, 4⟩, ⟨0x21000, 4, 1024, 4⟩, ⟨0x22000, 4, 1024, 4⟩]

/-- ALT and WIN (R84, R85, R259). -/
def rowsAlt : List RegRow :=
  [⟨0x30000, 0x40, 64, 4⟩, ⟨0x30004, 0x40, 64, 4⟩, ⟨0x30008, 0x40, 64, 4⟩, ⟨0x30010, 0x40, 64, 8⟩,
   ⟨0x30018, 0x40, 64, 8⟩, ⟨0x30020, 0x40, 64, 8⟩, ⟨0x30028, 0x40, 64, 4⟩, ⟨0x3002C, 0x40, 64, 4⟩,
   ⟨0x30030, 0x40, 64, 4⟩, ⟨0x30034, 0x40, 64, 4⟩, ⟨0x40000, 0x20, 1024, 8⟩, ⟨0x40008, 0x20, 1024, 8⟩,
   ⟨0x40010, 0x20, 1024, 4⟩, ⟨0x40014, 0x20, 1024, 4⟩, ⟨0x48000, 0x20, 64, 8⟩, ⟨0x48008, 0x20, 64, 8⟩,
   ⟨0x48010, 0x20, 64, 4⟩]

/-- DIR, PUB, COD, MXE and SPR (R86, R106, R175, R200, R219). -/
def rowsDir : List RegRow :=
  [⟨0x50000, 4, 9, 4⟩, ⟨0x50028, 8, 2, 8⟩, ⟨0x60000, 4, 4, 4⟩, ⟨0x60010, 8, 2, 8⟩, ⟨0x60020, 4, 1, 4⟩,
   ⟨0x60040, 4, 8, 4⟩, ⟨0x70000, 4, 7, 4⟩, ⟨0x70020, 4, 2, 4⟩, ⟨0x70040, 4, 32, 4⟩, ⟨0x700C0, 4, 2, 4⟩,
   ⟨0x700C8, 8, 2, 8⟩, ⟨0x80000, 4, 7, 4⟩, ⟨0x80020, 8, 2, 8⟩, ⟨0x80030, 4, 1, 4⟩, ⟨0x80038, 8, 1, 8⟩,
   ⟨0x80040, 4, 1, 4⟩, ⟨0x80048, 8, 1, 8⟩, ⟨0x80100, 8, 128, 8⟩, ⟨0x90000, 4, 1, 4⟩, ⟨0x90008, 8, 1, 8⟩,
   ⟨0x90010, 4, 3, 4⟩, ⟨0x90020, 4, 1, 4⟩, ⟨0x90028, 8, 1, 8⟩, ⟨0x90030, 4, 2, 4⟩, ⟨0x90038, 8, 1, 8⟩,
   ⟨0x90200, 4, 144, 4⟩]

/-- QUE, DRM, FLS, INT and the registers of FLT (R258, R126, R151, R306, R325). -/
def rowsQue : List RegRow :=
  [⟨0xA0000, 0x20, 4096, 8⟩, ⟨0xA0008, 0x20, 4096, 8⟩, ⟨0xA0010, 0x20, 4096, 4⟩, ⟨0xA0014, 0x20, 4096, 4⟩,
   ⟨0xA0018, 0x20, 4096, 4⟩, ⟨0xA001C, 0x20, 4096, 4⟩, ⟨0xC0000, 4, 5, 4⟩, ⟨0xC0018, 8, 3, 8⟩, ⟨0xC0040, 4, 12, 4⟩,
   ⟨0xC0080, 4, 12, 4⟩, ⟨0xD0000, 4, 3, 4⟩, ⟨0xD0010, 8, 2, 8⟩, ⟨0xD0020, 4, 1, 4⟩, ⟨0xD0028, 8, 1, 8⟩,
   ⟨0xD0030, 4, 3, 4⟩, ⟨0xD0040, 4, 1, 4⟩, ⟨0xD0048, 8, 1, 8⟩, ⟨0xE0000, 4, 3, 4⟩, ⟨0xE0010, 8, 4, 8⟩,
   ⟨0xE0030, 4, 7, 4⟩, ⟨0xE0050, 8, 3, 8⟩, ⟨0xF0000, 4, 4, 4⟩, ⟨0xF0010, 8, 1, 8⟩, ⟨0xF1000, 0x10, 64, 4⟩,
   ⟨0xF1004, 0x10, 64, 4⟩]

/-- DET, EP, TAM, SEC, PWR, AGE, PRT and the hint registers (R341, R367, R389, R412, R426, R427, R438, R86). -/
def rowsDet : List RegRow :=
  [⟨0x100000, 4, 2, 4⟩, ⟨0x100008, 8, 5, 8⟩, ⟨0x100030, 4, 2, 4⟩, ⟨0x100038, 8, 3, 8⟩, ⟨0x100050, 4, 2, 4⟩,
   ⟨0x110000, 4, 3, 4⟩, ⟨0x110010, 4, 1, 4⟩, ⟨0x110018, 8, 1, 8⟩, ⟨0x110020, 4, 1, 4⟩, ⟨0x110028, 8, 2, 8⟩,
   ⟨0x120000, 4, 5, 4⟩, ⟨0x120018, 8, 1, 8⟩, ⟨0x120020, 4, 4, 4⟩, ⟨0x120030, 8, 3, 8⟩, ⟨0x120100, 4, 64, 4⟩,
   ⟨0x120800, 8, 256, 8⟩, ⟨0x130000, 4, 4, 4⟩, ⟨0x130010, 8, 1, 8⟩, ⟨0x130018, 4, 3, 4⟩, ⟨0x130028, 8, 1, 8⟩,
   ⟨0x130030, 4, 2, 4⟩, ⟨0x130040, 4, 3, 4⟩, ⟨0x138000, 4, 8192, 4⟩, ⟨0x140000, 4, 3, 4⟩, ⟨0x140010, 8, 1, 8⟩,
   ⟨0x140018, 4, 3, 4⟩, ⟨0x140028, 8, 2, 8⟩, ⟨0x150000, 4, 3, 4⟩, ⟨0x150010, 8, 5, 8⟩, ⟨0x160000, 4, 4, 4⟩,
   ⟨0x160010, 8, 6, 8⟩, ⟨0x160040, 4, 12, 4⟩, ⟨0x160080, 4, 32, 4⟩, ⟨0x160100, 4, 1, 4⟩, ⟨0x160108, 4, 3, 4⟩,
   ⟨0x160118, 8, 1, 8⟩, ⟨0x400000, 4, 65536, 4⟩]

/-- The index of management BAR0; the log entries and the blocks without registers of their own stand in `place`. -/
def regRows : List RegRow := rowsGen ++ rowsAlt ++ rowsDir ++ rowsQue ++ rowsDet

/-- The register of `r` that holds byte `off`. -/
def RegRow.find (r : RegRow) (off : Nat) : Option Nat :=
  if off < r.base then none
  else
    let i := (off - r.base) / r.stride
    if i < r.count ∧ (off - r.base) % r.stride < r.width then some (r.base + r.stride * i) else none

/-- The register that holds byte `off` of management BAR0: where it starts, and its width. -/
def regAt (off : Nat) : Option (Nat × Nat) := regRows.findSome? fun r => (r.find off).map fun o => (o, r.width)

/-- What an offset of a BAR0 is. -/
inductive Place where
  /-- a register: its offset in management BAR0, its width, the byte within it, and whether it may be written here. -/
  | reg (o width byte : Nat) (rw : Bool)
  /-- an entry of the part fault log: entry and byte. -/
  | plog (i byte : Nat)
  /-- an entry of an error log: allotment, entry and byte. -/
  | alog (n i byte : Nat)
  /-- an MSI-X table or its pending bits: allotment, byte, and whether it may be written here. -/
  | msix (n byte : Nat) (rw : Bool)
  /-- the recovery window: byte. -/
  | window (byte : Nat)
  /-- CXL registers: what they do stands in the commands of R347 and R348. -/
  | cxl
  /-- nothing is listed there. -/
  | nothing
  deriving DecidableEq, Repr

/-- A place in management BAR0 (R468). -/
def managePlace (off : Nat) : Place :=
  if 0xF0800 ≤ off ∧ off < 0xF1000 then .plog ((off - 0xF0800) / 32) (off % 32)
  else if 0xF8000 ≤ off ∧ off < 0x100000 then .alog ((off - 0xF8000) / 512) (off % 512 / 32) (off % 32)
  else if 0x170000 ≤ off ∧ off < 0x190000 then .cxl
  else if 0x200000 ≤ off ∧ off < 0x240000 then
    .msix ((off - 0x200000) / 4096) (off % 4096) (decide (off < 0x201000))
  else if 0x1000000 ≤ off ∧ off < 0x2000000 then .window (off - 0x1000000)
  else match regAt off with
    | some (o, w) => .reg o w (off - o) true
    | none => .nothing

/-- A register of the management map seen from an allotment's BAR0. -/
def asSeen (off : Nat) (rw : Bool) : Place :=
  match managePlace off with
  | .reg o w b _ => .reg o w b rw
  | p => p

/-- A place in the BAR0 of allotment `n` (R473, R474). -/
def State.viewPlace (s : State) (n off : Nat) : Place :=
  if off < 0x8 then asSeen (0x10000 + off) false
  else if off < 0xC then asSeen (0x10024 + (off - 8)) false
  else if 0x1000 ≤ off ∧ off < 0x1038 then asSeen (0x30000 + 0x40 * n + (off - 0x1000)) (decide (0x1020 ≤ off))
  else if 0x2000 ≤ off ∧ off < 0x2004 then asSeen (0x20100 + 4 * n + (off - 0x2000)) true
  else if 0x2040 ≤ off ∧ off < 0x2080 then asSeen (0x21000 + 64 * n + (off - 0x2040)) false
  else if 0x2080 ≤ off ∧ off < 0x20C0 then asSeen (0x22000 + 64 * n + (off - 0x2080)) false
  else if 0x3000 ≤ off ∧ off < 0x3200 then asSeen (0x40000 + 0x200 * n + (off - 0x3000)) true
  else if 0x3200 ≤ off ∧ off < 0x3220 then asSeen (0x48000 + 0x20 * n + (off - 0x3200)) true
  else if 0x4000 ≤ off ∧ off < 0x4008 then asSeen (0xF1000 + 0x10 * n + (off - 0x4000)) false
  else if 0x4100 ≤ off ∧ off < 0x4300 then asSeen (0xF8000 + 0x200 * n + (off - 0x4100)) false
  else if 0x8000 ≤ off ∧ off < 0xC000 then
    match s.queueOf n ((off - 0x8000) / 32) with
    | some q => asSeen (0xA0000 + 0x20 * q + off % 32) (off % 32 / 4 != 5)
    | none => .nothing
  else if 0x40000 ≤ off ∧ off < 0x80000 then asSeen (0x400000 + (off - 0x40000)) true
  else if 0xD0000 ≤ off ∧ off < 0xF0000 then .cxl
  else if 0xF0000 ≤ off ∧ off < 0xF1000 then .msix n (off - 0xF0000) true
  else .nothing

/-- The place that allotment `by_` reaches at `off` of its BAR0; the recovery window is there in recovery state only
(R469). -/
def State.place (s : State) (by_ off : Nat) : Place :=
  if by_ = 0 then
    match managePlace off with
    | .window b => if s.sec.recovery then .window b else .nothing
    | p => p
  else s.viewPlace by_ off

/-- An access of the right width for the place (R8 to R10, R471): naturally aligned, of 32 bits, or of 64 bits on a
64-bit register, a log entry, an MSI-X table or the recovery window. -/
def Place.fits (p : Place) (off width : Nat) : Bool :=
  (width == 4 || width == 8) && off % width == 0 && match p with
    | .reg _ w _ _ => decide (width ≤ w)
    | _ => true

end Sys2Proof.Machine
end

