-- ==== Sys2Proof/Machine/Readout.lean ====
section
/-! DEFINITION. What every register reads (R6, R7, R53, R84 to R86, R106, R126, R151, R175, R200, R219, R237, R258, R259,
R306, R325, R341, R367, R389, R412, R426, R427, R438, R467, R470). A read changes nothing but the error log and what it
latches for reads of the other parts of its register; no command of the table is a read. -/

namespace Sys2Proof.Machine

open Sys2Proof

/-- A value that start-up loads by the end of a phase reads 0 until then (R470). -/
def State.loaded (s : State) (phase v : Nat) : Nat := if phase < s.gen.phase then v else 0
/-- Loaded by the boot ROM. -/
def State.fromBoot (s : State) (v : Nat) : Nat := s.loaded 1 v
/-- Loaded from the life record or the system area. -/
def State.fromLife (s : State) (v : Nat) : Nat := s.loaded 4 v

/-! ### GEN, CC and COL -/

/-- GEN (R467). -/
def State.readGen (s : State) (r : Nat) : Nat :=
  match r with
  | 0x0 => 0x1864 + at_ 16 16 Config.siliconRev.toNat
  | 0x4 => at_ 0 3 s.gen.phase + atB 3 s.gen.late + atB 4 s.fls.mapLoading + at_ 16 3 s.gen.addr.toNat
  | 0x8 => s.gen.pwrGoodCc
  | 0x10 => s.gen.readyCc
  | _ => 0

/-- CC (R53). -/
def State.readCc (s : State) (r : Nat) : Nat :=
  match r with
  | 0x0 => s.now
  | 0x8 => s.cc.syncValue.toNat
  | 0x10 => s.cc.ctrl.toNat
  | 0x14 => s.cc.status.toNat
  | 0x18 => s.cc.lastSync.toNat
  | 0x20 => s.cc.syncOffset.toNat
  | 0x24 => at_ 0 16 s.plan.cur.ver + at_ 16 16 (match s.plan.pend with | some p => p.ver | none => 0)
  | 0x28 => s.planBase.effective
  | 0x30 => s.planBase.cause
  | _ =>
    let n := (r - 0x100) / 4
    at_ 0 16 (sget 0 s.cc.measured n) + at_ 16 16 (s.plan.cur.paces.getD n 0).toNat

/-- COL (R237). -/
def State.readCol (s : State) (r : Nat) : Nat :=
  if r < 0x40 then
    match r with
    | 0x0 => s.col.ctrl.toNat
    | 0x4 => atB 0 s.col.budgetErr + atB 1 s.col.classErr + atB 2 s.meterHeld + atB 3 s.cutPending + atB 4 s.col.cutDone
    | 0x8 => s.plan.cur.allow
    | 0xC => s.draw
    | 0x10 => s.col.refusedLate
    | 0x14 => s.col.demoted
    | _ => (sint 32 (s.col.meter / 16)).toNat
  else if r < 0x100 then (sget 0 s.col.cls ((r - 0x40) / 4)).toNat
  else if r < 0x200 then (sget 0xF0000 s.col.ldClass ((r - 0x100) / 4)).toNat
  else if r < 0x220 then s.col.resSel.toNat
  else if r < 0x280 then nth s.col.resRate ((r - 0x220) / 4)
  else if r < 0x300 then nth s.col.resHorizon ((r - 0x280) / 8)
  else if r < 0x380 then nth s.col.pool ((r - 0x300) / 8)
  else if r < 0x3C0 then s.cap ((r - 0x380) / 4)
  else if r < 0x1000 then s.resSum ((r - 0x3C0) / 4)
  else if r < 0x2000 then (sget 0 s.col.budget ((r - 0x1000) / 4)).toNat
  else
    let k := (r - 0x2000) / 4
    at_ 0 13 (s.lsCount k) + at_ 16 13 (s.cmdCount k)

/-! ### ALT, WIN, DIR and PUB -/

/-- The event ring is enabled, and an entry may be written as soon as a slot is free (R259). -/
def State.evtActive (s : State) (a : Allot) : Bool := bitOf a.evtCtrl 0 && !a.evtHold && (s.ld a.ldk).master

/-- ALT (R84, R259). -/
def State.readAlt (s : State) (r : Nat) : Nat :=
  let n := r / 0x40
  let a := s.allot n
  let owned := s.ext.tbl.filter fun (_, x) => x.owner == n
  match r % 0x40 with
  | 0x0 => a.bind.toNat
  | 0x4 =>
    let member := s.ext.tbl.filter fun (_, x) => x.members.any fun (m, _) => m == n
    at_ 0 2 a.state + atB 2 a.bindErr + at_ 15 17 (owned.length + member.length)
  | 0x8 => a.ctrl.toNat
  | 0x10 => 65536 * sumN (owned.map fun (_, x) => x.frames)
  | 0x18 => 65536 * sumN (owned.map fun (_, x) => x.flash)
  | 0x20 => a.evtBase.toNat
  | 0x28 => a.evtCtrl.toNat
  | 0x2C => atB 0 (s.evtActive a) + atB 1 a.evtPostErr + atB 2 a.evtCfgErr + atB 3 a.evtPhase +
      at_ 4 7 (a.evtHeld.length + a.evtGroup.length + a.evtNext.length)
  | 0x30 => at_ 0 16 a.evtHead + at_ 16 16 a.evtTail
  | _ => a.evtLost

/-- WIN: the shadow copy, and the control registers (R85). -/
def State.readWin (s : State) (r : Nat) : Nat :=
  if r < 0x8000 then
    let w := sget .init (s.allot (r / 0x200)).shadow (r % 0x200 / 0x20)
    match r % 0x20 with
    | 0x0 => w.apt.toNat
    | 0x8 => w.target.toNat
    | 0x10 => w.size.toNat
    | _ => w.ctrl.toNat
  else
    let a := s.allot ((r - 0x8000) / 0x20)
    match r % 0x20 with
    | 0x0 => 0
    | 0x8 => a.winLive.toNat
    | _ => atB 0 a.winPend.isSome + atB 1 a.winErr + at_ 4 4 a.winBad + at_ 16 16 a.winStale.toNat

/-- Frames in a state. -/
def State.framesIn (s : State) (st : Nat) : Nat := s.dir.frames.countP fun (_, f) => f.st == st

/-- DIR (R86). -/
def State.readDir (s : State) (r : Nat) : Nat :=
  match r with
  | 0x0 => s.dir.ctrl.toNat
  | 0x4 => s.dir.status.toNat
  | 0x8 => s.pinnedLimit
  | 0xC => pageFrames - s.dir.gone.length - s.dir.frames.countP fun (n, _) => decide (n < pageFrames)
  | 0x10 => s.pinnedFrames
  | 0x14 => s.framesIn 1
  | 0x18 => s.framesIn 5
  | 0x1C => s.framesIn 7
  | 0x20 => s.dir.sel.toNat
  | 0x28 => fld s.dir.entry 0 64
  | _ => fld s.dir.entry 64 64

/-- PUB (R106). -/
def State.readPub (s : State) (r : Nat) : Nat :=
  match r with
  | 0x0 => s.ext.ctrl.toNat
  | 0x4 => s.ext.status.toNat
  | 0x8 => s.retainedFrames
  | 0xC => s.ext.sel.toNat
  | 0x10 => s.ext.extent.toNat
  | 0x18 => s.ext.view.toNat
  | 0x20 => s.ext.oldest.toNat
  | _ => (s.hport ((r - 0x40) / 4)).snoop.length

/-! ### COD, MXE and SPR -/

/-- COD (R175); COD_TBL_LEN reads the lengths of the selected slot. -/
def State.readCod (s : State) (r : Nat) : Nat :=
  let k := fld s.cod.tblSel 0 10
  match r with
  | 0x0 => s.cod.ctrl.toNat
  | 0x4 => s.cod.status.toNat
  | 0x8 => s.cod.grantTable.toNat
  | 0xC => s.dir.merge.countP (·.dirty)
  | 0x10 => s.cod.damaged
  | 0x14 => s.cod.skipped
  | 0x18 => s.cod.fxrNan
  | 0x20 => s.cod.tblSel.toNat
  | 0x24 =>
    let t := s.codeTable k
    atB 1 s.cod.elem + atB 2 t.isSome + atB 3 (t.any (·.fp32)) + at_ 16 16 (Nat.min 65535 (s.tableBound k))
  | 0xC0 => s.cod.extSel.toNat
  | 0xC4 => s.cod.extTable.toNat
  | 0xC8 => s.cod.extBlocks.toNat
  | 0xD0 => s.cod.extLines.toNat
  | _ => match s.codeTable k with
    | some t => sumN ((List.range 8).map fun i => at_ (4 * i) 4 (nth t.lens (8 * ((r - 0x40) / 4) + i)))
    | none => 0

/-- MXE (R200). -/
def State.readMxe (s : State) (r : Nat) : Nat :=
  let gone := s.mxe.retired.length
  let active := s.activeEngines
  let spares := 36 - gone - active
  match r with
  | 0x0 => s.mxe.ctrl.toNat
  | 0x4 => atB 0 s.mxe.retiredNew + atB 1 (spares == 0) + atB 2 s.mxe.missWait + atB 3 s.mxe.retryLimit +
      atB 4 (match s.plan.pend with | some p => p.miss != s.plan.cur.miss | none => false)
  | 0x8 => s.fromLife (at_ 0 6 active + at_ 8 3 spares + at_ 16 6 gone + at_ 24 5 (s.missCount s.plan.cur.miss))
  | 0xC => nth s.plan.cur.rates 3
  | 0x10 => s.mxe.missWaits
  | 0x14 => s.mxe.retries
  | 0x18 => s.mxe.uncached
  | 0x20 => s.mxe.tiles
  | 0x28 => s.mxe.hits
  | 0x30 => s.mxe.engSel.toNat
  | 0x38 => s.mxe.engStatus.toNat
  | 0x40 => s.mxe.compSel.toNat
  | 0x48 => s.mxe.compTiles.toNat
  | _ => (sget 0 s.mxe.desc ((r - 0x100) / 8)).toNat

/-- Retired cores of a plot. -/
def State.plotLost (s : State) (p : Nat) : Nat := s.spr.retired.countP fun c => c / 132 == p

/-- SPR (R219). An image of a built-in slot reads 0: the spec gives its micro-operations no image bytes. -/
def State.readSpr (s : State) (r : Nat) : Nat :=
  let k := fld s.spr.rcpSel 0 6
  match r with
  | 0x0 => atB 0 s.spr.retiredNew + atB 1 ((List.range 32).any fun p => decide (4 ≤ s.plotLost p)) +
      atB 2 s.spr.retryLimit + atB 3 s.spr.rcpErr + atB 4 s.spr.pacedFull
  | 0x8 =>
    let active := sumN ((List.range 32).map fun p => Nat.min 128 (132 - s.plotLost p))
    let gone := s.spr.retired.length
    s.fromLife (at_ 0 13 active + at_ 16 8 (4224 - gone - active) + at_ 32 13 gone)
  | 0x10 => nth s.plan.cur.rates 4
  | 0x14 => s.spr.retries
  | 0x18 => s.cmds.countP fun c => c.phase == .paced && c.paced
  | 0x20 => s.spr.coreSel.toNat
  | 0x28 => s.spr.coreStatus.toNat
  | 0x30 => s.spr.rcpSel.toNat
  | 0x34 => atB 2 (s.recipe k).isSome + atB 3 (decide (k < 16)) + at_ 16 16 (Nat.min 65535 (s.recipeUsers k))
  | 0x38 => (sget (BitVec.allOnes 64) s.spr.allow k).toNat
  | _ => match sfind s.spr.slots k with
    | some m => (sget 0 m ((r - 0x200) / 4)).toNat
    | none => 0

/-! ### QUE, DRM, FLS, INT and FLT -/

/-- QUE (R258). -/
def State.readQue (s : State) (r : Nat) : Nat :=
  let v := s.queue (r / 0x20)
  match r % 0x20 with
  | 0x0 => v.sqBase.toNat
  | 0x8 => v.cqBase.toNat
  | 0x10 => v.ctrl.toNat
  | 0x14 => v.owner.toNat
  | 0x18 => at_ 0 3 v.state + atB 3 v.fetchErr + atB 4 v.postErr + atB 5 v.cfgErr + atB 6 v.assignErr + atB 7 v.phase +
      at_ 8 7 v.held.length + at_ 16 7 v.inflight
  | _ => at_ 0 16 v.sqHead + at_ 16 16 v.cqTail

/-- DRM (R126). -/
def State.readDrm (s : State) (r : Nat) : Nat :=
  match r with
  | 0x0 => s.drm.ctrl.toNat
  | 0x4 => atB 0 (s.drm.chans.any fun (_, c) => c.st == 1 || c.st == 2 || c.st == 3) + atB 1 s.drm.retiredNew +
      atB 2 (decide (s.reserveFree < 270336)) + atB 3 s.drm.reserveEmpty + atB 4 s.drm.dataLost +
      at_ 8 7 s.drm.retired.length
  | 0x8 => s.reserveFree.toNat
  | 0xC => at_ 0 7 (s.drm.retired.getD 0 0x7F) + at_ 8 7 (s.drm.retired.getD 1 0x7F)
  | 0x10 => s.drm.chSel.toNat
  | 0x18 => s.drm.chStatus.toNat
  | 0x20 => s.drm.chCounts.toNat
  | 0x28 => s.drm.chLast.toNat
  | _ =>
    if r < 0x80 then (sget 0x3E8 s.drm.target ((r - 0x40) / 4)).toNat else sget 0 s.drm.late ((r - 0x80) / 4)

/-- Remaining over-provisioning in 64 KiB (R137). -/
def State.spareFlash (s : State) : Nat := 176128 * 1024 - s.retiredDies * 2097152

/-- A planned rate of 1/16 B per CC in MB/s. -/
def mbPerS (rate : Nat) : Nat := rate * 1000 / 16

/-- FLS (R151). -/
def State.readFls (s : State) (r : Nat) : Nat :=
  match r with
  | 0x0 => s.fls.ctrl.toNat
  | 0x4 => atB 0 (s.fls.dies.any fun (_, d) => d.st == 1) + atB 1 s.fls.retiredNew + atB 2 s.fls.dataLost +
      atB 3 (decide (s.spareFlash < 32768 * 1024)) + atB 4 s.fls.warn + atB 5 (decide (1000 ≤ endurance s.fls.hostProg)) +
      atB 6 s.fls.holdupLow + atB 7 s.fls.unclean
  | 0x8 => s.fromLife s.retiredDies
  | 0x10 => s.fromLife s.fls.hostProg
  | 0x18 => s.fromLife s.fls.nandProg
  | 0x20 => s.fromLife (at_ 0 16 (endurance s.fls.hostProg))
  | 0x28 => 65536 * s.spareFlash
  | 0x30 => mbPerS (nth s.plan.cur.rates 1)
  | 0x34 => mbPerS (nth s.plan.cur.rates 2)
  | 0x38 => at_ 0 16 s.fls.holdup
  | 0x40 => s.fls.dieSel.toNat
  | _ => s.fls.dieStatus.toNat

/-- Wipe-pending pages. -/
def State.wipePending (s : State) : Nat := s.dir.frames.countP fun (_, f) => f.wipe.isSome

/-- INT (R306). -/
def State.readInt (s : State) (r : Nat) : Nat :=
  match r with
  | 0x0 => s.int.ctrl.toNat
  | 0x4 => s.mode + fld (s.int.status &&& 0x1FC) 0 32 + atB 9 (decide (0 < s.wipePending))
  | 0x8 => s.int.scrub.toNat
  | 0x10 => at_ 0 21 s.int.pos + at_ 32 32 s.int.passes
  | 0x18 => s.int.passStart
  | 0x20 => s.int.ce
  | 0x28 => s.int.ue
  | 0x30 => s.int.hard
  | 0x34 => s.int.addrFaults
  | 0x38 => at_ 0 16 s.int.parityReread + at_ 16 16 s.int.parityPoison
  | 0x3C => s.int.partials
  | 0x40 => s.wipePending
  | 0x44 => s.int.skipped
  | 0x48 => s.int.chSel.toNat
  | 0x50 => s.int.chBucket.toNat
  | 0x58 => s.int.lastUe.toNat
  | _ => s.int.lastUeCc

/-- FLT without the log entries (R325). -/
def State.readFlt (s : State) (r : Nat) : Nat :=
  match r with
  | 0x0 => s.flt.ctrl.toNat
  | 0x4 => at_ 0 2 s.flt.lastReset + atB 2 s.flt.sramHard + atB 3 s.flt.stateLost + atB 4 s.flt.allotFaulted +
      atB 5 s.flt.plogWrapped
  | 0x8 => 0
  | 0xC => s.flt.plogTotal % 64 + at_ 6 26 s.flt.plogTotal
  | 0x10 => s.fromLife (at_ 0 7 s.drm.retired.length + at_ 16 10 s.retiredDies + at_ 32 6 s.mxe.retired.length +
      at_ 48 13 s.spr.retired.length)
  | _ =>
    let a := s.allot ((r - 0x1000) / 0x10)
    if r % 0x10 = 0 then a.logTotal % 16 + at_ 4 28 a.logTotal else a.cause.toNat

/-- The 32 B of a log entry (R317, R325). -/
def LogEntry.word (e : LogEntry) : Nat :=
  at_ 0 8 e.code + at_ 8 8 e.source + at_ 16 16 e.count + at_ 32 16 e.unit + at_ 48 16 e.ext + at_ 64 64 e.stamp +
    at_ 128 64 e.addr + at_ 192 48 e.detail

/-- Entry `i` of a log ring of `size`, of which the newest entries are kept, newest first. -/
def ringEntry (l : List LogEntry) (total size i : Nat) : Nat :=
  match l[(total + 2 * size - 1 - i) % size]? with
  | some e => e.word
  | none => 0

/-! ### DET, EP, TAM, SEC, PWR, AGE and PRT -/

/-- DET (R341). -/
def State.readDet (s : State) (r : Nat) : Nat :=
  match r with
  | 0x0 => s.det.ctrl.toNat
  | 0x4 => atB 0 s.recording + atB 1 s.det.overrun + atB 2 s.det.wrapped + atB 3 s.det.full + atB 4 s.det.replay.isSome +
      atB 5 s.det.skippedBit + atB 6 s.det.unsynced + atB 7 s.det.copyDone + atB 8 s.det.copyErr
  | 0x8 => s.det.mask.toNat
  | 0x10 => s.det.digest.toNat
  | 0x18 => s.fromLife s.det.head
  | 0x20 => s.fromLife s.det.tail
  | 0x28 => s.fromLife s.det.records
  | 0x30 => s.det.gaps
  | 0x34 => s.det.skipped
  | 0x38 => s.det.replayPos
  | 0x40 => s.det.copySrc.toNat
  | 0x48 => s.det.copyDst.toNat
  | 0x50 => s.det.copyLen.toNat
  | _ => 0

/-- EP (R367). -/
def State.readEp (s : State) (r : Nat) : Nat :=
  match r with
  | 0x0 => s.ep.ctrl.toNat
  | 0x4 => atB 0 s.ep.lowPower + atB 1 s.ep.ideFail + atB 2 s.ep.linkChange
  | 0x8 => s.fromBoot s.ep.portMode.toNat
  | 0x10 => s.ep.portSel.toNat
  | 0x18 => s.ep.portStatus.toNat
  | 0x20 => s.ep.ldSel.toNat
  | 0x28 => s.ep.ldStatus.toNat
  | _ => s.ep.devload.toNat

/-- TAM (R389). -/
def State.readTam (s : State) (r : Nat) : Nat :=
  match r with
  | 0x0 => s.tam.ctrl.toNat
  | 0x4 => s.tam.status.toNat
  | 0x8 => s.fromBoot s.tam.id.toNat
  | 0xC => s.tam.pair
  | 0x10 => s.tam.portSel.toNat
  | 0x18 => s.tam.portStatus.toNat
  | 0x30 => at_ 0 32 s.tam.resSent + at_ 32 32 s.tam.resLeft.length
  | 0x38 => s.tam.pagesIn
  | 0x40 => s.tam.wireIn
  | _ =>
    if r < 0x30 then (s.tport ((r - 0x20) / 4)).rtt
    else if r < 0x800 then (sget 0 s.tam.route ((r - 0x100) / 4)).toNat
    else (sget 0 s.tam.export_ ((r - 0x800) / 8)).toNat

/-- SEC (R412). -/
def State.readSec (s : State) (r : Nat) : Nat :=
  match r with
  | 0x0 => s.fromBoot (atB 0 s.sec.recovery + atB 1 s.sec.pufOk + atB 3 s.sec.cfgValid + atB 4 s.sec.fwRejected) +
      s.fromLife (atB 2 s.sec.owned) + atB 5 (!s.sec.candidate.isEmpty) + atB 6 s.prt.isOpen +
      atB 7 s.sec.erasePending + atB 8 s.sec.slotErr
  | 0x4 => s.fromBoot s.sec.fwVersion.toNat
  | 0x8 => s.fromBoot s.sec.svn.toNat
  | 0xC => s.fromBoot (fld Config.siliconRev 8 8)
  | 0x10 => s.fromBoot s.sec.cfgSeq.toNat
  | 0x1C => s.cfgStatus
  | 0x20 => s.sec.slotSel.toNat
  | 0x28 => s.fromLife s.sec.slotAssign.toNat
  | 0x30 => s.sec.slotStatus.toNat
  | 0x40 => s.sec.rcvLen.toNat
  | 0x48 => s.fromBoot s.sec.rcvStatus
  | _ => 0

/-- A pending change of the power level: the level and its count. -/
def State.pendingLevel (s : State) : Option (Nat × Count) :=
  match s.plan.pend with
  | some p => if p.level = s.plan.cur.level then none else some (p.level, p.effective)
  | none => none

/-- PWR (R426). -/
def State.readPwr (s : State) (r : Nat) : Nat :=
  match r with
  | 0x0 => s.pwr.ctrl.toNat
  | 0x4 => atB 0 s.pwr.thermWarn + atB 1 s.plan.stepping + atB 2 s.pwr.tripped + atB 3 s.pwr.inputLow +
      atB 4 s.pwr.inputHigh + atB 5 s.pwr.capNear
  | 0x8 => s.fromLife (at_ 0 2 s.levelNow +
      (match s.pendingLevel with | some (l, _) => at_ 4 2 l + atB 6 true | none => 0))
  | 0x10 => (match s.pendingLevel with | some (_, e) => e | none => 0)
  | 0x18 => s.pwr.input.toNat
  | 0x1C => s.pwr.coolant.toNat
  | 0x20 => s.pwr.domSel.toNat
  | 0x28 => s.pwr.domStatus.toNat
  | _ => sumN ((List.range 64).map fun d => atB d (s.domainOn d))

/-- AGE (R427). -/
def State.readAge (s : State) (r : Nat) : Nat :=
  match r with
  | 0x0 => s.pwr.ageCtrl.toNat
  | 0x4 => atB 0 s.pwr.replanning + atB 1 s.pwr.replanDone + atB 2 s.pwr.vmax + atB 3 s.pwr.calValid + atB 4 s.pwr.calLost
  | 0x8 => s.pwr.ageSel.toNat
  | 0x10 => s.fromLife s.pwr.ageStatus.toNat
  | 0x18 => s.fromLife s.pwr.lastReplan
  | 0x20 => s.fromLife s.powerOn
  | 0x28 => s.fromLife s.calendarNow
  | _ => s.fromLife s.pwr.startups

/-- PRT (R438). -/
def State.readPrt (s : State) (r : Nat) : Nat :=
  match r with
  | 0x0 => atB 0 s.prt.isOpen
  | 0x4 => atB 0 (match s.plan.pend with | some p => p.stages != s.plan.cur.stages | none => false) +
      atB 1 s.prt.injectDone + atB 2 s.prt.setErr
  | 0x8 => s.prt.changes
  | 0xC => at_ 0 16 s.prt.symInj + at_ 16 16 s.prt.codInj
  | 0x108 => s.prt.symLine.toNat
  | 0x10C => s.prt.symCtrl.toNat
  | _ =>
    if r < 0x40 then fld s.prt.digest (8 * (r - 0x10)) 64
    else if r < 0x80 then (sget 0 s.prt.gate ((r - 0x40) / 4)).toNat
    else if r < 0x100 then (sget 0 s.prt.stage ((r - 0x80) / 4)).toNat
    else 0

/-! ### The whole map -/

/-- The value of the register that starts at offset `o` of management BAR0. -/
def State.readReg (s : State) (o : Nat) : Nat :=
  if 0x400000 ≤ o then (sget 1 s.dir.hint ((o - 0x400000) / 4)).toNat
  else if 0xA0000 ≤ o ∧ o < 0xC0000 then s.readQue (o - 0xA0000)
  else
    let r := o % 65536
    match o / 65536 with
    | 0 => s.readGen r
    | 1 => s.readCc r
    | 2 => s.readCol r
    | 3 => s.readAlt r
    | 4 => s.readWin r
    | 5 => s.readDir r
    | 6 => s.readPub r
    | 7 => s.readCod r
    | 8 => s.readMxe r
    | 9 => s.readSpr r
    | 12 => s.readDrm r
    | 13 => s.readFls r
    | 14 => s.readInt r
    | 15 => s.readFlt r
    | 16 => s.readDet r
    | 17 => s.readEp r
    | 18 => s.readTam r
    | 19 => s.readSec r
    | 20 => s.readPwr r
    | 21 => s.readAge r
    | _ => s.readPrt r

/-- Allotment `n` reaches an extent now. -/
def State.reaches (s : State) (n e : Nat) : Bool :=
  match s.extent e with
  | none => false
  | some x => x.rights n != 0 && match x.revokedAt n with | some r => decide (s.now < r) | none => true

/-- Bits `8 × byte` and up of a value, `width` bytes of them. -/
def part (v byte width : Nat) : Nat := v / 2 ^ (8 * byte) % 2 ^ (8 * width)

/-- An MSI-X table word, or a word of the pending bits (R357). -/
def Ld.msixWord (d : Ld) (word : Nat) : Nat :=
  if word < 512 then
    if word % 4 = 3 then (if d.masked.contains (word / 4) then 1 else 0) else (sget 0 d.table word).toNat
  else if word < 516 then sumN ((List.range 32).map fun i => atB i (d.pend.contains (32 * (word - 512) + i)))
  else 0

/-- 64-bit registers that host software writes, whose halves are not latched: CC_SYNC_VALUE, WIN_APT, WIN_TARGET and
WIN_COMMIT, ALT_EVT_BASE, MXE_DESC, SPR_RCP_ALLOW, QUE_SQ_BASE and QUE_CQ_BASE, DET_REC_MASK, DET_COPY_SRC and DET_COPY_DST,
TAM_EXPORT, SEC_SLOT_ASSIGN and PRT_CODEC. -/
def writable64 (o : Nat) : Bool :=
  [0x10008, 0x90038, 0x100008, 0x100040, 0x100048, 0x130028, 0x160118].contains o ||
  (decide (0x30000 ≤ o) && decide (o < 0x31000) && o % 0x40 == 0x20) || (decide (0x40000 ≤ o) && decide (o < 0x48000)) ||
  (decide (0x48000 ≤ o) && decide (o < 0x48800) && o % 0x20 == 0) || (decide (0x80100 ≤ o) && decide (o < 0x80500)) ||
  (decide (0xA0000 ≤ o) && decide (o < 0xC0000)) || (decide (0x120800 ≤ o) && decide (o < 0x121000))

/-- Where the reads of a BAR0 latch what stands at offset `o` of management BAR0. -/
def latchKey (by_ o : Nat) : Nat := by_ * 2 ^ 32 + o

/-- A read of a register: of a RO 64-bit one, the low half latches the high half, which the next read of the high half
returns and uses up (R53, R471; that it is used up is the model's choice, assumption 54). -/
def State.readAt (s : State) (by_ o width byte n : Nat) : Nat × State :=
  let k := latchKey by_ o
  let v := s.readReg o
  if width != 8 || writable64 o || n == 8 then (part v byte n, s)
  else if byte = 0 then (part v 0 4, { s with readHigh := sins s.readHigh k (BitVec.ofNat 32 (part v 4 4)) })
  else match sfind s.readHigh k with
    | some h => (h.toNat, { s with readHigh := sdel s.readHigh k })
    | none => (part v byte n, s)

/-- A read of a log entry whose 32 B are now `v`: one that includes byte 0 latches all of them, and another returns what
was latched (R471; by the BAR0 that is read, assumption 54). -/
def State.readEntry (s : State) (by_ o v byte n : Nat) : Nat × State :=
  let k := latchKey by_ o
  if byte = 0 then (part v 0 n, { s with readLog := sins s.readLog k (BitVec.ofNat 256 v) })
  else match sfind s.readLog k with
    | some w => (part w.toNat byte n, s)
    | none => (part v byte n, s)

/-- A read of `width` bytes at `off` of BAR0 of allotment `by_`: its value, and the machine after it (R7, R10, R469,
R471, R474). -/
def State.registerRead (s : State) (by_ off width : Nat) : Nat × State :=
  if !s.barOn by_ then (0, s.emit (.unsupported off))
  else if s.sec.recovery && by_ == 0 && !recoveryOffset off then (0, s.regErr 0 off)
  else
    let p := s.place by_ off
    if !p.fits off width then (0, s.regErr by_ off)
    else match p with
      | .reg o w b _ =>
        if by_ != 0 && decide (0x400000 ≤ o) && !s.reaches by_ ((o - 0x400000) / 4) then (0, s)
        else s.readAt by_ o w b width
      | .plog i b => s.readEntry by_ (0xF0800 + 32 * i) (ringEntry s.flt.plog s.flt.plogTotal 64 i) b width
      | .alog n i b =>
        s.readEntry by_ (0xF8000 + 512 * n + 32 * i) (ringEntry (s.allot n).log (s.allot n).logTotal 16 i) b width
      | .msix n b _ =>
        let d := s.ld (s.ldOf n)
        (part (d.msixWord (b / 4) + d.msixWord (b / 4 + 1) * 2 ^ 32) 0 width, s)
      | .window b => (leNat ((List.range width).map fun i => sget 0 s.sec.window (b + i)), s)
      | .cxl => (fld s.fresh.1 0 (8 * width), s.fresh.2)
      | .nothing => (0, s.regErr by_ off)

end Sys2Proof.Machine
end

