-- ==== Sys2Proof/Machine/Registers.lean ====
section
/-! DEFINITION. REGISTER_WRITE: a write to any place of a BAR0, with the rules of access, of field ranges and of reserved
bits (R6 to R10, R468, R469, R472 to R474), and the functions of configuration space that no other command writes. A field
whose value is out of range keeps its value. -/

namespace Sys2Proof.Machine

open Sys2Proof

/-- The field of a written value, or the one in force when the written one is out of range. -/
def kept (old v : Reg32) (lo n a b : Nat) : Nat :=
  if a ≤ fld v lo n ∧ fld v lo n ≤ b then fld v lo n else fld old lo n

/-! ### CC, COL, ALT and WIN -/

/-- CC (R53). -/
def State.writeCc (s : State) (r : Nat) (v : Reg64) : State :=
  match r with
  | 0x8 => { s with cc := { s.cc with syncValue := v } }
  | 0x10 => s.ccCtrl (v.setWidth 32)
  | 0x14 => { s with cc := { s.cc with status := s.cc.status &&& ~~~(v.setWidth 32 &&& 0xF8) } }
  | _ => s

/-- COL (R237). -/
def State.writeCol (s : State) (r : Nat) (v : Reg32) : State :=
  if r = 0 then s.lsShare v
  else if r = 4 then
    { s with col := { s.col with
        budgetErr := w1cB s.col.budgetErr (bitOf v 0), classErr := w1cB s.col.classErr (bitOf v 1)
        cutDone := w1cB s.col.cutDone (bitOf v 4) } }
  else if 0x40 ≤ r ∧ r < 0x80 then s.colClass ((r - 0x40) / 4) v
  else if 0x100 ≤ r ∧ r < 0x200 then
    { s with col := { s.col with ldClass := sput 0xF0000 s.col.ldClass ((r - 0x100) / 4) (v &&& 0xFFFFF) } }
  else if r = 0x200 then s.selectReservation v
  else if 0x1000 ≤ r ∧ r < 0x2000 then s.colBudget ((r - 0x1000) / 4) v
  else s

/-- The base of an event ring: not while it is enabled (R259). -/
def Allot.writeBase (a : Allot) (v : Reg64) : Allot :=
  if bitOf a.evtCtrl 0 then { a with evtCfgErr := true } else { a with evtBase := v &&& ~~~0x3F }

/-- ALT (R84, R259); `off` is the offset as the writer used it. -/
def State.writeAlt (s : State) (off r : Nat) (v : Reg64) : State :=
  let n := r / 0x40
  let w : Reg32 := v.setWidth 32
  match r % 0x40 with
  | 0x0 => s.altBind n w
  | 0x4 => s.modAllot n fun a => { a with bindErr := w1cB a.bindErr (bitOf w 2) }
  | 0x8 => s.altCtrl n w
  | 0x20 => s.modAllot n fun a => a.writeBase v
  | 0x28 => s.evtCtrl n w
  | 0x2C => s.modAllot n fun a => { a with
      evtPostErr := w1cB a.evtPostErr (bitOf w 1), evtCfgErr := w1cB a.evtCfgErr (bitOf w 2) }
  | 0x30 => s.evtPos n off w
  | _ => s

/-- A register of a window with its writable bits (R85). -/
def Window.write (w : Window) (r : Nat) (v : Reg64) : Window :=
  match r with
  | 0x0 => { w with apt := v &&& 0xFFFFE00000 }
  | 0x8 => { w with target := v &&& 0xFFFFFFE00000 }
  | 0x10 => { w with size := v.setWidth 32 &&& 0xFFFFF }
  | _ => { w with ctrl := v.setWidth 32 &&& 0xFFFF00FF }

/-- WIN: the shadow copy, unless a commit is pending (R73, R85). -/
def State.writeWin (s : State) (by_ off r : Nat) (v : Reg64) : State :=
  if r < 0x8000 then
    let a := s.allot (r / 0x200)
    if a.winPend.isSome then s.err by_ 0x05 3 off 0 0xFFFF 0xFFFF
    else
      let k := r % 0x200 / 0x20
      s.setAllot (r / 0x200) { a with
        shadow := sput .init a.shadow k ((sget .init a.shadow k).write (r % 0x20) v) }
  else
    let n := (r - 0x8000) / 0x20
    match r % 0x20 with
    | 0x0 => s.winCommit by_ n off v
    | 0x10 => s.modAllot n fun a => { a with
        winErr := w1cB a.winErr (bitOf v 1), winStale := a.winStale &&& ~~~(BitVec.ofNat 16 (fld v 16 16)) }
    | _ => s

/-! ### DIR, PUB, COD, MXE and SPR -/

/-- DIR (R86). -/
def State.writeDir (s : State) (r : Nat) (v : Reg32) : State :=
  match r with
  | 0x0 => s.dirCtrl v
  | 0x4 => { s with dir := { s.dir with status := w1c s.dir.status v } }
  | 0x20 => s.selectEntry v
  | _ => s

/-- PUB (R106). -/
def State.writePub (s : State) (r : Nat) (v : Reg32) : State :=
  match r with
  | 0x0 => ({ s with ext := { s.ext with ctrl := v &&& 0xFF01 } }).retainTest
  | 0x4 => { s with ext := { s.ext with status := w1c s.ext.status v } }
  | 0xC => s.selectVersion v
  | _ => s

/-- Eight lengths of COD_TBL_LEN go to the load buffer (R175). -/
def loadLengths (m : Sparse Nat) (n : Nat) (v : Reg32) : Sparse Nat :=
  (List.range 8).foldl (fun m i => sput 0 m (8 * n + i) (fld v (4 * i) 4)) m

/-- COD (R175). -/
def State.writeCod (s : State) (r : Nat) (v : Reg32) : State :=
  if r = 0x0 then { s with cod := { s.cod with ctrl := BitVec.ofNat 32 (kept s.cod.ctrl v 0 16 1 1000) } }
  else if r = 0x4 then { s with cod := { s.cod with status := w1c s.cod.status v } }
  else if r = 0x8 then s.grantTable v
  else if r = 0x20 then { s with cod := { s.cod with tblSel := v &&& 0x3FF } }
  else if r = 0x24 then s.tableCtrl v
  else if 0x40 ≤ r ∧ r < 0xC0 then { s with cod := { s.cod with buf := loadLengths s.cod.buf ((r - 0x40) / 4) v } }
  else if r = 0xC0 then s.selectTable v
  else if r = 0xC4 then s.rebind v
  else s

/-- MXE (R200). -/
def State.writeMxe (s : State) (r : Nat) (v : Reg64) : State :=
  let w : Reg32 := v.setWidth 32
  if r = 0x0 then s.missEngines w
  else if r = 0x4 then
    { s with mxe := { s.mxe with
        retiredNew := w1cB s.mxe.retiredNew (bitOf w 0), missWait := w1cB s.mxe.missWait (bitOf w 2)
        retryLimit := w1cB s.mxe.retryLimit (bitOf w 3) } }
  else if r = 0x30 then s.selectEngine w
  else if r = 0x40 then s.selectComposite w
  else if 0x100 ≤ r then { s with mxe := { s.mxe with desc := sput 0 s.mxe.desc ((r - 0x100) / 8) v } }
  else s

/-- SPR (R219). -/
def State.writeSpr (s : State) (r : Nat) (v : Reg64) : State :=
  let w : Reg32 := v.setWidth 32
  if r = 0x0 then
    { s with spr := { s.spr with
        retiredNew := w1cB s.spr.retiredNew (bitOf w 0), retryLimit := w1cB s.spr.retryLimit (bitOf w 2)
        rcpErr := w1cB s.spr.rcpErr (bitOf w 3), pacedFull := w1cB s.spr.pacedFull (bitOf w 4) } }
  else if r = 0x20 then s.selectCore w
  else if r = 0x30 then { s with spr := { s.spr with rcpSel := w &&& 0x3F } }
  else if r = 0x34 then s.recipeCtrl w
  else if r = 0x38 then
    { s with spr := { s.spr with allow := sput (BitVec.allOnes 64) s.spr.allow (fld s.spr.rcpSel 0 6) v } }
  else if 0x200 ≤ r then { s with spr := { s.spr with buf := sput 0 s.spr.buf ((r - 0x200) / 4) w } }
  else s

/-! ### QUE, DRM, FLS, INT and FLT -/

/-- A ring base is written: not while the queue is enabled (R239, R258). -/
def State.queBase (s : State) (q : Nat) (f : Queue → Queue) : State :=
  s.modQueue q fun x => if x.state = 0 then f x else { x with cfgErr := true }

/-- QUE (R258). -/
def State.writeQue (s : State) (r : Nat) (v : Reg64) : State :=
  let q := r / 0x20
  let w : Reg32 := v.setWidth 32
  match r % 0x20 with
  | 0x0 => s.queBase q fun x => { x with sqBase := v &&& ~~~0x3F }
  | 0x8 => s.queBase q fun x => { x with cqBase := v &&& ~~~0x1F }
  | 0x10 => s.queCtrl q w
  | 0x14 => s.queOwner q w
  | 0x18 => s.modQueue q fun x => { x with
      fetchErr := w1cB x.fetchErr (bitOf w 3), postErr := w1cB x.postErr (bitOf w 4)
      cfgErr := w1cB x.cfgErr (bitOf w 5), assignErr := w1cB x.assignErr (bitOf w 6) }
  | _ => s

/-- DRM (R126, R113). -/
def State.writeDrm (s : State) (r : Nat) (v : Reg32) : State :=
  if r = 0x0 then
    let c := s.drm.ctrl
    { s with drm := { s.drm with ctrl := BitVec.ofNat 32 (kept c v 0 4 1 8 +
        at_ 4 4 (kept c v 4 4 0 8) + at_ 8 8 (kept c v 8 8 1 255)) } }
  else if r = 0x4 then
    { s with drm := { s.drm with
        retiredNew := w1cB s.drm.retiredNew (bitOf v 1), dataLost := w1cB s.drm.dataLost (bitOf v 4) } }
  else if r = 0x10 then s.selectChannel v
  else if 0x40 ≤ r ∧ r < 0x80 then
    let i := (r - 0x40) / 4
    let x := kept (sget 0x3E8 s.drm.target i) v 0 16 400 1000
    { s with drm := { s.drm with target := sput 0x3E8 s.drm.target i (BitVec.ofNat 32 x) } }
  else s

/-- A threshold that is lowered to what has been used is reached (R138). -/
def State.warnTest (s : State) (old : Nat) : State :=
  let used := endurance s.fls.hostProg
  if used < old ∧ fld s.fls.ctrl 0 10 ≤ used then
    ({ s with fls := { s.fls with warn := true } }).fault0 7 0x73 0
  else s

/-- FLS (R151). -/
def State.writeFls (s : State) (r : Nat) (v : Reg32) : State :=
  match r with
  | 0x0 =>
    let c := s.fls.ctrl
    ({ s with fls := { s.fls with ctrl := BitVec.ofNat 32 (kept c v 0 10 1 999 +
        at_ 10 3 (kept c v 10 3 1 4)) } }).warnTest (fld c 0 10)
  | 0x4 =>
    { s with fls := { s.fls with
        retiredNew := w1cB s.fls.retiredNew (bitOf v 1), dataLost := w1cB s.fls.dataLost (bitOf v 2)
        warn := w1cB s.fls.warn (bitOf v 4) } }
  | 0x40 => s.selectDie v
  | _ => s

/-- INT (R306). -/
def State.writeInt (s : State) (r : Nat) (v : Reg32) : State :=
  match r with
  | 0x0 =>
    let c := s.int.ctrl
    { s with int := { s.int with ctrl := BitVec.ofNat 32 (kept c v 0 16 1 65535 +
        at_ 16 12 (kept c v 16 12 1 3600)) } }
  | 0x4 => { s with int := { s.int with status := w1c s.int.status v } }
  | 0x8 => { s with int := { s.int with scrub := BitVec.ofNat 32 (kept s.int.scrub v 0 8 1 168) } }
  | 0x48 => s.selectBucket v
  | _ => s

/-- Whether the sequence that a reset starts finishes is a free value. -/
def State.withFinish (s : State) (f : State → Bool → State) : State :=
  let (b, s) := s.fresh
  f s (bitOf b 0)

/-- FLT (R325). -/
def State.writeFlt (s : State) (r : Nat) (v : Reg32) : State :=
  match r with
  | 0x0 => { s with flt := { s.flt with ctrl := v &&& 3 } }
  | 0x4 =>
    { s with flt := { s.flt with
        sramHard := w1cB s.flt.sramHard (bitOf v 2), stateLost := w1cB s.flt.stateLost (bitOf v 3)
        allotFaulted := w1cB s.flt.allotFaulted (bitOf v 4), plogWrapped := w1cB s.flt.plogWrapped (bitOf v 5) } }
  | 0x8 => s.withFinish fun s b => s.fltReset v b
  | _ => s

/-! ### DET, EP, TAM, SEC, PWR, AGE and PRT -/

/-- DET (R341). -/
def State.writeDet (s : State) (r : Nat) (v : Reg64) : State :=
  let w : Reg32 := v.setWidth 32
  match r with
  | 0x0 => s.detCtrl w
  | 0x4 =>
    { s with det := { s.det with
        overrun := w1cB s.det.overrun (bitOf w 1), wrapped := w1cB s.det.wrapped (bitOf w 2)
        skippedBit := w1cB s.det.skippedBit (bitOf w 5), unsynced := w1cB s.det.unsynced (bitOf w 6)
        copyDone := w1cB s.det.copyDone (bitOf w 7), copyErr := w1cB s.det.copyErr (bitOf w 8) } }
  | 0x8 => { s with det := { s.det with mask := v } }
  | 0x40 => { s with det := { s.det with copySrc := v &&& 0xFFFFFFFFFF } }
  | 0x48 => { s with det := { s.det with copyDst := v &&& 0xFFFFFFFFFFFF } }
  | 0x50 => { s with det := { s.det with copyLen := BitVec.ofNat 32 (kept s.det.copyLen w 0 16 1 65535) } }
  | 0x54 => s.logCopy w
  | _ => s

/-- EP (R367). -/
def State.writeEp (s : State) (r : Nat) (v : Reg32) : State :=
  match r with
  | 0x0 => { s with ep := { s.ep with ctrl := v &&& 1 } }
  | 0x4 =>
    { s with ep := { s.ep with
        ideFail := w1cB s.ep.ideFail (bitOf v 1), linkChange := w1cB s.ep.linkChange (bitOf v 2) } }
  | 0x10 => s.selectPort v
  | 0x20 => s.selectLd v
  | _ => s

/-- TAM (R389). -/
def State.writeTam (s : State) (r : Nat) (v : Reg64) : State :=
  let w : Reg32 := v.setWidth 32
  if r = 0x0 then s.tamCtrl w
  else if r = 0x4 then { s with tam := { s.tam with status := w1c s.tam.status w } }
  else if r = 0xC then s.tamPair w
  else if r = 0x10 then s.selectTam w
  else if 0x100 ≤ r ∧ r < 0x200 then
    { s with tam := { s.tam with route := sput 0 s.tam.route ((r - 0x100) / 4) (w &&& 0x3F3F3F3F) } }
  else if 0x800 ≤ r then
    { s with tam := { s.tam with export_ := sput 0 s.tam.export_ ((r - 0x800) / 8) (v &&& 0xFF07FFFF) } }
  else s

/-- Four bytes into a byte buffer. -/
def bytesInto (m : Sparse Byte) (o n : Nat) (v : Reg64) : Sparse Byte :=
  (List.range n).foldl (fun m i => sput 0 m (o + i) (byteOf v i)) m

/-- SEC (R412). -/
def State.writeSec (s : State) (r : Nat) (v : Reg64) : State :=
  let w : Reg32 := v.setWidth 32
  if 0x8000 ≤ r then { s with sec := { s.sec with cfgBuf := bytesInto s.sec.cfgBuf (r - 0x8000) 4 v } }
  else
    match r with
    | 0x0 =>
      { s with sec := { s.sec with
          fwRejected := w1cB s.sec.fwRejected (bitOf w 4), slotErr := w1cB s.sec.slotErr (bitOf w 8) } }
    | 0x18 => s.cfgCtrl w
    | 0x20 => s.selectSlot w
    | 0x28 => s.slotMask v
    | 0x34 => s.slotCtrl w
    | 0x40 => { s with sec := { s.sec with rcvLen := w &&& 0x1FFFFFF } }
    | 0x44 => s.withFinish fun s b => s.recoveryGo w b
    | _ => s

/-- PWR (R426). -/
def State.writePwr (s : State) (r : Nat) (v : Reg32) : State :=
  match r with
  | 0x0 =>
    let c := s.pwr.ctrl
    { s with pwr := { s.pwr with ctrl := BitVec.ofNat 32 (fld v 0 1 +
        at_ 8 8 (kept c v 8 8 80 105) + at_ 16 8 (kept c v 16 8 85 108)) } }
  | 0x4 =>
    { s with pwr := { s.pwr with
        thermWarn := w1cB s.pwr.thermWarn (bitOf v 0), tripped := w1cB s.pwr.tripped (bitOf v 2)
        inputLow := w1cB s.pwr.inputLow (bitOf v 3), inputHigh := w1cB s.pwr.inputHigh (bitOf v 4) } }
  | 0x20 => s.selectPower v
  | _ => s

/-- AGE (R427). -/
def State.writeAge (s : State) (r : Nat) (v : Reg32) : State :=
  match r with
  | 0x0 =>
    let c := s.pwr.ageCtrl
    { s with pwr := { s.pwr with ageCtrl := BitVec.ofNat 32 (kept c v 0 8 1 90 +
        at_ 8 8 (kept c v 8 8 5 100)) } }
  | 0x4 =>
    { s with pwr := { s.pwr with
        replanDone := w1cB s.pwr.replanDone (bitOf v 1), vmax := w1cB s.pwr.vmax (bitOf v 2)
        calLost := w1cB s.pwr.calLost (bitOf v 4) } }
  | 0x8 => s.selectAge v
  | _ => s

/-- PRT (R438). -/
def State.writePrt (s : State) (r : Nat) (v : Reg64) : State :=
  let w : Reg32 := v.setWidth 32
  if r = 0x0 then s.prtCtrl w
  else if r = 0x4 then
    { s with prt := { s.prt with
        injectDone := w1cB s.prt.injectDone (bitOf w 1), setErr := w1cB s.prt.setErr (bitOf w 2) } }
  else if 0x40 ≤ r ∧ r < 0x80 then s.gateDelay ((r - 0x40) / 4) w
  else if 0x80 ≤ r ∧ r < 0x100 then s.stageEntry ((r - 0x80) / 4) w
  else if r = 0x100 then s.retrain w
  else if r = 0x108 then { s with prt := { s.prt with symLine := w &&& 0x7FFFFFFF } }
  else if r = 0x10C then s.symCtrl w
  else if r = 0x110 then s.corruptLink w
  else if r = 0x118 then s.corruptLength v
  else s

/-! ### The whole map -/

/-- The hint of an extent that the writer reaches, allotment 0 included (R80, R86, R474; assumption 52). -/
def State.writeHint (s : State) (by_ off e : Nat) (v : Reg32) : State :=
  if !s.reaches by_ e then s.err by_ 0x01 3 off 0 0xFFFF 0xFFFF
  else { s with dir := { s.dir with hint := sput 1 s.dir.hint e (v &&& 0xF3) } }

/-- A write of register `r` of a block, by its number: CC to WIN are 1 to 4, DIR to PRT 5 to 22. -/
def State.writeUnit (s : State) (by_ off b r : Nat) (v : Reg64) : State :=
  let w : Reg32 := v.setWidth 32
  match b with
  | 1 => s.writeCc r v
  | 2 => s.writeCol r w
  | 3 => s.writeAlt off r v
  | 4 => s.writeWin by_ off r v
  | 5 => s.writeDir r w
  | 6 => s.writePub r w
  | 7 => s.writeCod r w
  | 8 => s.writeMxe r v
  | 9 => s.writeSpr r v
  | 12 => s.writeDrm r w
  | 13 => s.writeFls r w
  | 14 => s.writeInt r w
  | 15 => s.writeFlt r w
  | 16 => s.writeDet r v
  | 17 => s.writeEp r w
  | 18 => s.writeTam r v
  | 19 => s.writeSec r v
  | 20 => s.writePwr r w
  | 21 => s.writeAge r w
  | 22 => s.writePrt r v
  | _ => s

/-- GEN's one writable bit is STARTUP_LATE (R468). -/
def State.writeGen (s : State) (r : Nat) (v : Reg32) : State :=
  if r = 4 then { s with gen := { s.gen with late := w1cB s.gen.late (bitOf v 3) } } else s

/-- Registers whose writable bits are all RW1C. -/
def clears (o : Nat) : Bool :=
  [0x4, 0x10014, 0x20004, 0x50004, 0x60004, 0x70004, 0x80004, 0x90000, 0xC0004, 0xD0004, 0xE0004, 0xF0004, 0x100004,
    0x110004, 0x120004, 0x130000, 0x140004, 0x150004, 0x160004].contains o ||
  (decide (0x30000 ≤ o) && decide (o < 0x31000) && (o % 0x40 == 4 || o % 0x40 == 0x2C)) ||
  (decide (0x48000 ≤ o) && decide (o < 0x48800) && o % 0x20 == 0x10) ||
  (decide (0xA0000 ≤ o) && decide (o < 0xC0000) && o % 0x20 == 0x18)

/-- What a write clears of RW1C bits: a bit that was not set before the present count stays set (R472; assumption
57). -/
def State.clearing (s : State) (o : Nat) (v : Reg64) : Reg64 :=
  if clears o then v &&& (sget 0 s.old.flags o).setWidth 64 else v

/-- A write of the register that starts at offset `o` of management BAR0 takes effect; `by_` writes it at `off` of its
own BAR0. What is read-only changes nothing. -/
def State.writeReg (s : State) (by_ off o : Nat) (v : Reg64) : State :=
  let v := s.clearing o v
  if 0x400000 ≤ o then s.writeHint by_ off ((o - 0x400000) / 4) (v.setWidth 32)
  else if 0xA0000 ≤ o ∧ o < 0xC0000 then s.writeQue (o - 0xA0000) v
  else if o < 0x10000 then s.writeGen o (v.setWidth 32)
  else s.writeUnit by_ off (o / 0x10000) (o % 0x10000) v

/-- Register that host software only writes: WIN_COMMIT and PRT_CODEC are the 64-bit ones (R9). -/
def writeOnly (o : Nat) : Bool := o == 0x160118 || (decide (0x48000 ≤ o) && decide (o < 0x48800) && o % 0x20 == 0)

/-- The low half that a high-half write takes when none is pending (R9). -/
def State.lowOf (s : State) (o : Nat) : Reg32 :=
  if writeOnly o then sget 0 s.woLow o else BitVec.ofNat 32 (s.readReg o)

/-- The pending low half of a register is used up. -/
def State.dropLow (s : State) (o : Nat) : State := { s with lowHalf := sdel s.lowHalf o }

/-- An access of the right width to a register: at once, or by halves (R9). -/
def State.writeAt (s : State) (by_ off o width byte n : Nat) (v : Reg64) : State :=
  if width = 4 then s.writeReg by_ off o v
  else if n = 8 then (s.wrote64 o (writeOnly o) v).writeReg by_ (off - byte) o v
  else if byte = 0 then
    { s with
      lowHalf := sins s.lowHalf o (v.setWidth 32)
      woLow := if writeOnly o then sput 0 s.woLow o (v.setWidth 32) else s.woLow }
  else
    let low := (sfind s.lowHalf o).getD (s.lowOf o)
    let v : Reg64 := v.setWidth 32 ++ low
    (s.dropLow o).writeReg by_ (off - byte) o v

/-- A word of an MSI-X table; clearing a mask bit unmasks the vector (R357). -/
def State.msixWrite (s : State) (k word : Nat) (v : Reg32) : State :=
  if 512 ≤ word then s
  else if word % 4 != 3 then s.modLd k fun d => { d with table := sput 0 d.table word v }
  else if bitOf v 0 then
    s.modLd k fun d => { d with masked := if d.masked.contains (word / 4) then d.masked else (word / 4) :: d.masked }
  else s.unmask k (word / 4)

/-- A write of `width` bytes at `off` of BAR0 of allotment `by_`. -/
def State.barWrite (s : State) (by_ off width : Nat) (v : Reg64) : State :=
  let p := s.place by_ off
  if !p.fits off width then s.regErr by_ off
  else match p with
    | .reg o w b rw => if rw then s.writeAt by_ off o w b width v else s
    | .msix n b rw =>
      if !rw then s
      else
        let s := s.msixWrite (s.ldOf n) (b / 4) (v.setWidth 32)
        if width = 8 then s.msixWrite (s.ldOf n) (b / 4 + 1) (BitVec.ofNat 32 (fld v 32 32)) else s
    | .window b => { s with sec := { s.sec with window := bytesInto s.sec.window b width v } }
    | .plog .. | .alog .. | .cxl => s
    | .nothing => s.regErr by_ off

/-- The switches of a logical device that live in its configuration space and its CXL component registers: bit 4
Mem_Enable, 5 MSI-X Enable, 6 function mask, 8 HDM-DB enable, 9 PME_En, 10 Interrupt Disable; a 1 in bit 11 clears
PME_Status (R104, R347, R357, R358, R364; the word is the model's, assumption 51). -/
def State.configWrite (s : State) (k : Nat) (v : Reg64) : State :=
  s.config k fun s =>
    let s := s.modLd k fun d => { d with
      memEn := bitOf v 4, msix := bitOf v 5, fmask := bitOf v 6, hdmDb := bitOf v 8, pmeEn := bitOf v 9
      intxDis := bitOf v 10, pme := w1cB d.pme (bitOf v 11) }
    let s := s.sendPending k
    match s.allotOf k with
    | some n => s.updIntx n
    | none => s

/-- REGISTER_WRITE: offsets from 2^32 on name the configuration word of logical device `off - 2^32` (assumption 51). -/
def execRegisterWrite (t by_ off width : Nat) (v : Reg64) (s : State) : Host.Outcome State Fault Refusal :=
  let s := s.start t
  if 2 ^ 32 ≤ off then .next (if off < 2 ^ 32 + 128 then s.configWrite (off - 2 ^ 32) v else s)
  else if 64 ≤ by_ then .next s
  else .next (s.viaBar by_ off fun s => s.barWrite by_ off width v)

end Sys2Proof.Machine
end

