-- ==== Sys2Proof/Machine/Dispatch.lean ====
section
/-! DEFINITION. One arm per command of the opcode table: each a direct call of its meaning. -/

namespace Sys2Proof.Machine

open Sys2Proof

def exec (i : Instr) (s : State) : Host.Outcome State Fault Refusal :=
  match i with
  | .load t port ld hpa env => Sys2Proof.Machine.execLoad t port ld hpa env s
  | .store t port ld hpa data be poison env => Sys2Proof.Machine.execStore t port ld hpa data be poison env s
  | .peerRead t port ld off len req env => Sys2Proof.Machine.execPeerRead t port ld off len req env s
  | .peerWrite t port ld off len req data poison env => Sys2Proof.Machine.execPeerWrite t port ld off len req data poison env s
  | .meterRelease t env => Sys2Proof.Machine.execMeterRelease t env s
  | .urgencyRaise t id => Sys2Proof.Machine.execUrgencyRaise t id s
  | .mergeBufferFill t frame span env => Sys2Proof.Machine.execMergeBufferFill t frame span env s
  | .mergeFlushAge t frame span env => Sys2Proof.Machine.execMergeFlushAge t frame span env s
  | .fillComplete t ext page ver lost env => Sys2Proof.Machine.execFillComplete t ext page ver lost env s
  | .writeBack t frame env => Sys2Proof.Machine.execWriteBack t frame env s
  | .flashReadDone t ext page cw step => Sys2Proof.Machine.execFlashReadDone t ext page cw step s
  | .flashProgramDone t id outcome => Sys2Proof.Machine.execFlashProgramDone t id outcome s
  | .rebuildImage t die => Sys2Proof.Machine.execRebuildImage t die s
  | .relocation t die block n => Sys2Proof.Machine.execRelocation t die block n s
  | .shadowCopy t frame n env => Sys2Proof.Machine.execShadowCopy t frame n env s
  | .synthJobDone t id eng residue env => Sys2Proof.Machine.execSynthJobDone t id eng residue env s
  | .sprigBatchAck t core cmd error env => Sys2Proof.Machine.execSprigBatchAck t core cmd error env s
  | .sprigCoreTimeout t core => Sys2Proof.Machine.execSprigCoreTimeout t core s
  | .stationReport t cmd station env => Sys2Proof.Machine.execStationReport t cmd station env s
  | .pacedRelease t cmd => Sys2Proof.Machine.execPacedRelease t cmd s
  | .heldCompletionWrite t q => Sys2Proof.Machine.execHeldCompletionWrite t q s
  | .completionWriteError t q => Sys2Proof.Machine.execCompletionWriteError t q s
  | .eventWrite t n => Sys2Proof.Machine.execEventWrite t n s
  | .pageWipe t => Sys2Proof.Machine.execPageWipe t s
  | .scrubPassStart t => Sys2Proof.Machine.execScrubPassStart t s
  | .scrubFrame t env => Sys2Proof.Machine.execScrubFrame t env s
  | .bucketLeak t => Sys2Proof.Machine.execBucketLeak t s
  | .refreshDue t ch busy => Sys2Proof.Machine.execRefreshDue t ch busy s
  | .pullInRefresh t ch n busy => Sys2Proof.Machine.execPullInRefresh t ch n busy s
  | .retrainingPause t ch margin hot => Sys2Proof.Machine.execRetrainingPause t ch margin hot s
  | .sweepSlice t ch margin => Sys2Proof.Machine.execSweepSlice t ch margin s
  | .evacuationChunkCopy t ch w => Sys2Proof.Machine.execEvacuationChunkCopy t ch w s
  | .chunkSwitch t ch => Sys2Proof.Machine.execChunkSwitch t ch s
  | .holdupMeasure t us => Sys2Proof.Machine.execHoldupMeasure t us s
  | .shutdownSequence t cause finished => Sys2Proof.Machine.execShutdownSequence t cause finished s
  | .inputLow t mv10 => Sys2Proof.Machine.execInputLow t mv10 s
  | .inputHigh t mv10 => Sys2Proof.Machine.execInputHigh t mv10 s
  | .inputDisconnect t mv10 finished => Sys2Proof.Machine.execInputDisconnect t mv10 finished s
  | .auxLoss t finished => Sys2Proof.Machine.execAuxLoss t finished s
  | .junctionSample t temps => Sys2Proof.Machine.execJunctionSample t temps s
  | .powerGovernorSample t mv10 watts inlet outlet flow => Sys2Proof.Machine.execPowerGovernorSample t mv10 watts inlet outlet flow s
  | .paceSample t paces => Sys2Proof.Machine.execPaceSample t paces s
  | .replanPeriod t => Sys2Proof.Machine.execReplanPeriod t s
  | .replanMeasureDone t meas refs raises => Sys2Proof.Machine.execReplanMeasureDone t meas refs raises s
  | .planEffective t => Sys2Proof.Machine.execPlanEffective t s
  | .reservationEffective t n cls => Sys2Proof.Machine.execReservationEffective t n cls s
  | .launchCountReached t cmd env => Sys2Proof.Machine.execLaunchCountReached t cmd env s
  | .waitCountReached t cmd => Sys2Proof.Machine.execWaitCountReached t cmd s
  | .countRefLoss t => Sys2Proof.Machine.execCountRefLoss t s
  | .countRefReturn t => Sys2Proof.Machine.execCountRefReturn t s
  | .tickLoopLock t toRef => Sys2Proof.Machine.execTickLoopLock t toRef s
  | .countSyncEdge t falling => Sys2Proof.Machine.execCountSyncEdge t falling s
  | .powerUp addr => Sys2Proof.Machine.execPowerUp addr s
  | .mainConversionStart t => Sys2Proof.Machine.execMainConversionStart t s
  | .pwrGood t => Sys2Proof.Machine.execPwrGood t s
  | .modRst t low finished => Sys2Proof.Machine.execModRst t low finished s
  | .watchdogExpiry t finished => Sys2Proof.Machine.execWatchdogExpiry t finished s
  | .bootRom t puf => Sys2Proof.Machine.execBootRom t puf s
  | .dramTrainingDone t failed limpFailed => Sys2Proof.Machine.execDramTrainingDone t failed limpFailed s
  | .restoreDone t => Sys2Proof.Machine.execRestoreDone t s
  | .ready t meas => Sys2Proof.Machine.execReady t meas s
  | .startupLate t => Sys2Proof.Machine.execStartupLate t s
  | .mapLoading t pages => Sys2Proof.Machine.execMapLoading t pages s
  | .perstAssert t port => Sys2Proof.Machine.execPerstAssert t port s
  | .perstDeassert t port => Sys2Proof.Machine.execPerstDeassert t port s
  | .linkDown t port => Sys2Proof.Machine.execLinkDown t port s
  | .linkDegraded t port rate width => Sys2Proof.Machine.execLinkDegraded t port rate width s
  | .linkTrainingRetry t port rate width => Sys2Proof.Machine.execLinkTrainingRetry t port rate width s
  | .hdmDecoderCommit t port ld k dec => Sys2Proof.Machine.execHdmDecoderCommit t port ld k dec s
  | .functionLevelReset t port ld => Sys2Proof.Machine.execFunctionLevelReset t port ld s
  | .quiesce t n => Sys2Proof.Machine.execQuiesce t n s
  | .busMasterClear t port ld => Sys2Proof.Machine.execBusMasterClear t port ld s
  | .busMasterSet t port ld => Sys2Proof.Machine.execBusMasterSet t port ld s
  | .d3hotEntry t port ld => Sys2Proof.Machine.execD3hotEntry t port ld s
  | .d0Entry t port ld => Sys2Proof.Machine.execD0Entry t port ld s
  | .partLowPowerEntry t env => Sys2Proof.Machine.execPartLowPowerEntry t env s
  | .lowPowerExitDone t env => Sys2Proof.Machine.execLowPowerExitDone t env s
  | .memorySpaceEnable t port ld on => Sys2Proof.Machine.execMemorySpaceEnable t port ld on s
  | .msixVectorUnmask t port ld vec => Sys2Proof.Machine.execMsixVectorUnmask t port ld vec s
  | .ideKm t port ld stream ok => Sys2Proof.Machine.execIdeKm t port ld stream ok s
  | .identify t port ld => Sys2Proof.Machine.execIdentify t port ld s
  | .getEventRecords t port ld log => Sys2Proof.Machine.execGetEventRecords t port ld log s
  | .clearEventRecords t port ld log handles => Sys2Proof.Machine.execClearEventRecords t port ld log handles s
  | .getEventInterruptPolicy t port ld => Sys2Proof.Machine.execGetEventInterruptPolicy t port ld s
  | .setEventInterruptPolicy t port ld log vec => Sys2Proof.Machine.execSetEventInterruptPolicy t port ld log vec s
  | .getTimestamp t port ld => Sys2Proof.Machine.execGetTimestamp t port ld s
  | .getSupportedLogs t port ld => Sys2Proof.Machine.execGetSupportedLogs t port ld s
  | .getLog t port ld off len => Sys2Proof.Machine.execGetLog t port ld off len s
  | .identifyMemoryDevice t port ld => Sys2Proof.Machine.execIdentifyMemoryDevice t port ld s
  | .getDynamicCapacityConfiguration t port ld => Sys2Proof.Machine.execGetDynamicCapacityConfiguration t port ld s
  | .getDynamicCapacityExtentList t port ld => Sys2Proof.Machine.execGetDynamicCapacityExtentList t port ld s
  | .addDynamicCapacityResponse t port ld exts => Sys2Proof.Machine.execAddDynamicCapacityResponse t port ld exts s
  | .releaseDynamicCapacity t port ld exts => Sys2Proof.Machine.execReleaseDynamicCapacity t port ld exts s
  | .getLdInfo t port => Sys2Proof.Machine.execGetLdInfo t port s
  | .getLdAllocations t port => Sys2Proof.Machine.execGetLdAllocations t port s
  | .getQosControl t port => Sys2Proof.Machine.execGetQosControl t port s
  | .getQosStatus t port ld => Sys2Proof.Machine.execGetQosStatus t port ld s
  | .getCertificate t port ld off len => Sys2Proof.Machine.execGetCertificate t port ld off len s
  | .challenge t port ld tbs => Sys2Proof.Machine.execChallenge t port ld tbs s
  | .getMeasurements t port ld tbs => Sys2Proof.Machine.execGetMeasurements t port ld tbs s
  | .keyExchange t port ld tbs => Sys2Proof.Machine.execKeyExchange t port ld tbs s
  | .getPqChain t port ld off len => Sys2Proof.Machine.execGetPqChain t port ld off len s
  | .getPqSig t port ld off => Sys2Proof.Machine.execGetPqSig t port ld off s
  | .keyDeliver t port ld session key => Sys2Proof.Machine.execKeyDeliver t port ld session key s
  | .keyForget t port ld session handle => Sys2Proof.Machine.execKeyForget t port ld session handle s
  | .handleExpiry t port ld handle => Sys2Proof.Machine.execHandleExpiry t port ld handle s
  | .getState t => Sys2Proof.Machine.execGetState t s
  | .cfgRecord t off data last => Sys2Proof.Machine.execCfgRecord t off data last s
  | .powerLevel t level => Sys2Proof.Machine.execPowerLevel t level s
  | .wake t port ld => Sys2Proof.Machine.execWake t port ld s
  | .pldmSensorRead t sensor => Sys2Proof.Machine.execPldmSensorRead t sensor s
  | .hello t port peer lead auth fw width => Sys2Proof.Machine.execHello t port peer lead auth fw width s
  | .tamianLinkDown t port width => Sys2Proof.Machine.execTamianLinkDown t port width s
  | .tamianTrainingRetry t port width => Sys2Proof.Machine.execTamianTrainingRetry t port width s
  | .echo t port m => Sys2Proof.Machine.execEcho t port m s
  | .echoReply t port m => Sys2Proof.Machine.execEchoReply t port m s
  | .rttMeasure t => Sys2Proof.Machine.execRttMeasure t s
  | .sync t port m => Sys2Proof.Machine.execSync t port m s
  | .pageRead t port m env => Sys2Proof.Machine.execPageRead t port m env s
  | .pageData t port m => Sys2Proof.Machine.execPageData t port m s
  | .pageWrite t port m => Sys2Proof.Machine.execPageWrite t port m s
  | .openRemote t port m => Sys2Proof.Machine.execOpenRemote t port m s
  | .openReply t port m => Sys2Proof.Machine.execOpenReply t port m s
  | .publishRemote t port m => Sys2Proof.Machine.execPublishRemote t port m s
  | .publishReply t port m => Sys2Proof.Machine.execPublishReply t port m s
  | .closeRemote t port m => Sys2Proof.Machine.execCloseRemote t port m s
  | .revoked t port m => Sys2Proof.Machine.execRevoked t port m s
  | .mirror t m => Sys2Proof.Machine.execMirror t m s
  | .mirrorAck t m => Sys2Proof.Machine.execMirrorAck t m s
  | .pairOp t m => Sys2Proof.Machine.execPairOp t m s
  | .heartbeat t m => Sys2Proof.Machine.execHeartbeat t m s
  | .heartbeatSend t => Sys2Proof.Machine.execHeartbeatSend t s
  | .partnerLoss t => Sys2Proof.Machine.execPartnerLoss t s
  | .resilverPage t m => Sys2Proof.Machine.execResilverPage t m s
  | .tamianRequestTimeout t tag => Sys2Proof.Machine.execTamianRequestTimeout t tag s
  | .closeRemoteResend t ext => Sys2Proof.Machine.execCloseRemoteResend t ext s
  | .pageWriteDiscard t src ext => Sys2Proof.Machine.execPageWriteDiscard t src ext s
  | .publishCommit t cmd => Sys2Proof.Machine.execPublishCommit t cmd s
  | .bisnpResponse t port ld lines => Sys2Proof.Machine.execBisnpResponse t port ld lines s
  | .revokeComplete t cmd => Sys2Proof.Machine.execRevokeComplete t cmd s
  | .resizeMoveComplete t ext env => Sys2Proof.Machine.execResizeMoveComplete t ext env s
  | .snapshotRelease t cmd => Sys2Proof.Machine.execSnapshotRelease t cmd s
  | .keyEraseFlashDone t => Sys2Proof.Machine.execKeyEraseFlashDone t s
  | .lifeRecordSummary t => Sys2Proof.Machine.execLifeRecordSummary t s
  | .hashWindowClose t n => Sys2Proof.Machine.execHashWindowClose t n s
  | .replayBufferDrain t bytes => Sys2Proof.Machine.execReplayBufferDrain t bytes s
  | .replayInject t env => Sys2Proof.Machine.execReplayInject t env s
  | .logCopyDone t => Sys2Proof.Machine.execLogCopyDone t s
  | .packetFetch t q n delivered env => Sys2Proof.Machine.execPacketFetch t q n delivered env s
  | .fetchError t q => Sys2Proof.Machine.execFetchError t q s
  | .fill t q p env => Sys2Proof.Machine.execFill t q p env s
  | .copy t q p env => Sys2Proof.Machine.execCopy t q p env s
  | .compare t q p env => Sys2Proof.Machine.execCompare t q p env s
  | .reduce t q p env => Sys2Proof.Machine.execReduce t q p env s
  | .scatterAdd t q p env => Sys2Proof.Machine.execScatterAdd t q p env s
  | .gather t q p env => Sys2Proof.Machine.execGather t q p env s
  | .recipe t q p env => Sys2Proof.Machine.execRecipe t q p env s
  | .matmul t q p env => Sys2Proof.Machine.execMatmul t q p env s
  | .synth t q p env => Sys2Proof.Machine.execSynth t q p env s
  | .hint t q p env => Sys2Proof.Machine.execHint t q p env s
  | .pin t q p env => Sys2Proof.Machine.execPin t q p env s
  | .unpin t q p env => Sys2Proof.Machine.execUnpin t q p env s
  | .pageIn t q p env => Sys2Proof.Machine.execPageIn t q p env s
  | .pageOut t q p env => Sys2Proof.Machine.execPageOut t q p env s
  | .open_ t q p env => Sys2Proof.Machine.execOpen t q p env s
  | .publish t q p env => Sys2Proof.Machine.execPublish t q p env s
  | .close t q p env => Sys2Proof.Machine.execClose t q p env s
  | .snapshot t q p env => Sys2Proof.Machine.execSnapshot t q p env s
  | .drain t q p env => Sys2Proof.Machine.execDrain t q p env s
  | .restore t q p env => Sys2Proof.Machine.execRestore t q p env s
  | .grant t q p env => Sys2Proof.Machine.execGrant t q p env s
  | .revoke t q p env => Sys2Proof.Machine.execRevoke t q p env s
  | .resize t q p env => Sys2Proof.Machine.execResize t q p env s
  | .query t q p env => Sys2Proof.Machine.execQuery t q p env s
  | .reserve t q p env => Sys2Proof.Machine.execReserve t q p env s
  | .release t q p env => Sys2Proof.Machine.execRelease t q p env s
  | .fence t q p env => Sys2Proof.Machine.execFence t q p env s
  | .waitCount t q p env => Sys2Proof.Machine.execWaitCount t q p env s
  | .mark t q p env => Sys2Proof.Machine.execMark t q p env s
  | .keyLoad t q p env => Sys2Proof.Machine.execKeyLoad t q p env s
  | .keyDrop t q p env => Sys2Proof.Machine.execKeyDrop t q p env s
  | .planSet t q p env => Sys2Proof.Machine.execPlanSet t q p env s
  | .powerSet t q p env => Sys2Proof.Machine.execPowerSet t q p env s
  | .replan t q p env => Sys2Proof.Machine.execReplan t q p env s
  | .altReset t q p env => Sys2Proof.Machine.execAltReset t q p env s
  | .calendarSet t q p env => Sys2Proof.Machine.execCalendarSet t q p env s
  | .testOpen t q p env => Sys2Proof.Machine.execTestOpen t q p env s
  | .replay t q p env => Sys2Proof.Machine.execReplay t q p env s
  | .fwStage t q p env => Sys2Proof.Machine.execFwStage t q p env s
  | .doorbell t n off width v => Sys2Proof.Machine.execDoorbell t n off width v s
  | .evtHead t by_ n v => Sys2Proof.Machine.execEvtHead t by_ n v s
  | .evtEnable t by_ n v => Sys2Proof.Machine.execEvtEnable t by_ n v s
  | .queEnable t by_ q v => Sys2Proof.Machine.execQueEnable t by_ q v s
  | .queRestart t by_ q v => Sys2Proof.Machine.execQueRestart t by_ q v s
  | .queOwner t q v => Sys2Proof.Machine.execQueOwner t q v s
  | .altBind t n v => Sys2Proof.Machine.execAltBind t n v s
  | .altCtrl t n v => Sys2Proof.Machine.execAltCtrl t n v s
  | .winCommit t by_ n v => Sys2Proof.Machine.execWinCommit t by_ n v s
  | .winCommitCountReached t n => Sys2Proof.Machine.execWinCommitCountReached t n s
  | .dirCtrl t v => Sys2Proof.Machine.execDirCtrl t v s
  | .dirEntrySel t v => Sys2Proof.Machine.execDirEntrySel t v s
  | .pubSel t v => Sys2Proof.Machine.execPubSel t v s
  | .codExtSel t v => Sys2Proof.Machine.execCodExtSel t v s
  | .mxeEngSel t v => Sys2Proof.Machine.execMxeEngSel t v s
  | .mxeCompSel t v => Sys2Proof.Machine.execMxeCompSel t v s
  | .sprCoreSel t v => Sys2Proof.Machine.execSprCoreSel t v s
  | .colResSel t v => Sys2Proof.Machine.execColResSel t v s
  | .drmChSel t v => Sys2Proof.Machine.execDrmChSel t v s
  | .flsDieSel t v => Sys2Proof.Machine.execFlsDieSel t v s
  | .intChSel t v => Sys2Proof.Machine.execIntChSel t v s
  | .epPortSel t v => Sys2Proof.Machine.execEpPortSel t v s
  | .epLdSel t v => Sys2Proof.Machine.execEpLdSel t v s
  | .tamPortSel t v => Sys2Proof.Machine.execTamPortSel t v s
  | .secSlotSel t v => Sys2Proof.Machine.execSecSlotSel t v s
  | .pwrDomSel t v => Sys2Proof.Machine.execPwrDomSel t v s
  | .ageDomSel t v => Sys2Proof.Machine.execAgeDomSel t v s
  | .tableLoad t v => Sys2Proof.Machine.execTableLoad t v s
  | .codGrantTable t v => Sys2Proof.Machine.execCodGrantTable t v s
  | .codExtTable t v => Sys2Proof.Machine.execCodExtTable t v s
  | .recipeLoad t v => Sys2Proof.Machine.execRecipeLoad t v s
  | .recipeClear t v => Sys2Proof.Machine.execRecipeClear t v s
  | .missEngines t v => Sys2Proof.Machine.execMissEngines t v s
  | .lsShare t v => Sys2Proof.Machine.execLsShare t v s
  | .colBudget t idx v => Sys2Proof.Machine.execColBudget t idx v s
  | .colClass t c v => Sys2Proof.Machine.execColClass t c v s
  | .syncArm t v => Sys2Proof.Machine.execSyncArm t v s
  | .syncSend t v => Sys2Proof.Machine.execSyncSend t v s
  | .takeover t v => Sys2Proof.Machine.execTakeover t v s
  | .rejoin t v => Sys2Proof.Machine.execRejoin t v s
  | .fltReset t v finished => Sys2Proof.Machine.execFltReset t v finished s
  | .cfgCommit t v => Sys2Proof.Machine.execCfgCommit t v s
  | .secSlotAssign t v => Sys2Proof.Machine.execSecSlotAssign t v s
  | .slotErase t v => Sys2Proof.Machine.execSlotErase t v s
  | .recoveryLoad t v finished => Sys2Proof.Machine.execRecoveryLoad t v finished s
  | .detCtrl t v => Sys2Proof.Machine.execDetCtrl t v s
  | .logCopy t v => Sys2Proof.Machine.execLogCopy t v s
  | .testClose t v => Sys2Proof.Machine.execTestClose t v s
  | .prtGateDelay t lane v => Sys2Proof.Machine.execPrtGateDelay t lane v s
  | .prtStage t idx v => Sys2Proof.Machine.execPrtStage t idx v s
  | .prtRetrain t v => Sys2Proof.Machine.execPrtRetrain t v s
  | .symbolInject t v => Sys2Proof.Machine.execSymbolInject t v s
  | .prtLink t v => Sys2Proof.Machine.execPrtLink t v s
  | .prtCodec t v => Sys2Proof.Machine.execPrtCodec t v s
  | .registerWrite t by_ off width v => Sys2Proof.Machine.execRegisterWrite t by_ off width v s
  | .eventWriteError t n => Sys2Proof.Machine.execEventWriteError t n s
  | .linkUp t port rate width => Sys2Proof.Machine.execLinkUp t port rate width s
  | .slewComplete t => Sys2Proof.Machine.execSlewComplete t s
  | .flitReplayRequest t port seq => Sys2Proof.Machine.execFlitReplayRequest t port seq s
  | .reservedMessageType t port m => Sys2Proof.Machine.execReservedMessageType t port m s
  | .endSession t port ld session => Sys2Proof.Machine.execEndSession t port ld session s
  | .modRstRelease t => Sys2Proof.Machine.execModRstRelease t s

end Sys2Proof.Machine
end

