-- ==== Sys2Proof/Machine/Step.lean ====
section
/-! DEFINITION. One step: the command at the front of the queue, or one tick of the count when the
queue is empty (assumption 1). -/

namespace Sys2Proof.Machine

open Sys2Proof

/-- Take the first waiting command and give it its meaning on the machine with the queue's rest. On an
empty queue the count ticks, and what waited for that goes on (DESIGN CHOICE, assumption 1). -/
def step (s : State) : Host.Outcome State Fault Refusal :=
  match s.pending with
  | [] => .next s.idle
  | c :: rest => exec c { s with pending := rest }

/-- The machine with the command that a table word spells put at the front of its queue; no word
spells one. -/
def State.withFetchWord (s : State) (nbits w : Nat) : State :=
  match decodeTableWord nbits w with
  | some c => { s with pending := c :: s.pending }
  | none => s

end Sys2Proof.Machine
end

