-- ==== Sys2Proof/Safety.lean ====
section
/-! DEFINITION. What claims are stated in terms of: the settings that host software gives the part, and the values that
the field tables of the spec admit for them. -/

namespace Sys2Proof.Machine

open Sys2Proof

/-- What no work of the part changes by itself: the registers and buffers that only a write of host software or a
whole-part reset changes (R7, R468), the strap of MGMT_ADDR, the Common Count and whether it runs (R27, R28), and the
queue of waiting commands. -/
structure Settings where
  pending : List Instr
  now : Count
  running : Bool
  addr : BitVec 3
  syncValue : Reg64
  colCtrl : Reg32
  cls : Sparse Reg32
  resSel : Reg32
  dirCtrl : Reg32
  dirSel : Reg32
  pubCtrl : Reg32
  pubSel : Reg32
  codCtrl : Reg32
  grantTable : Reg32
  tblSel : Reg32
  elem : Bool
  tblBuf : Sparse Nat
  tables : Sparse (Bool × Sparse Nat)
  codExtSel : Reg32
  mxeCtrl : Reg32
  desc : Sparse Reg64
  engSel : Reg32
  compSel : Reg32
  rcpSel : Reg32
  rcpBuf : Sparse Reg32
  recipes : Sparse (Sparse Reg32)
  rcpAllow : Sparse Reg64
  coreSel : Reg32
  drmCtrl : Reg32
  target : Sparse Reg32
  chSel : Reg32
  flsCtrl : Reg32
  dieSel : Reg32
  intCtrl : Reg32
  scrub : Reg32
  bucketSel : Reg32
  fltCtrl : Reg32
  detCtrl : Reg32
  mask : Reg64
  copySrc : Reg64
  copyDst : Reg64
  copyLen : Reg32
  epCtrl : Reg32
  portSel : Reg32
  ldSel : Reg32
  tamCtrl : Reg32
  tamSel : Reg32
  route : Sparse Reg32
  exports : Sparse Reg64
  cfgBuf : Sparse Byte
  slotSel : Reg32
  rcvLen : Reg32
  window : Sparse Byte
  pwrCtrl : Reg32
  domSel : Reg32
  ageCtrl : Reg32
  ageSel : Reg32
  gate : Sparse Reg32
  stage : Sparse Reg32
  symLine : Reg32
  symCtrl : Reg32
  lowHalf : Sparse Reg32
  woLow : Sparse Reg32
  deriving DecidableEq, Repr

/-- The settings of a machine. -/
def State.settings (s : State) : Settings :=
  { pending := s.pending, now := s.cc.now, running := s.cc.running, addr := s.gen.addr
    syncValue := s.cc.syncValue, colCtrl := s.col.ctrl, cls := s.col.cls, resSel := s.col.resSel, dirCtrl := s.dir.ctrl, dirSel := s.dir.sel, pubCtrl := s.ext.ctrl, pubSel := s.ext.sel
    codCtrl := s.cod.ctrl, grantTable := s.cod.grantTable, tblSel := s.cod.tblSel, elem := s.cod.elem
    tblBuf := s.cod.buf, tables := s.cod.slots, codExtSel := s.cod.extSel, mxeCtrl := s.mxe.ctrl, desc := s.mxe.desc
    engSel := s.mxe.engSel, compSel := s.mxe.compSel, rcpSel := s.spr.rcpSel, rcpBuf := s.spr.buf
    recipes := s.spr.slots, rcpAllow := s.spr.allow, coreSel := s.spr.coreSel, drmCtrl := s.drm.ctrl
    target := s.drm.target, chSel := s.drm.chSel, flsCtrl := s.fls.ctrl, dieSel := s.fls.dieSel
    intCtrl := s.int.ctrl, scrub := s.int.scrub, bucketSel := s.int.chSel, fltCtrl := s.flt.ctrl
    detCtrl := s.det.ctrl, mask := s.det.mask, copySrc := s.det.copySrc, copyDst := s.det.copyDst
    copyLen := s.det.copyLen, epCtrl := s.ep.ctrl, portSel := s.ep.portSel, ldSel := s.ep.ldSel
    tamCtrl := s.tam.ctrl, tamSel := s.tam.portSel, route := s.tam.route, exports := s.tam.export_
    cfgBuf := s.sec.cfgBuf, slotSel := s.sec.slotSel, rcvLen := s.sec.rcvLen, window := s.sec.window
    pwrCtrl := s.pwr.ctrl, domSel := s.pwr.domSel, ageCtrl := s.pwr.ageCtrl, ageSel := s.pwr.ageSel
    gate := s.prt.gate, stage := s.prt.stage, symLine := s.prt.symLine, symCtrl := s.prt.symCtrl
    lowHalf := s.lowHalf, woLow := s.woLow }

/-- The field of `n` bits at `lo` lies from `a` to `b`. -/
abbrev within (v : Reg32) (lo n a b : Nat) : Prop := a ≤ fld v lo n ∧ fld v lo n ≤ b

/-- A class register holds a kind that R237 defines and no reserved bit. -/
abbrev classLegal (v : Reg32) : Prop := v &&& ~~~0x73 = 0 ∧ fld v 0 2 ≠ 3

/-- The values that the field tables admit for the settings: every field within its range, every reserved bit 0
(R5, R86, R106, R126, R151, R175, R190, R219, R237, R306, R325, R327, R367, R389, R412, R426, R427, R438). -/
structure Settings.Legal (x : Settings) : Prop where
  dirCtrl : 4 ≤ x.dirCtrl.toNat ∧ x.dirCtrl.toNat ≤ 32
  dirSel : x.dirSel &&& ~~~0x1FFFFF = 0
  colCtrl : 100 ≤ x.colCtrl.toNat ∧ x.colCtrl.toNat ≤ 500
  cls : ∀ e ∈ x.cls, classLegal e.2
  resSel : x.resSel &&& ~~~0xF3F = 0
  pubCtrl : x.pubCtrl &&& ~~~0xFF01 = 0
  pubSel : x.pubSel &&& ~~~0x3FFFFF = 0
  codCtrl : 1 ≤ x.codCtrl.toNat ∧ x.codCtrl.toNat ≤ 1000
  grantTable : x.grantTable &&& ~~~0x3FF = 0
  tblSel : x.tblSel &&& ~~~0x3FF = 0
  codExtSel : x.codExtSel &&& ~~~0xFFFF = 0
  mxeCtrl : x.mxeCtrl.toNat ≤ 16
  engSel : x.engSel.toNat ≤ 35
  compSel : x.compSel &&& ~~~0xFFFF = 0
  coreSel : x.coreSel.toNat ≤ 4223
  rcpSel : x.rcpSel &&& ~~~0x3F = 0
  drmCtrl : within x.drmCtrl 0 4 1 8 ∧ within x.drmCtrl 4 4 0 8 ∧ within x.drmCtrl 8 8 1 255 ∧ fld x.drmCtrl 16 16 = 0
  chSel : x.chSel.toNat ≤ 71
  flsCtrl : within x.flsCtrl 0 10 1 999 ∧ within x.flsCtrl 10 3 1 4 ∧ fld x.flsCtrl 13 19 = 0
  dieSel : x.dieSel &&& ~~~0x1FF = 0
  intCtrl : within x.intCtrl 0 16 1 65535 ∧ within x.intCtrl 16 12 1 3600 ∧ fld x.intCtrl 28 4 = 0
  scrub : 1 ≤ x.scrub.toNat ∧ x.scrub.toNat ≤ 168
  bucketSel : x.bucketSel.toNat ≤ 71
  fltCtrl : x.fltCtrl &&& ~~~3 = 0
  detCtrl : within x.detCtrl 8 6 16 40 ∧ fld x.detCtrl 5 3 = 0 ∧ fld x.detCtrl 14 18 = 0
  epCtrl : x.epCtrl &&& ~~~1 = 0
  portSel : x.portSel &&& ~~~7 = 0
  ldSel : x.ldSel &&& ~~~0xF7 = 0
  tamCtrl : x.tamCtrl &&& ~~~0x000F0106 = 0
  tamSel : x.tamSel &&& ~~~3 = 0
  slotSel : x.slotSel &&& ~~~0xFF = 0
  pwrCtrl : within x.pwrCtrl 8 8 80 105 ∧ within x.pwrCtrl 16 8 85 108 ∧ fld x.pwrCtrl 1 7 = 0 ∧
    fld x.pwrCtrl 24 8 = 0
  domSel : x.domSel &&& ~~~0x3F = 0
  ageCtrl : within x.ageCtrl 0 8 1 90 ∧ within x.ageCtrl 8 8 5 100 ∧ fld x.ageCtrl 16 16 = 0
  ageSel : x.ageSel &&& ~~~0x3F = 0
  symLine : x.symLine &&& ~~~0x7FFFFFFF = 0
  symCtrl : x.symCtrl &&& ~~~0x7F3F = 0

/-- What a command meets holds no fault of on-die SRAM and no link failure (R118, R302). -/
def quietEnv (env : ReadEnv) : Prop := env.parity = [] ∧ env.linkFails = [] ∧ env.writeFails = []

/-- No request of an ordered tie waits, and none is held back behind an earlier one (R20, R329). -/
def State.unheld (s : State) : Prop := s.ties = [] ∧ ∀ r ∈ s.waiting, r.wait ≠ Wait.order

/-- Management BAR0 decodes every block: allotment 0 is served, and the part is not in recovery state (R347, R361,
R394, R461). -/
def State.managed (s : State) : Prop := s.barOn 0 = true ∧ s.sec.recovery = false

/-- The commands that may change a setting: the writes of settings registers, the loads of the count, the resets and
losses of power, and a command that the partner sends as a whole (R7, R28, R30, R376, R468). -/
def setsSettings : Instr → Bool
  | .shutdownSequence .. | .inputDisconnect .. | .auxLoss .. | .junctionSample .. | .tickLoopLock ..
  | .countSyncEdge .. | .powerUp .. | .modRst .. | .watchdogExpiry .. | .sync .. | .pairOp .. | .winCommit ..
  | .dirCtrl .. | .dirEntrySel .. | .pubSel .. | .codExtSel .. | .mxeEngSel .. | .mxeCompSel .. | .sprCoreSel ..
  | .colResSel .. | .drmChSel .. | .flsDieSel .. | .intChSel .. | .epPortSel .. | .epLdSel .. | .tamPortSel ..
  | .secSlotSel .. | .pwrDomSel .. | .ageDomSel .. | .tableLoad .. | .codGrantTable .. | .recipeLoad ..
  | .recipeClear .. | .missEngines .. | .lsShare .. | .colClass .. | .syncSend .. | .fltReset ..
  | .secSlotAssign .. | .recoveryLoad .. | .detCtrl .. | .testClose .. | .prtGateDelay .. | .prtStage ..
  | .symbolInject .. | .prtCodec .. | .registerWrite .. => true
  | _ => false

end Sys2Proof.Machine
end

