-- ==== Sys2Proof/Certificates/Slice0/Obligations.lean ====
section
/-! DEFINITION. Statements for the provers: what the commands do to the state, command by command, and what every command
keeps. -/

open Sys2Proof Sys2Proof.Machine

/-! ### The block and its queue -/

/-- A step of the block is the meaning of the command at the front of its queue, on the machine with the queue's rest
(the model's form of a block; assumption 1). -/
def Obligations.StepRunsTheFrontCommand : Prop :=
  ∀ (c : Instr) (rest : List Instr) (s : State), s.pending = c :: rest →
    step s = exec c { s with pending := rest }

/-- Time passes (R27, R28, R33, R227; that an empty queue ticks and that a command carries its count are the model's
choices, assumptions 1 and 3). On an empty queue a step is one tick, in which requests of an ordered tie may go on
(R329) and no setting changes; with no tie waiting, nothing but the count, the meter that rises with it, what a slew has
still to remove, the outputs of the last command, and what governs requests of the count that has come (R472) changes.
The count of a running clock without a slew rises by one, and a slew holds it or skips a value at every thousandth tick.
A command begins at its count: the count of a running clock becomes the later of the two and never falls, the outputs of
the last command are gone, the meter rises by the allowance for each tick up to its cap, and requests of a later count
are governed by what now stands; nothing else changes. -/
def Obligations.TimePasses : Prop :=
  (∀ s : State, s.pending = [] → ∃ t, step s = .next t ∧
    t.cc.now = (if s.cc.running then
        if s.cc.slew = 0 ∨ s.cc.slewTick < 999 then s.cc.now + 1
        else if s.cc.slew < 0 then s.cc.now else s.cc.now + 2
      else s.cc.now) ∧
    t.settings = { s.settings with now := t.cc.now } ∧
    (s.ties = [] → t = { s with
      out := []
      cc := { s.cc with now := t.cc.now, slew := t.cc.slew, slewTick := t.cc.slewTick, status := t.cc.status }
      col := { s.col with meter := t.col.meter }
      old := if s.cc.now < t.cc.now then s.governs else s.old })) ∧
  (∀ (s : State) (t : Count),
    s.start t = { s with
      out := []
      cc := { s.cc with now := if s.cc.running then Nat.max s.cc.now t else s.cc.now }
      col := { s.col with meter := (s.start t).col.meter }
      old := if s.cc.running ∧ s.cc.now < t then s.governs else s.old } ∧
    (s.cc.running = false → (s.start t).col.meter = s.col.meter) ∧
    (s.cc.running = true → (s.start t).col.meter =
      min (65536 * 16) (s.col.meter + ((s.plan.cur.allow * (Nat.max s.cc.now t - s.cc.now) : Nat) : Int))))

/-- Every command completes with a next state, but for one: a MOD_RST# pulse of 100 to 999 CC, whose effect R453 calls
undefined, is refused by name, and it always is. -/
def Obligations.EveryCommandCompletes : Prop :=
  ∀ (c : Instr) (s : State),
    (∃ t low f, c = .modRst t low f ∧ 100 ≤ low ∧ low < 1000 ∧ exec c s = .refused .undefinedPulse) ∨
    ((∀ t low f, c = .modRst t low f → low < 100 ∨ 1000 ≤ low) ∧ ∃ u, exec c s = .next u)

/-- No command touches the queue of the commands that wait behind it. -/
def Obligations.CommandsKeepTheQueue : Prop :=
  ∀ (c : Instr) (s u : State), exec c s = .next u → u.pending = s.pending

/-- The settings (every register and buffer that host software writes, and nothing else) stay as they are under every
command that is not itself a write of settings, a load of the count, a reset, a loss or return of power, or an
operation that a partner sends: only the count has moved (R7, R468). -/
def Obligations.SettingsAreKept : Prop :=
  ∀ (c : Instr) (s u : State), setsSettings c = false → exec c s = .next u →
    u.settings = { s.settings with now := u.cc.now }

/-- The Common Count never decreases between hard loads (R28): no command lowers it but a sync event, a power-up of the
island, and a loss of the auxiliary supply. -/
def Obligations.CountNeverDecreases : Prop :=
  ∀ (c : Instr) (s u : State), exec c s = .next u →
    (∀ t b, c ≠ .countSyncEdge t b) → (∀ t p m, c ≠ .sync t p m) → (∀ a, c ≠ .powerUp a) →
    (∀ t b, c ≠ .auxLoss t b) → (∀ t b, c ≠ .shutdownSequence t .aux b) → s.cc.now ≤ u.cc.now

/-- Every step keeps the settings within the ranges of the field tables, with every reserved bit 0 (R6 and the field
tables): a range can be left by no write, no reset and no other command. -/
def Obligations.StepsKeepSettingsLegal : Prop :=
  ∀ s u : State, s.settings.Legal → step s = .next u → u.settings.Legal

/-- The settings of the machine after reset are legal (R468). -/
def Obligations.SettingsLegalAtReset : Prop := State.reset.settings.Legal

/-! ### Arithmetic that the spec states -/

/-- The expansion of a 48-bit count against a stamp: the one value with those low 48 bits in the window of R34. -/
def Obligations.ExpandedCountIsTheOneInItsWindow : Prop :=
  ∀ S v : Nat, v < 2 ^ 48 →
    (∀ E : Nat, E = expand48 S v ↔
      E % 2 ^ 48 = v ∧ (if S < 2 ^ 47 then E < 2 ^ 48 else S ≤ E + 2 ^ 47 ∧ E < S + 2 ^ 47)) ∧
    (S + 2 ^ 47 ≤ 2 ^ 64 → expand48 S v < 2 ^ 64)

/-- Where a die sits, and which 16 dies form a parity group: R127. -/
def Obligations.DiesStandWhereTheirNumberSays : Prop :=
  (∀ d, d < 512 →
    dieChannel d = d % 32 ∧ diePackage d = (d / 32) % 4 ∧ diePosition d = d / 128 ∧ dieGroup d < 32 ∧
    ∀ e, e < 512 → dieChannel d = dieChannel e → diePackage d = diePackage e → diePosition d = diePosition e →
      d = e) ∧
  (∀ g d, g < 32 → d < 512 → (dieGroup d = g ↔ d / 32 = g / 2 ∧ (d % 32) / 16 = g % 2)) ∧
  (∀ d, d < 512 → (groupDies d).length = 16 ∧ ((groupDies d).map dieChannel).Nodup)

/-- Where addresses lie (R108, R201): the sliver of a local address, and its spread: within an aligned run of 4,096
spans no two share a sliver, and 32 spans from a multiple of 32 lie in 32 plots; and what a channel holds of a frame of
its group: where the check chunk stands, every line depends on the channel, and elsewhere exactly the 128 lines of the
one data run that stands there. -/
def Obligations.AddressesAreSpread : Prop :=
  (∀ a : Nat, sliver a =
    (a / 65536 ^^^ (a / 65536) / 2 ^ 12 ^^^ (a / 65536) / 2 ^ 24) % 4096) ∧
  (∀ b i j : Nat, i < 4096 → j < 4096 → sliver (65536 * (4096 * b + i)) = sliver (65536 * (4096 * b + j)) → i = j) ∧
  (∀ b i j : Nat, i < 32 → j < 32 →
    sliver (65536 * (32 * b + i)) % 32 = sliver (65536 * (32 * b + j)) % 32 → i = j) ∧
  (∀ f q : Nat, f < 2097152 → q = f / 8 % 9 →
    (lostLines (9 * (f % 8) + q) f = List.range 1024) ∧
    (∀ j, j < 8 → ∀ l, l ∈ lostLines (9 * (f % 8) + (if j < q then j else j + 1)) f ↔ l / 128 = j))

/-! ### Registers: selectors -/

/-- A write of a selector selects, and takes the snapshot of what it selects at its stamp; channels above 71, engines
above 35 and cores above 4,223 are ignored. Nothing else changes (R86, R106, R126, R151, R175, R200, R219, R237, R306,
R367, R389, R412, R426, R427, R472). PE_MEAN of a die is a free value (assumption 24). -/
def Obligations.SelectorsTakeTheirSnapshot : Prop :=
  ∀ (s : State) (t : Count) (v : Reg32), s.managed →
    (exec (.dirEntrySel t v) s = .next { s.start t with dir := { s.dir with
      sel := v &&& 0x1FFFFF, entry := (s.start t).entryWord (v &&& 0x1FFFFF).toNat } }) ∧
    (∀ x, (s.start t).extent (v &&& 0xFFFF).toNat = some x →
      exec (.codExtSel t v) s = .next { s.start t with cod := { s.cod with
        extSel := v &&& 0xFFFF, extTable := x.tableWord
        extBlocks := BitVec.ofNat 64 ((s.start t).blockCounts (v &&& 0xFFFF).toNat x).1
        extLines := BitVec.ofNat 64 ((s.start t).blockCounts (v &&& 0xFFFF).toNat x).2 } }) ∧
    ((s.start t).extent (v &&& 0xFFFF).toNat = none →
      exec (.codExtSel t v) s = .next { s.start t with cod := { s.cod with
        extSel := v &&& 0xFFFF, extTable := 0, extBlocks := 0, extLines := 0 } }) ∧
    (∀ r, (s.start t).reservation (fld (v &&& 0xF3F) 0 6) (fld (v &&& 0xF3F) 8 4) = some r →
      exec (.colResSel t v) s = .next { s.start t with col := { (s.start t).col with
        resSel := v &&& 0xF3F, resRate := r.rates, resHorizon := r.horizons } }) ∧
    ((s.start t).reservation (fld (v &&& 0xF3F) 0 6) (fld (v &&& 0xF3F) 8 4) = none →
      exec (.colResSel t v) s = .next { s.start t with col := { (s.start t).col with
        resSel := v &&& 0xF3F, resRate := List.replicate 9 0, resHorizon := List.replicate 9 0 } }) ∧
    ((v &&& 0x7F).toNat ≤ 71 → exec (.drmChSel t v) s = .next { s.start t with drm := { s.drm with
      chSel := v &&& 0x7F
      chStatus := BitVec.ofNat 64 (let c := s.chan (v &&& 0x7F).toNat;
        at_ 0 3 c.st + at_ 3 3 c.sweep + at_ 6 4 (Nat.min 8 c.owed) + atB 10 c.hot + at_ 16 8 c.margin + at_ 32 16 c.escalations)
      chCounts := BitVec.ofNat 64 (let c := s.chan (v &&& 0x7F).toNat;
        at_ 0 32 c.retrains + at_ 32 16 c.linkRetries + at_ 48 16 c.forced)
      chLast := BitVec.ofNat 64 (s.chan (v &&& 0x7F).toNat).lastChange } }) ∧
    (71 < (v &&& 0x7F).toNat → exec (.drmChSel t v) s = .next (s.start t)) ∧
    (exec (.flsDieSel t v) s = .next { s.start t with
      free := s.free + 1
      fls := { s.fls with
        dieSel := v &&& 0x1FF
        dieStatus := BitVec.ofNat 64 (let d := s.die (v &&& 0x1FF).toNat;
          at_ 0 2 d.st + at_ 16 16 d.badBlocks + at_ 32 16 (fld (Config.freeValue s.free) 0 16) + at_ 48 16 d.recon) } }) ∧
    ((v &&& 0x7F).toNat ≤ 71 → exec (.intChSel t v) s = .next { s.start t with int := { s.int with
      chSel := v &&& 0x7F
      chBucket := BitVec.ofNat 64 (let c := s.chan (v &&& 0x7F).toNat;
        at_ 0 16 c.bucket + at_ 32 16 c.overflows + at_ 48 16 c.hard) } }) ∧
    (71 < (v &&& 0x7F).toNat → exec (.intChSel t v) s = .next (s.start t)) ∧
    (∀ x, (s.start t).extent (fld (v &&& 0x3FFFFF) 0 16) = some x →
      exec (.pubSel t v) s = .next { s.start t with ext := { s.ext with
        sel := v &&& 0x3FFFFF, extent := x.versionWord
        view := (s.start t).viewWord (fld (v &&& 0x3FFFFF) 0 16) (fld (v &&& 0x3FFFFF) 16 6) x
        oldest := if x.versioned then BitVec.ofNat 32 ((s.start t).oldestHeld (fld (v &&& 0x3FFFFF) 0 16) x)
          else 0 } }) ∧
    ((s.start t).extent (fld (v &&& 0x3FFFFF) 0 16) = none →
      exec (.pubSel t v) s = .next { s.start t with ext := { s.ext with
        sel := v &&& 0x3FFFFF, extent := 0, view := 0, oldest := 0 } }) ∧
    ((v &&& 0x3F).toNat ≤ 35 → exec (.mxeEngSel t v) s = .next { s.start t with mxe := { s.mxe with
      engSel := v &&& 0x3F, engStatus := (s.start t).engineWord (v &&& 0x3F).toNat } }) ∧
    (35 < (v &&& 0x3F).toNat → exec (.mxeEngSel t v) s = .next (s.start t)) ∧
    (exec (.mxeCompSel t v) s = .next { s.start t with mxe := { s.mxe with
      compSel := v &&& 0xFFFF, compTiles := (s.start t).tilesWord (v &&& 0xFFFF).toNat } }) ∧
    ((v &&& 0x1FFF).toNat ≤ 4223 → exec (.sprCoreSel t v) s = .next { s.start t with spr := { s.spr with
      coreSel := v &&& 0x1FFF, coreStatus := (s.start t).coreWord (v &&& 0x1FFF).toNat } }) ∧
    (4223 < (v &&& 0x1FFF).toNat → exec (.sprCoreSel t v) s = .next (s.start t)) ∧
    (exec (.epPortSel t v) s = .next { s.start t with ep := { s.ep with
      portSel := v &&& 7, portStatus := (s.hport (v &&& 7).toNat).word } }) ∧
    (let k := ldKey (fld (v &&& 0xF7) 0 3) (fld (v &&& 0xF7) 4 4);
      exec (.epLdSel t v) s = .next { s.start t with ep := { s.ep with
        ldSel := v &&& 0xF7, ldStatus := (s.start t).ldWord k
        devload := BitVec.ofNat 64
          (sumN ((List.range 4).map fun i => at_ (16 * i) 16 (nth (s.ld k).devload i))) } }) ∧
    (exec (.tamPortSel t v) s = .next { s.start t with tam := { s.tam with
      portSel := v &&& 3, portStatus := (s.tport (v &&& 3).toNat).word } }) ∧
    (let k := s.slot (v &&& 0xFF).toNat;
      exec (.secSlotSel t v) s = .next { s.start t with sec := { s.sec with
        slotSel := v &&& 0xFF, slotAssign := k.assign
        slotStatus := BitVec.ofNat 32 (atB 0 k.loaded +
          at_ 16 16 (Nat.min 65535 ((s.start t).slotBound (v &&& 0xFF).toNat))) } }) ∧
    (let d := s.dom (v &&& 0x3F).toNat;
      exec (.pwrDomSel t v) s = .next { s.start t with pwr := { s.pwr with
        domSel := v &&& 0x3F
        domStatus := BitVec.ofNat 64 (at_ 0 2 (if (s.start t).domainOn (v &&& 0x3F).toNat then 1 else 0) +
          at_ 16 10 d.setpoint + at_ 32 8 d.junction + at_ 40 8 d.peak) } }) ∧
    (exec (.ageDomSel t v) s = .next { s.start t with pwr := { s.pwr with
      ageSel := v &&& 0x3F, ageStatus := (s.dom (v &&& 0x3F).toNat).ageWord } })

/-! ### Registers whose write has conditions -/

/-- The working floor, the code tables and the recipes: a write that passes its check has its effect and one that
fails it sets the error bit of its block and nothing else (R77, R86, R154, R156, R175, R203, R204, R219). A change of a
table, of a binding or of a recipe changes the part's configuration, which `digestUpdate` records (R336). A binding
remembers the slot it replaces, for a write that is stamped at the same count (R156). -/
def Obligations.TableAndRecipeWrites : Prop :=
  ∀ (s u : State) (t : Count) (v : Reg32), s.managed → u = s.start t →
    (4 ≤ fld v 0 6 → fld v 0 6 ≤ 32 → ∀ w : State,
      w = { u with dir := { u.dir with ctrl := BitVec.ofNat 32 (fld v 0 6) } } →
      exec (.dirCtrl t v) s = .next (if w.pinnedLimit < u.pinnedLimit ∧ w.pinnedLimit < u.pinnedHeld then
        { u with dir := { u.dir with status := setBit u.dir.status 0 true } } else w)) ∧
    (fld v 0 6 < 4 ∨ 32 < fld v 0 6 → exec (.dirCtrl t v) s = .next u) ∧
    (∀ k, k = fld u.cod.tblSel 0 10 →
      exec (.tableLoad t v) s = .next (if 2 ≤ k ∧ u.tableBound k = 0 ∧ u.bufferOk = true then
        State.digestUpdate { u with cod := { u.cod with
          elem := bitOf v 1, slots := sins u.cod.slots k (bitOf v 1, u.cod.buf) } }
      else { u with cod := { u.cod with elem := bitOf v 1, status := setBit u.cod.status 1 true } })) ∧
    (exec (.codGrantTable t v) s = .next { u with cod :=
      if (u.codeTable (fld v 0 10)).isSome then { u.cod with grantTable := v &&& 0x3FF }
      else { u.cod with status := setBit u.cod.status 1 true } }) ∧
    (∀ x, u.extent u.cod.extSel.toNat = some x → x.codec = 1 → (u.codeTable (fld v 0 10)).isSome = true →
      x.written = none →
      exec (.codExtTable t v) s = .next (State.digestUpdate { u with
        ext := { u.ext with tbl := sins u.ext.tbl u.cod.extSel.toNat { x with
          slot := fld v 0 10
          rebound := some (u.now, match x.rebound with | some (c, j) => if c = u.now then j else x.slot | none => x.slot) } }
        cod := { u.cod with extTable := setFld u.cod.extTable 0 10 (fld v 0 10) } })) ∧
    ((∀ x, u.extent u.cod.extSel.toNat = some x → x.codec ≠ 1 ∨ (u.codeTable (fld v 0 10)).isSome = false ∨
        x.written ≠ none) →
      exec (.codExtTable t v) s = .next { u with cod := { u.cod with status := setBit u.cod.status 2 true } }) ∧
    (∀ k, k = fld u.spr.rcpSel 0 6 → bitOf v 1 = false →
      exec (.recipeLoad t v) s = .next (if 16 ≤ k ∧ u.recipeUsers k = 0 ∧ imageOk u.spr.buf = true then
        State.digestUpdate { u with spr := { u.spr with
          slots := sins u.spr.slots k u.spr.buf, allow := sput (BitVec.allOnes 64) u.spr.allow k 1 } }
      else { u with spr := { u.spr with rcpErr := true } })) ∧
    (∀ k, k = fld u.spr.rcpSel 0 6 → bitOf v 0 = false →
      exec (.recipeClear t v) s = .next (if 16 ≤ k ∧ u.recipeUsers k = 0 then
        State.digestUpdate { u with spr := { u.spr with slots := sdel u.spr.slots k } }
      else { u with spr := { u.spr with rcpErr := true } }))

/-- The settings of the scheduler and of the MISS engines (R190, R222, R226, R237): a legal value is taken, an
illegal one sets BUDGET_ERR or CLASS_ERR or changes nothing. With a plan in force, a change of MISS_ENGINES or
LS_SHARE goes into a plan with cause MANAGEMENT (4). -/
def Obligations.SchedulerWrites : Prop :=
  ∀ (s u : State) (t : Count) (v : Reg32), s.managed → u = s.start t →
    (fld v 0 5 ≤ 16 → fld v 0 5 ≠ fld u.mxe.ctrl 0 5 → ∀ w : State,
      w = { u with mxe := { u.mxe with ctrl := BitVec.ofNat 32 (fld v 0 5) } } →
      exec (.missEngines t v) s = .next (if u.plan.cur.ver = 0 then w
        else w.issue 4 fun b => { b with miss := fld v 0 5 })) ∧
    (16 < fld v 0 5 ∨ fld v 0 5 = fld u.mxe.ctrl 0 5 → exec (.missEngines t v) s = .next u) ∧
    (∀ n a, n = fld v 0 10 → a = allowOf (nth u.plan.cur.rates 0) n → 100 ≤ n → n ≤ 500 →
      n ≠ fld u.col.ctrl 0 10 → ∀ w : State, w = { u with col := { u.col with ctrl := BitVec.ofNat 32 n } } →
      exec (.lsShare t v) s = .next (
        if a < u.plan.cur.allow ∧ u.plan.cur.ver ≠ 0 ∧ 9 * a < 10 * u.draw then
          { u with col := { u.col with budgetErr := true } }
        else if u.plan.cur.ver = 0 then w
        else w.issue 4 fun b => { b with lsShare := n })) ∧
    (fld v 0 10 < 100 ∨ 500 < fld v 0 10 ∨ fld v 0 10 = fld u.col.ctrl 0 10 → exec (.lsShare t v) s = .next u) ∧
    (∀ i, i < 1024 → ∀ w : State,
      w = { u with col := { u.col with budget := sput 0 u.col.budget i (v &&& 0x0FFF0FFF) } } →
      exec (.colBudget t i v) s = .next (
        if u.plan.cur.ver ≠ 0 ∧ 9 * u.plan.cur.allow < 10 * w.draw ∧ u.draw < w.draw then
          { u with col := { u.col with budgetErr := true } }
        else w)) ∧
    (∀ i, 1024 ≤ i → exec (.colBudget t i v) s = .next u) ∧
    (∀ c, c < 16 → ∀ w : State, w = { u with col := { u.col with cls := sput 0 u.col.cls c (v &&& 0x73) } } →
      exec (.colClass t c v) s = .next (
        if fld v 0 2 = 3 ∨ (fld v 0 2 ≠ 2 ∧ u.kind c = 2 ∧ (u.col.res.any fun r => r.cls == c) = true) then
          { u with col := { u.col with classErr := true } }
        else if fld v 0 2 = 2 ∧ u.kind c ≠ 2 ∧ u.plan.cur.ver ≠ 0 ∧ 9 * u.plan.cur.allow < 10 * w.draw then
          { u with col := { u.col with classErr := true, budgetErr := true } }
        else w)) ∧
    (∀ c, 16 ≤ c → exec (.colClass t c v) s = .next u)

/-- Bindings, apertures and windows (R54 to R56, R73, R74, R84, R85, R351). ALT_BIND of an allotment other than 0
binds it, or sets BIND_ERR when R54 or R56 ignores it; allotment 0's is read-only. ALT_CTRL takes 0 or 21 to 40. A
WIN_COMMIT makes the shadow set pending for its count and not before the next one, or names the first window that
fails; at its count the set is live. A logical device whose Memory Space Enable is 0 takes the aperture size
(`sizeAperture`). -/
def Obligations.BindingAndWindowWrites : Prop :=
  ∀ (s u : State) (t : Count) (v : Reg32), s.managed → u = s.start t →
    (exec (.altBind t 0 v) s = .next u) ∧
    (∀ n, 0 < n → n < 64 → exec (.altBind t n v) s = .next (
      if u.bindBad n v then { u with allots := sput .init u.allots n { u.allot n with bindErr := true } }
      else
        let st := (u.allot n).state
        let w : State := { u with allots := sput .init u.allots n { u.allot n with
          bind := v &&& 0x1F7, state := if 2 ≤ st then st else if bitOf v 8 then 1 else 0 } }
        w.sizeAperture (w.ldOf n))) ∧
    (∀ n, n < 64 → exec (.altCtrl t n v) s = .next (
      if fld v 0 6 = 0 ∨ (21 ≤ fld v 0 6 ∧ fld v 0 6 ≤ 40) then
        let w : State := { u with allots := sput .init u.allots n { u.allot n with
          ctrl := BitVec.ofNat 32 (fld v 0 6) } }
        w.sizeAperture (u.ldOf n)
      else u)) ∧
    (∀ n, 64 ≤ n → exec (.altBind t n v) s = .next u ∧ exec (.altCtrl t n v) s = .next u) ∧
    (∀ (w : State) (k : Nat), w.sizeAperture k =
      if (w.ld k).mse then w.setLd k (w.ld k) else w.setLd k { w.ld k with aperture := w.wantAperture k }) ∧
    (∀ (n : Nat) (x : Reg64) (o : Nat), n < 64 → o = 0x48000 + 0x20 * n → ∀ w : State,
      w = { u with lowHalf := sdel u.lowHalf o, woLow := sput 0 u.woLow o (x.setWidth 32) } →
      exec (.winCommit t 0 n x) s = .next (
        if (u.allot n).winPend.isSome then w.err 0 0x05 3 o 0 0xFFFF 0xFFFF
        else match w.firstBad n (u.allot n).shadow with
          | some i => { w with allots := sput .init u.allots n { u.allot n with winErr := true, winBad := i } }
          | none => { w with allots := sput .init u.allots n { u.allot n with
              winPend := some (max (expand48 u.now (fld x 0 48)) (u.now + 1), (u.allot n).shadow) } })) ∧
    (∀ n c x, (u.allot n).winPend = some (c, x) → c ≤ u.now →
      exec (.winCommitCountReached t n) s = .next { u with allots := sput .init u.allots n { u.allot n with
        live := x, winLive := BitVec.ofNat 64 c, winPend := none, winDead := 0 } }) ∧
    (∀ n, (∀ c x, (u.allot n).winPend = some (c, x) → u.now < c) →
      exec (.winCommitCountReached t n) s = .next u)

/-! ### Queues and event rings -/

/-- QUE_OWNER assigns a DISABLED queue, unless the pair of allotment and local index is taken; a write that is ignored
sets ASSIGN_ERR (R238). QUE_CTRL with ENABLE takes an assigned DISABLED queue with legal ring sizes to RUNNING, with
its indices and SEQ at 0 and PHASE 1, or to STOPPED without bus mastering; a RUNNING queue whose ENABLE is cleared
drains; a STOPPED queue that is written with RESTART runs again and writes what it holds (R239, R251). -/
def Obligations.QueueControlWrites : Prop :=
  ∀ (s u : State) (t : Count) (v : Reg32) (q : Nat) (x : Queue), s.managed → u = s.start t → x = u.queue q →
    swf u.queues = true →
    (exec (.queOwner t q v) s = .next { u with queues := sput .init u.queues q (
      if x.state ≠ 0 ∨ (bitOf v 31 = true ∧ ∃ p, u.queueOf (fld v 0 6) (fld v 16 9) = some p ∧ p ≠ q) then
        { x with assignErr := true }
      else { x with owner := v &&& 0x81FF003F }) }) ∧
    (x.state = 0 → bitOf v 0 = true → x.assigned = true → 4 ≤ fld v 4 5 → fld v 4 5 ≤ 16 → 4 ≤ fld v 9 5 →
      fld v 9 5 ≤ 16 → ∀ w : State,
      w = (u.setQueue q { x with ctrl := queFields true v }).setQueue q { x with
        ctrl := queFields true v, sqHead := 0, cqTail := 0, sqTail := 0, cqHead := 0, seq := 0, fetched := 0
        phase := true, intrSlots := [], disabling := false, written := none, fetching := 0, fetchDrop := false } →
      exec (.queEnable t 0 q v) s = .next (if u.bme x.allotment then w.queueTo q 1 0 else w.queueTo q 3 3)) ∧
    (x.state = 0 → bitOf v 0 = true → x.assigned = false →
      exec (.queEnable t 0 q v) s = .next { u with queues := sput .init u.queues q { x with
        ctrl := queFields false v, cfgErr := true } }) ∧
    (x.state = 1 → bitOf v 0 = false → fld v 4 17 = fld x.ctrl 4 17 → bitOf v 1 = false →
      exec (.queEnable t 0 q v) s = .next (State.queueSettle
        ((u.setQueue q { x with ctrl := queFields false x.ctrl }).queueTo q 2 0) q)) ∧
    (x.state = 3 → bitOf v 0 = true → fld v 4 17 = fld x.ctrl 4 17 → u.bme x.allotment = true →
      bitOf x.ctrl 0 = true → x.ctrl = queFields true x.ctrl → x.disabling = false →
      exec (.queRestart t 0 q v) s = .next (State.queueSettle (State.heldDrain q 64 (
        ((u.setQueue q x).modQueue q fun y => { y with disabling := false }).queueTo q 1 0)) q))

/-- A doorbell of an assigned queue (R241, R242): its index is set when it lies in the ring, and the head only within
the span from the current head to the tail; what is freed leaves its interrupt. Anything else records
ERR_DOORBELL (0x0E) of source 4. -/
def Obligations.DoorbellsSetIndices : Prop :=
  ∀ (s u : State) (t : Count) (v : Reg64) (n off q : Nat) (x : Queue), s.barOn n = true → u = s.start t →
    x = u.queue q → off < 4096 → u.queueOf n (off / 8) = some q → x.state ≠ 0 →
    (off % 8 = 0 → fld v 0 16 < x.sqSize →
      exec (.doorbell t n off 4 v) s = .next { u with queues := sput .init u.queues q { x with sqTail := fld v 0 16 } }) ∧
    (off % 8 = 0 → x.sqSize ≤ fld v 0 16 →
      exec (.doorbell t n off 4 v) s = .next (u.err n 0x0E 4 off 0 q 0xFFFF)) ∧
    (off % 8 = 4 → fld v 0 16 < x.cqSize →
      (fld v 0 16 + x.cqSize - x.cqHead) % x.cqSize ≤ (x.cqTail + x.cqSize - x.cqHead) % x.cqSize →
      exec (.doorbell t n off 4 v) s = .next (State.updIntx { u with queues := sput .init u.queues q { x with
        cqHead := fld v 0 16
        intrSlots := x.intrSlots.filter fun i => decide ((i + x.cqSize - fld v 0 16) % x.cqSize <
          (x.cqTail + x.cqSize - fld v 0 16) % x.cqSize) } } x.allotment)) ∧
    (off % 8 = 4 → (x.cqSize ≤ fld v 0 16 ∨
        (x.cqTail + x.cqSize - x.cqHead) % x.cqSize < (fld v 0 16 + x.cqSize - x.cqHead) % x.cqSize) →
      exec (.doorbell t n off 4 v) s = .next (u.err n 0x0E 4 off 0 q 0xFFFF)) ∧
    (∀ o w, 4096 ≤ o → exec (.doorbell t n o w v) s = .next (u.err n 0x0E 4 o 0 0xFFFF 0xFFFF))

/-- The rows of an event ring (R256, R257, R259): ENABLE starts a ring of 16 to 65,536 entries with SEQ 0 and PHASE 1;
a head in the ring is passed; a held event is written while the ring takes it, a LOST event following the held ones
when events were lost, with their count; a waiting group begins when it was posted before them; a failed write holds
the events until ENABLE is written again. -/
def Obligations.EventRingRows : Prop :=
  ∀ (s u : State) (t : Count) (v : Reg32) (n : Nat) (a : Allot), s.managed → u = s.start t → a = u.allot n →
    (bitOf a.evtCtrl 0 = false → bitOf v 0 = true → 4 ≤ fld v 1 5 → fld v 1 5 ≤ 16 →
      exec (.evtEnable t 0 n v) s = .next { u with allots := sput .init u.allots n { a with
        evtCtrl := BitVec.ofNat 32 (fld v 0 13), evtSeq := 0, evtPhase := true, evtHold := false } }) ∧
    (bitOf a.evtCtrl 0 = false → bitOf v 0 = true → fld v 1 5 < 4 ∨ 16 < fld v 1 5 →
      exec (.evtEnable t 0 n v) s = .next { u with allots := sput .init u.allots n { a with evtCfgErr := true } }) ∧
    (bitOf a.evtCtrl 0 = true → bitOf v 0 = true →
      exec (.evtEnable t 0 n v) s = .next { u with allots := sput .init u.allots n { a with
        evtCfgErr := a.evtCfgErr || fld v 1 12 != fld a.evtCtrl 1 12, evtHold := false } }) ∧
    (exec (.evtHead t 0 n v) s = .next (
      if fld v 0 16 < 2 ^ fld a.evtCtrl 1 5 ∧ (fld v 0 16 + 2 ^ fld a.evtCtrl 1 5 - a.evtHead) % 2 ^ fld a.evtCtrl 1 5 ≤
          (a.evtTail + 2 ^ fld a.evtCtrl 1 5 - a.evtHead) % 2 ^ fld a.evtCtrl 1 5 then
        State.updIntx { u with allots := sput .init u.allots n { a with evtHead := fld v 0 16 } } n
      else u.err n 0x0E 4 (0x30030 + 0x40 * n) 0 0xFFFF 0xFFFF)) ∧
    (u.evtWritable n = false → exec (.eventWrite t n) s = .next u) ∧
    (∀ e r, u.evtWritable n = true → a.evtGroup = [] → a.evtHeld = e :: r →
      (∀ g ∈ a.evtNext.head?, fld e 64 64 ≤ fld g 64 64) →
      (fld e 0 8 ≠ 8 → exec (.eventWrite t n) s = .next (State.evtPut
        { u with allots := sput .init u.allots n { a with
          evtHeld := if 0 < a.evtLost ∧ ∀ x ∈ r, fld x 0 8 ≠ 8 then r ++ [eventEntry 8 u.now []] else r } } n e false)) ∧
      (fld e 0 8 = 8 → exec (.eventWrite t n) s = .next (State.evtPut
        { u with allots := sput .init u.allots n { a with evtHeld := r, evtLost := 0, evtLostFault := 0 } } n
          (eventEntry 8 (fld e 64 64) [(16, 4, a.evtLost), (20, 4, a.evtLostFault)]) false))) ∧
    (∀ g l, u.evtWritable n = true → a.evtGroup = [] → a.evtNext = g :: l →
      (∀ e ∈ a.evtHeld.head?, fld g 64 64 < fld e 64 64) →
      exec (.eventWrite t n) s = .next (State.evtPut
        { u with allots := sput .init u.allots n { a with evtGroup := l, evtNext := [] } } n g (!l.isEmpty))) ∧
    (∀ e r, u.evtWritable n = true → a.evtGroup = e :: r →
      exec (.eventWrite t n) s = .next (State.evtPut
        { u with allots := sput .init u.allots n { a with evtGroup := r } } n e (!r.isEmpty))) ∧
    (bitOf a.evtCtrl 0 = true → exec (.eventWriteError t n) s = .next { u with
      allots := sput .init u.allots n { a with evtPostErr := true, evtHold := true } }) ∧
    (bitOf a.evtCtrl 0 = false → exec (.eventWriteError t n) s = .next u)

/-- Rings are read and written in order (R243 to R249, R251, R252, R45): a fetch is one read of at most what R243
allows; a failed fetch, and a failed completion write, take the queue to ERROR (4) with cause 1 or 2, and the entry
that was not written heads the holding area; held entries are written oldest first; a paced completion goes to its
queue at its promise. -/
def Obligations.RingRows : Prop :=
  ∀ (s u : State) (t : Count) (q : Nat) (v : Queue), u = s.start t → v = u.queue q →
    (∀ n (env : ReadEnv), quietEnv env → s.unheld →
      exec (.packetFetch t q n [] env) s = .next (if min n (u.fetchable q) = 0 then u
        else { u with
          queues := sput .init u.queues q { v with fetching := min n (u.fetchable q), fetchDrop := false }
          out := [.ringRead q (v.sqBase.toNat / 64 * 64 + 64 * v.sqHead) (min n (u.fetchable q))] })) ∧
    (v.fetching = 0 → exec (.fetchError t q) s = .next u) ∧
    (v.fetching ≠ 0 → v.fetchDrop = true ∨ (v.state ≠ 1 ∧ v.state ≠ 2) →
      exec (.fetchError t q) s = .next { u with
        queues := sput .init u.queues q { v with fetching := 0, fetchDrop := false } }) ∧
    (v.fetching ≠ 0 → v.fetchDrop = false → v.state = 1 ∨ v.state = 2 →
      exec (.fetchError t q) s = .next (State.queueTo
        (({ u with queues := sput .init u.queues q { v with fetching := 0, fetchDrop := false } } : State).modQueue q
          fun x => { x with fetchErr := true }) q 4 1)) ∧
    (v.state = 1 ∨ v.state = 2 → ∀ e p i, v.written = some (e, p, i) → v.cqHead ≠ v.cqTail →
      exec (.completionWriteError t q) s = .next (State.queueTo
        ((u.takeBackEntry q e p i).modQueue q fun x => { x with postErr := true }) q 4 2)) ∧
    (v.state ≠ 1 → v.state ≠ 2 → exec (.completionWriteError t q) s = .next u) ∧
    (v.held = [] ∨ u.cqWritable q = false → exec (.heldCompletionWrite t q) s = .next u) ∧
    (∀ e p i c r, v.held = (e, p, i, c) :: r → u.cqWritable q = true →
      exec (.heldCompletionWrite t q) s = .next (State.heldDrain q 63
        ((u.setQueue q { v with held := r }).cqWrite q e p i true c))) ∧
    (∀ id c, u.cmd id = some c → c.phase = .paced → u.releasable c = true →
      exec (.pacedRelease t id) s = .next ((u.releaseCmd c).fences u.cmds.length)) ∧
    (∀ id, (∀ c, u.cmd id = some c → c.phase ≠ .paced ∨ u.releasable c = false) →
      exec (.pacedRelease t id) s = .next u)

/-- What the shared operations of rings, events, interrupts and logs change, and that they change nothing else. A
completion and an event go into the slot at the tail with LATE or MORE, PHASE and SEQ or the count of their writing;
the tail advances, PHASE turns as it wraps, and the ring's vector is raised. A digest record changes only the replay
log; an event its allotment's ring, its logical device and the outputs; a FAULT event also the
part fault log and WAKE#; an error-log entry the allotment's log (R247, R248, R254 to R257, R313 to R315, R335,
R357, R364). -/
def Obligations.SharedOperationsKeepTheRest : Prop :=
  (∀ (s : State) (q : Nat) (e : Completion) (p : Count) (intr held : Bool) (c : Option Nat) (v : Queue), v = s.queue q →
    s.cqWrite q e p intr held c = State.queueSettle (
      let w : State := State.leaveCmd ({ s with
        queues := sput .init s.queues q { v with
          cqTail := (v.cqTail + 1) % v.cqSize
          phase := if (v.cqTail + 1) % v.cqSize = 0 then !v.phase else v.phase
          inflight := v.inflight - 1
          intrSlots := if intr then v.intrSlots ++ [v.cqTail] else v.intrSlots
          written := some (e, p, intr) }
        out := s.out ++ [.ringWrite v.allotment (v.cqBase.toNat / 32 * 32 + 32 * v.cqTail) 32
          ((BitVec.ofNat 256 (e.toNat + atB 40 (held && decide (p < s.now)) + atB 47 v.phase +
            at_ 112 48 s.now)).setWidth 512)] }) c
      if intr then w.interrupt v.allotment v.vector else w) q) ∧
  (∀ (s : State) (n : Nat) (e : EventEntry) (more : Bool) (a : Allot), a = s.allot n →
    s.evtPut n e more = State.interrupt { s with
      allots := sput .init s.allots n { a with
        evtTail := (a.evtTail + 1) % 2 ^ fld a.evtCtrl 1 5
        evtSeq := (a.evtSeq + 1) % 65536
        evtPhase := if (a.evtTail + 1) % 2 ^ fld a.evtCtrl 1 5 = 0 then !a.evtPhase else a.evtPhase }
      out := s.out ++ [.ringWrite n (a.evtBase.toNat / 64 * 64 + a.evtTail * 64) 64
        (BitVec.ofNat 512 (e.toNat + atB 8 more + atB 15 a.evtPhase + at_ 16 16 a.evtSeq))] } n (fld a.evtCtrl 6 7)) ∧
  (∀ s : State, s.digestUpdate = { s with det := s.digestUpdate.det } ∧
    (s.configDigest = s.det.digest → s.digestUpdate = s) ∧ s.digestUpdate.det.digest = s.configDigest) ∧
  (∀ (s : State) (n type : Nat) (l : List (Nat × Nat × Nat)),
    s.post n type l = { s with
      allots := (s.post n type l).allots, ep := (s.post n type l).ep, out := (s.post n type l).out } ∧
    (swf s.allots = true → ∀ m, m ≠ n → (s.post n type l).allot m = s.allot m)) ∧
  (∀ (s : State) (dests : List Nat) (unit reason num ext addr : Nat),
    s.faultTo dests unit reason num ext addr = { s with
      allots := (s.faultTo dests unit reason num ext addr).allots
      ep := (s.faultTo dests unit reason num ext addr).ep
      out := (s.faultTo dests unit reason num ext addr).out
      gen := (s.faultTo dests unit reason num ext addr).gen
      flt := { s.flt with
        plog := (⟨reason, unit, 1, num, ext, s.now, 0, addr⟩ :: s.flt.plog).take 64
        plogTotal := s.flt.plogTotal + 1
        plogWrapped := s.flt.plogWrapped || decide (64 ≤ s.flt.plog.length) } }) ∧
  (∀ (s : State) (n code source addr detail queue ext : Nat),
    s.err n code source addr detail queue ext = { s with
      allots := (s.err n code source addr detail queue ext).allots } ∧
    ((s.allot n).log = [] → s.err n code source addr detail queue ext = { s with
      allots := sput .init s.allots n { s.allot n with
        log := [⟨code, source, 1, queue, ext, s.now, addr, detail⟩], logTotal := (s.allot n).logTotal + 1 } }))

/-! ### The Common Count -/

/-- What the reference and a sync event do to the count (R27, R29 to R33, R53, R336, R381, R457, R458). The loop that
locks to COUNT_REF makes the count run LOCKED, the holdover oscillator HOLDOVER with HOLDOVER_SEEN and SYNCED clear.
At a sync event SYNC_ARM clears, and the bit of an event and the count of it are set; LOAD with no admitted command
and no command's completion still to write (a command that asks its home is not yet admitted) makes the agreed value the count and ends a
slew, with a command it sets LOAD_ERR (5); CHECK within the alignment starts to slew the difference away, and beyond it sets CHECK_ERR (4), clears
SYNCED and posts CLOCK. -/
def Obligations.CommonCountRows : Prop :=
  (∀ (s u : State) (t : Count) (v : Reg32), u = s.start t →
    (u.cc.running = false → u.gen.aux = true →
      exec (.tickLoopLock t true) s = .next { u with cc := { u.cc with
        running := true, onRef := true, status := setBit (setBit u.cc.status 0 true) 2 false } } ∧
      exec (.tickLoopLock t false) s = .next (State.clockEvent { u with cc := { u.cc with
        running := true, onRef := false
        status := setBit (setBit (setBit (setBit u.cc.status 0 false) 2 true) 6 true) 1 false } })) ∧
    (u.cc.running = true ∨ u.gen.aux = false → ∀ b, exec (.tickLoopLock t b) s = .next u) ∧
    (u.cc.running = true →
      exec (.countRefLoss t) s = .next (State.clockEvent { u with cc := { u.cc with
        onRef := false, status := setBit (setBit (setBit (setBit u.cc.status 0 false) 2 true) 6 true) 1 false } }) ∧
      exec (.countRefReturn t) s = .next { u with cc := { u.cc with
        onRef := true, status := setBit (setBit u.cc.status 0 true) 2 false } }) ∧
    (u.cc.running = false → exec (.countRefLoss t) s = .next u ∧ exec (.countRefReturn t) s = .next u) ∧
    (s.managed → exec (.syncArm t v) s = .next { u with cc := { u.cc with
      ctrl := BitVec.ofNat 32 (fld (setBit v 0 true) 0 6) } }) ∧
    (exec (.slewComplete t) s = .next { u with cc := { u.cc with
      slew := 0, slewTick := 0, status := setBit u.cc.status 8 false } }) ∧
    (∀ b, bitOf u.cc.ctrl 0 = true → bitOf u.cc.ctrl 1 = false → bitOf u.cc.ctrl 5 = b → u.cc.running = true →
      exec (.countSyncEdge t b) s = .next (u.syncEvent u.cc.syncValue.toNat 2)) ∧
    (∀ b, bitOf u.cc.ctrl 0 = false ∨ bitOf u.cc.ctrl 1 = true ∨ bitOf u.cc.ctrl 5 ≠ b ∨ u.cc.running = false →
      exec (.countSyncEdge t b) s = .next u) ∧
    (∀ p m, bitOf u.cc.ctrl 0 = true → bitOf u.cc.ctrl 1 = true → fld u.cc.ctrl 3 2 = p → u.cc.running = true →
      exec (.sync t p m) s = .next
        (u.syncEvent ((nth m.nums 0 + (u.tport p).rtt / 2 + u.cc.syncValue.toNat) % 2 ^ 64) 8)) ∧
    (∀ p m, bitOf u.cc.ctrl 0 = false ∨ bitOf u.cc.ctrl 1 = false ∨ fld u.cc.ctrl 3 2 ≠ p ∨ u.cc.running = false →
      exec (.sync t p m) s = .next u)) ∧
  (∀ (s : State) (c : Count) (k : Nat) (w : CcBlk),
    w = { s.cc with ctrl := setBit s.cc.ctrl 0 false, status := setBit s.cc.status 3 true } →
    (bitOf s.cc.ctrl 2 = true → (∃ c ∈ s.cmds, c.phase ≠ .asking) ∨ (∃ v ∈ s.queues, ∃ h ∈ v.2.held, h.2.1 ≠ 2 ^ 64) →
      s.syncEvent c k = { s with cc := { w with status := setBit w.status 5 true, lastSync := BitVec.ofNat 64 s.now } }) ∧
    (bitOf s.cc.ctrl 2 = true → (∀ c ∈ s.cmds, c.phase = .asking) → (∀ v ∈ s.queues, ∀ h ∈ v.2.held, h.2.1 = 2 ^ 64) →
      (s.syncEvent c k).cc = { w with
        now := c, slew := 0, slewTick := 0, status := setBit (setBit w.status 1 true) 8 false
        lastSync := BitVec.ofNat 64 c } ∧
      s.syncEvent c k = { s with
        cc := (s.syncEvent c k).cc, det := (s.syncEvent c k).det, old := s.governs }) ∧
    (bitOf s.cc.ctrl 2 = false → ∀ d : Int, d = (s.now : Int) - (c : Int) → d.natAbs ≤ k →
      s.syncEvent c k = { s with cc := { w with
        syncOffset := sint 32 d, slew := -d, slewTick := 0
        status := setBit (setBit w.status 1 true) 8 (d != 0), lastSync := BitVec.ofNat 64 s.now } }) ∧
    (bitOf s.cc.ctrl 2 = false → ∀ d : Int, d = (s.now : Int) - (c : Int) → k < d.natAbs →
      (s.syncEvent c k).cc = { w with
        syncOffset := sint 32 d, status := setBit (setBit w.status 4 true) 1 false
        lastSync := BitVec.ofNat 64 s.now }))

/-! ### Start-up and resets -/

/-- The phases of start-up follow one another (R27, R123, R324, R409, R451, R452, R454, R458, R461, R462, R466), each at
its own event and at no other: AUX_ONLY (0), BOOT_ROM (1), DRAM_TRAINING (3), RESTORE (4), MEASURE (5). A power-up
starts the count block afresh, and PWR_GOOD is stamped with its count; RESTORE replays the map journal, unwraps the keys
and pins pages, and map pages load until the map or its cache is full (R130, R149, R396). -/
def Obligations.StartUpRows : Prop :=
  ∀ (s u : State) (t : Count), u = s.start t →
    (∀ a, exec (.powerUp a) s = .next (if s.gen.aux then { s with out := [] }
      else { s with out := [], cc := CcBlk.init, gen := { s.gen with aux := true, addr := a, phase := 0 } })) ∧
    (exec (.mainConversionStart t) s = .next (if u.gen.aux ∧ u.cc.running ∧ ¬ u.gen.conv then
      { u with gen := { u.gen with conv := true, wake := false }, pwr := { u.pwr with main := true } } else u)) ∧
    (exec (.pwrGood t) s = .next (if u.gen.conv ∧ u.gen.held = none ∧ ¬ u.gen.modRst ∧ ¬ u.gen.pwrGood then
      State.trainPorts { u with
        gen := { u.gen with pwrGood := true, pwrGoodCc := u.now, phase := 1 }
        pwr := { u.pwr with powerOnSince := some u.now } }
      else u)) ∧
    (∀ l, u.gen.phase = 3 → (∀ c ∈ l, 72 ≤ c ∨ u.drm.retired.contains c = true) → ∀ f,
      exec (.dramTrainingDone t l f) s = .next { u with gen := { u.gen with phase := 4 } }) ∧
    (∀ l f, u.gen.phase ≠ 3 → exec (.dramTrainingDone t l f) s = .next u) ∧
    (u.gen.phase = 4 → ∀ x w : State,
      x = State.unwrapKeys (State.replayJournal { u with
        sec := { u.sec with erasePending := false, slotAssign := (u.slot (fld u.sec.slotSel 0 8)).assign }
        pwr := { u.pwr with ageStatus := (u.dom (fld u.pwr.ageSel 0 6)).ageWord } }) →
      w = x.ext.tbl.foldl (fun s e => s.pinPages e.1 e.2 noEnv) x →
      exec (.restoreDone t) s = .next { w with gen := { w.gen with phase := 5 } }) ∧
    (∀ w : State, w.replayJournal.fls.journal = [] ∧
      ∀ e x, (e, x) ∈ w.unwrapKeys.ext.tbl → x.nonce = ((sfind w.sec.nonces e).bind unwrapKey).getD 0) ∧
    (u.gen.phase ≠ 4 → exec (.restoreDone t) s = .next u) ∧
    (exec (.startupLate t) s = .next (if u.gen.pwrGood ∧ (
        (u.gen.phase = 1 ∧ u.gen.pwrGoodCc + 800000000 < u.now) ∨ (u.gen.phase = 3 ∧ u.gen.pwrGoodCc + 2000000000 < u.now) ∨
        (u.gen.phase = 4 ∧ u.gen.pwrGoodCc + 8000000000 < u.now) ∨
        (u.gen.phase = 5 ∧ u.gen.pwrGoodCc + 16000000000 < u.now)) then { u with gen := { u.gen with late := true } }
      else u)) ∧
    (∀ (n m : Nat) (w : State), w = ((u.mapPages.drop u.fls.mapCached).take n).foldl (fun s k => s.loadMap k) u →
      m = min u.mapPages.length (u.fls.mapCached + n) → u.fls.mapLoading = true →
      exec (.mapLoading t n) s = .next { w with fls := { w.fls with
        mapCached := m
        mapLoading := decide (m < u.mapPages.length) && decide (w.fls.mapCache.length < mapCachePages) } }) ∧
    (∀ n, u.fls.mapLoading = false → exec (.mapLoading t n) s = .next u)

/-- The boot ROM (R392 to R394, R402, R403, R461, R463): the configuration record accepted before the reset is in
force; without the PUF the part is in recovery state with reason 6; a candidate that verifies becomes the image, one
that does not is erased; an image that fails leaves recovery state with its reason, and one that verifies starts the
firmware. Recovery state is phase 2, and in it no port but H0 trains; the firmware starts in phase 3. -/
def Obligations.BootRomRow : Prop :=
  ∀ (s u w : State) (t : Count), u = s.start t → w = u.loadRecord →
    (u.gen.phase ≠ 1 ∨ u.gen.pwrGood = false → ∀ b, exec (.bootRom t b) s = .next u) ∧
    (u.gen.phase = 1 → u.gen.pwrGood = true →
      exec (.bootRom t false) s = .next (w.toRecovery 6) ∧
      ∀ x y : State, x = State.takeCandidate { w with sec := { w.sec with pufOk := true } } →
        y = { x with sec := { x.sec with fwVersion := BitVec.ofNat 32 (imageVersion x.sec.image) } } →
        exec (.bootRom t true) s = .next (if verifyImage x.sec.svn.toNat x.sec.image = 0 then y.startFirmware
          else y.toRecovery (verifyImage x.sec.svn.toNat x.sec.image))) ∧
    (∀ x : State, x = State.takeCandidate u →
      x = { u with sec := x.sec } ∧
      (u.sec.candidate = [] → x = u) ∧
      (u.sec.candidate ≠ [] → x.sec.candidate = [] ∧
        (verifyImage u.sec.svn.toNat u.sec.candidate = 0 →
          x.sec.image = u.sec.candidate ∧ x.sec.svn = BitVec.ofNat 32 (imageSvn u.sec.candidate)) ∧
        (verifyImage u.sec.svn.toNat u.sec.candidate ≠ 0 →
          x.sec.image = u.sec.image ∧ x.sec.svn = u.sec.svn ∧ x.sec.fwRejected = true))) ∧
    (∀ why, (u.toRecovery why).gen = { u.gen with phase := 2 } ∧
      (u.toRecovery why).sec = { u.sec with recovery := true, rcvStatus := why }) ∧
    (u.startFirmware.gen = { u.gen with phase := 3, wake := u.startFirmware.gen.wake } ∧
      u.startFirmware.pwr = { u.pwr with startups := u.pwr.startups + 1 })

/-- READY (R47, R304, R461, R464, R466): from MEASURE the first plan is in force, with a version of its own and cause
POWER_UP (6), the memory of every logical device that reports it is active, and map loading and the first scrub pass
begin; in any other phase nothing happens. -/
def Obligations.ReadyRow : Prop :=
  ∀ (s u : State) (t : Count) (m : PlanInput), u = s.start t →
    (u.gen.phase ≠ 5 → exec (.ready t m) s = .next u) ∧
    (u.gen.phase = 5 → ∃ w, exec (.ready t m) s = .next w ∧
      w.gen.phase = 6 ∧ w.gen.readyCc = u.now ∧ w.plan.cur.cause = 6 ∧ w.plan.cur.effective = u.now ∧
      w.plan.cur.level = u.plan.heldLevel.getD u.pwr.level ∧ w.plan.heldLevel = none ∧ w.fls.mapLoading = true ∧
      w.int.inPass = true ∧ w.cc.now = u.cc.now)

/-- What resets the whole part, and why (R149, R319, R323, R393, R419, R420, R451, R453): MOD_RST# held for 1,000 CC
or more, 0xA5A5 in FLT_RESET, the watchdog while the firmware runs, a recovery image that verifies, and the loss of a
supply; below 100 CC MOD_RST# is ignored, and a part that is off or held has nothing to reset. -/
def Obligations.ResetRows : Prop :=
  ∀ (s u : State) (t : Count) (f : Bool) (v : Reg32), u = s.start t →
    (∀ low, low < 100 → exec (.modRst t low f) s = .next u) ∧
    (∀ low w, 1000 ≤ low → u.gen.aux = true → w = (if u.gen.conv then u.reboot 1 (some 1) f else u) →
      exec (.modRst t low f) s = .next { w with gen := { w.gen with modRst := true } }) ∧
    (exec (.modRstRelease t) s = .next { u with gen := { u.gen with
      modRst := false, held := if u.gen.held = some 1 then none else u.gen.held } }) ∧
    (exec (.watchdogExpiry t f) s = .next (if 3 ≤ u.gen.phase ∧ u.gen.conv ∧ u.gen.held = none then
      u.reboot 3 none f else u)) ∧
    (s.managed → exec (.fltReset t v f) s = .next (if fld v 0 16 = 0xA5A5 then u.reboot 2 none f else u)) ∧
    (s.barOn 0 = true → exec (.recoveryLoad t v f) s = .next (
      if u.sec.recovery = false ∨ u.sec.rcvStatus = 6 then u
      else
        let b := sbytes u.sec.window (fld u.sec.rcvLen 0 25)
        if verifyImage u.sec.svn.toNat b = 0 then
          State.reboot { u with sec := { u.sec with image := b } } 2 none f
        else { u with sec := { u.sec with rcvStatus := verifyImage u.sec.svn.toNat b } })) ∧
    (∀ c, u.gen.conv = false ∨ u.gen.held ≠ none → exec (.shutdownSequence t c f) s = .next u) ∧
    (∀ c, u.gen.conv = true → u.gen.held = none → exec (.shutdownSequence t c f) s = .next (match c with
      | .powerUp => u
      | .modRst => u.reboot 1 (some 1) f
      | .fltReset => u.reboot 2 none f
      | .watchdog => u.reboot 3 none f
      | .therm => u.trip f
      | .input | .d3cold => u.mainLost f
      | .aux => u.auxLost f))

/-- What a whole-part reset and a loss of a supply leave (R27, R323, R324, R335, R363, R403, R408, R419, R424, R425,
R470): the count goes on, the waiting commands wait on, LAST_RESET is the cause, and the images in flash, the code
tables, the recipes, the retired units that the life record holds, the key slots with their wrapped keys, which RESTORE
unwraps, the calendar and the part's counters stay; admitted commands,
waiting requests, queues, frames and the plan in force are gone, and allotments are as after reset. Main power that
goes leaves AUX_ONLY (0), and the auxiliary supply takes the count with it. -/
def Obligations.ResetsKeepWhatTheSystemAreaHolds : Prop :=
  ∀ (s w : State) (c : Nat) (h : Option Nat) (f : Bool),
    (w = s.reboot c h f →
      w.cc.now = s.cc.now ∧ w.cc.running = s.cc.running ∧ w.pending = s.pending ∧ w.flt.lastReset = c ∧
      w.gen.held = h ∧ w.gen.pwrGood = false ∧ w.gen.phase = 1 ∧ w.cmds = [] ∧ w.waiting = [] ∧ w.queues = [] ∧
      w.dir = { DirBlk.init with gone := s.dir.gone } ∧ w.ties = [] ∧ w.plan.cur = Plan.none ∧ w.plan.last = s.plan.last ∧ w.allots = State.reset.allots ∧
      w.cod.slots = s.cod.slots ∧ w.spr.slots = s.spr.slots ∧ w.mxe.retired = s.mxe.retired ∧
      w.spr.retired = s.spr.retired ∧ w.drm.retired = s.drm.recorded ∧ w.sec.wrapped = s.sec.wrapped ∧
      w.sec.nonces = s.sec.nonces ∧ (∀ k, w.slot k = { s.slot k with key := 0 }) ∧
      w.sec.svn = s.sec.svn ∧ w.sec.image = s.sec.image ∧ w.pwr.calendar = s.pwr.calendar ∧
      w.pwr.startups = s.pwr.startups ∧ w.det.buffered = 0 ∧ w.fls.programs = [] ∧ w.fls.unclean = !f) ∧
    (w = s.mainLost f → w.gen.conv = false ∧ w.gen.phase = 0 ∧ w.pwr.main = false ∧ w.cc.now = s.cc.now ∧
      w.gen.aux = s.gen.aux) ∧
    (w = s.auxLost f → w.cc = CcBlk.init ∧ w.gen.aux = false ∧ w.gen.conv = false ∧ w.pwr.calValid = false)

/-! ### Supplies, sensors and power -/

/-- The input voltage and the hold-up (R149, R150, R420, R425, R426): below 40 V and above 60 V the fault is recorded
with the voltage, above 63 V the input is disconnected, and a hold-up below 20 ms limits programs and is a fault; HOLDUP_LOW follows the
latest measurement (the model's choice, assumption 100), and programs that waited are issued. -/
def Obligations.SupplyRows : Prop :=
  ∀ (s u : State) (t n : Nat) (f : Bool), u = s.start t →
    (n < 4000 → u.gen.conv = true → exec (.inputLow t n) s = .next (State.fault0 { u with
      pwr := { u.pwr with inputLow := true, input := setFld u.pwr.input 0 16 n } } 7 0x83 0)) ∧
    (4000 ≤ n ∨ u.gen.conv = false → exec (.inputLow t n) s = .next u) ∧
    (6000 < n → u.gen.conv = true → exec (.inputHigh t n) s = .next (State.fault0 { u with
      pwr := { u.pwr with inputHigh := true, input := setFld u.pwr.input 0 16 n } } 7 0x84 0)) ∧
    (n ≤ 6000 ∨ u.gen.conv = false → exec (.inputHigh t n) s = .next u) ∧
    (exec (.inputDisconnect t n f) s = .next (if 6300 < n ∧ u.gen.conv = true then u.mainLost f else u)) ∧
    (exec (.auxLoss t f) s = .next (if u.gen.aux = true then u.auxLost f else u)) ∧
    (u.gen.phase = 5 ∨ u.pwr.replanning = true →
      ∀ w : State, w = (if n < 20000 then State.fault0 { u with
          fls := { u.fls with holdup := n % 65536, holdupLow := true }
          plan := { u.plan with holdup := max n 1 } } 7 0x75 0
        else { u with
          fls := { u.fls with holdup := n % 65536, holdupLow := false }
          plan := { u.plan with holdup := 0 } }) →
      exec (.holdupMeasure t n) s = .next (w.fls.programs.foldl (fun s _ => s.issueNext) w)) ∧
    (u.gen.phase ≠ 5 → u.pwr.replanning = false → exec (.holdupMeasure t n) s = .next u) ∧
    (u.pwr.powerOnSince ≠ none → u.pwr.summaryAt + 3600 ≤ u.powerOn → exec (.lifeRecordSummary t) s = .next (State.countInternal { u with
      pwr := { u.pwr with summaries := u.pwr.summaries + 1, summaryAt := u.powerOn, calSaved := u.calendarNow } } (Config.systemBytes 2))) ∧
    (u.pwr.powerOnSince = none ∨ u.powerOn < u.pwr.summaryAt + 3600 → exec (.lifeRecordSummary t) s = .next u)

/-- The samples (R41, R416, R419, R421, R422, R426): a junction sample keeps every peak, ends a thermal hold below 80
°C, trips at 110 °C and warns at WARN_C; above 97% of the cap the governor lowers setpoints toward the level's floor,
which no setpoint falls below; the paces of the domains that are on are judged in turn; a re-plan starts when its
period of power-on time has passed. -/
def Obligations.SampleRows : Prop :=
  ∀ (s u : State) (t : Count), u = s.start t →
    (∀ l, u.gen.conv = false → exec (.junctionSample t l) s = .next u) ∧
    (∀ l w, u.gen.conv = true → w = u.readJunctions l →
      exec (.junctionSample t l) s = .next (
        if u.gen.held = some 0 then
          if (w.dom w.hottest).junction < 80 then { w with gen := { w.gen with held := none, thermTrip := false } } else w
        else if 110 ≤ (w.dom w.hottest).junction then w.trip true
        else
          let x := w.thermWarnAt w.hottest
          if x.plan.stepping then x else x.thermalStep)) ∧
    (∀ v w i o fl, u.gen.conv = true → u.gen.held = none → ∀ x : State,
      x = { u with pwr := { u.pwr with
        input := BitVec.ofNat 32 (at_ 0 16 v + at_ 16 16 w), capNear := decide (97 * levelCap u.levelNow < 100 * w)
        coolant := BitVec.ofNat 32 (at_ 0 8 i + at_ 8 8 o + at_ 16 16 fl) } } →
      exec (.powerGovernorSample t v w i o fl) s = .next (if 97 * levelCap u.levelNow < 100 * w then
        x.setpoints ((List.range 64).filter x.domainOn) fun d free =>
          min d.setpoint (max free (levelFloor x.levelNow + d.raise))
        else x)) ∧
    (∀ v w i o fl, u.gen.conv = false ∨ u.gen.held ≠ none →
      exec (.powerGovernorSample t v w i o fl) s = .next u) ∧
    (∀ l, u.gen.conv = true → u.gen.held = none → exec (.paceSample t l) s =
      .next ((List.range 64).foldl (fun s d => s.paceOne d (l.getD d 0)) u)) ∧
    (∀ l, u.gen.conv = false ∨ u.gen.held ≠ none → exec (.paceSample t l) s = .next u) ∧
    (exec (.replanPeriod t) s = .next (
      if u.gen.phase = 6 ∧ u.pwr.lastReplan + 86400 * fld u.pwr.ageCtrl 0 8 ≤ u.powerOn then
        { u with pwr := { u.pwr with replanning := true } } else u))

/-- A re-plan's end and a plan's beginning (R49, R50, R282, R283, R422, R427): a finished measurement raises setpoints,
clears REPLANNING, sets REPLAN_DONE and issues a plan with cause AGEING (2), and the REPLAN commands that waited are
done; a pending plan is in force at its effective count and not before, and the cuts of retirements apply at the counts
that were announced for them. -/
def Obligations.PlanRows : Prop :=
  ∀ (s u : State) (t : Count), u = s.start t →
    (∀ m r x, u.pwr.replanning = false ∨ u.plan.cur.ver = 0 → exec (.replanMeasureDone t m r x) s = .next u) ∧
    (∀ m r x, u.pwr.replanning = true → u.plan.cur.ver ≠ 0 → u.pwr.replanCmds = [] → ∀ a b : State,
      a = (List.range 64).foldl (fun s d => s.raiseOne d (nth x d) (nth r d)) u →
      b = (List.range 6).foldl (fun s g => s.raiseGroup g) a →
      exec (.replanMeasureDone t m r x) s = .next (State.issue { b with
        plan := { b.plan with meas := m }
        pwr := { b.pwr with replanning := false, replanDone := true, lastReplan := b.powerOn, replanCmds := [] } } 2
        id)) ∧
    (∀ w : State, w = (if ∃ c ∈ u.plan.cutAt, c ≤ u.now then
        let x := u.applyCuts true
        { x with plan := { x.plan with cutAt := x.plan.cutAt.filter fun c => decide (x.now < c) } }
      else u) →
      (w.plan.pend = none → exec (.planEffective t) s = .next w) ∧
      (∀ p, w.plan.pend = some p → w.now < p.effective → exec (.planEffective t) s = .next w) ∧
      (∀ p, w.plan.pend = some p → p.effective ≤ w.now → ∀ x : State,
        x = State.runJobs ((State.inForce { w with plan := { w.plan with pend := none } } p).applyCuts true) →
        exec (.planEffective t) s = .next (if w.plan.stepping then x.thermalStep else x)))

/-! ### Host ports and functions -/

/-- PERST# and the links of host ports (R310, R345, R347, R454): PERST# of the odd port of a merged pair is ignored; on
any other it takes the link down, and its end starts training with PWR_GOOD high. A training link that reaches an
operating point is up at it, and below the top point LINK_DEGRADED is posted; a point outside R345 takes it down and holds
it down until its training is tried again 1 s later; and so does a link that degrades keep serving, or go down. -/
def Obligations.PortRows : Prop :=
  ∀ (s u : State) (t p r w : Nat), u = s.start t →
    (u.portMode p = 2 → exec (.perstAssert t p) s = .next u ∧ exec (.perstDeassert t p) s = .next u) ∧
    (u.portMode p ≠ 2 → ∀ x : State,
      x = { u with ep := { u.ep with ports := sput .init u.ep.ports p { u.hport p with
        perst := true, training := false, held := none } } } →
      (x.hport p).rate ≠ 0 → exec (.perstAssert t p) s = .next (x.linkDown p)) ∧
    (u.portMode p ≠ 2 → ∀ x : State,
      x = { u with ep := { u.ep with ports := sput .init u.ep.ports p { u.hport p with
        perst := true, training := false, held := none } } } →
      (x.hport p).rate = 0 → exec (.perstAssert t p) s = .next x) ∧
    (u.portMode p ≠ 2 → exec (.perstDeassert t p) s = .next { u with ep := { u.ep with
      ports := sput .init u.ep.ports p { u.hport p with
        perst := false
        training := (u.hport p).training || (u.gen.pwrGood && u.portLive p && (u.hport p).rate == 0) } } }) ∧
    ((u.hport p).training = true → u.pointOk p r w = true → ∀ x y : State,
      x = { u with ep := { u.ep with
        ports := sput .init u.ep.ports p { u.hport p with
          rate := r, width := w, training := false, held := none
          replays := ((u.hport p).replays + (u.hport p).corrupt) % 2 ^ 32, corrupt := 0 }
        linkChange := true } } →
      y = State.digestUpdate (if r = 2 ∧ w = x.fullWidth p then x else x.faultTo (x.portAllots p) 5 0x50 p 0xFFFF 0) →
      ((u.hport p).held = none → exec (.linkUp t p r w) s = .next y) ∧
      (∀ c, (u.hport p).held = some c → c ≤ u.now → exec (.linkTrainingRetry t p r w) s = .next y)) ∧
    ((u.hport p).training = true → u.pointOk p r w = false →
      ((u.hport p).held = none → exec (.linkUp t p r w) s = .next (u.holdDown p)) ∧
      (∀ c, (u.hport p).held = some c → c ≤ u.now → exec (.linkTrainingRetry t p r w) s = .next
        { u with ep := { u.ep with
          ports := sput .init u.ep.ports p { u.hport p with held := some (u.now + 1000000000) } } })) ∧
    ((u.hport p).training = false ∨ (u.hport p).held ≠ none → exec (.linkUp t p r w) s = .next u) ∧
    ((u.hport p).training = false ∨ (∀ c, (u.hport p).held = some c → u.now < c) →
      exec (.linkTrainingRetry t p r w) s = .next u) ∧
    (∀ x : State, x = u.linkDown p → u.holdDown p = { x with ep := { x.ep with
      ports := sput .init x.ep.ports p { x.hport p with held := some (u.now + 1000000000) } } }) ∧
    ((u.hport p).rate = 0 → exec (.linkDown t p) s = .next u ∧ exec (.linkDegraded t p r w) s = .next u) ∧
    ((u.hport p).rate ≠ 0 → exec (.linkDown t p) s = .next (u.linkDown p)) ∧
    ((u.hport p).rate ≠ 0 → u.pointOk p r w = false → exec (.linkDegraded t p r w) s = .next (u.holdDown p)) ∧
    ((u.hport p).rate ≠ 0 → u.pointOk p r w = true → ∀ x : State,
      x = { u with ep := { u.ep with
        ports := sput .init u.ep.ports p { u.hport p with rate := r, width := w }, linkChange := true } } →
      exec (.linkDegraded t p r w) s = .next (x.faultTo (x.portAllots p) 5 0x50 p 0xFFFF 0).digestUpdate)

/-- What a reset of a function clears (R310, R320, R345, R351, R360, R406): its logical device is in D0 with memory space,
bus mastering, MSI-X and INTx off, every vector masked and nothing pending and its key handles discarded (R406), and keeps its decoders and accepted capacity;
an enabled allotment bound to it is reset with it, and the device retries configuration requests until that ends; a part
in low power begins to leave it (R362). A link that goes down is at rate 0, trains again unless PERST# is low, and resets every function that its port exposes. -/
def Obligations.FunctionResetsClearTheirDevice : Prop :=
  (∀ (s : State) (k kind : Nat) (d : Ld), d = (s.ld k).reset (s.wantAperture k) →
    (s.allotOf k = none → s.resetFunction k kind = s.leaveRest.setLd k d) ∧
    (∀ n, s.allotOf k = some n →
      s.resetFunction k kind = (s.leaveRest.setLd k { d with crs := true }).resetAllot n kind s.now none) ∧
    (s.leaveRest = if s.ep.lowPower then { s with ep := { s.ep with exiting := true } } else s) ∧
    d.dstate = 0 ∧ d.mse = false ∧ d.bme = false ∧ d.memEn = false ∧ d.msix = false ∧ d.intx = false ∧ d.pend = [] ∧
    d.handles = [] ∧ (∀ v, v < 128 → d.masked.contains v = true) ∧ d.aperture = s.wantAperture k ∧
    d.decoders = (s.ld k).decoders ∧ d.accepted = (s.ld k).accepted) ∧
  (∀ (s : State) (p : Nat) (x : State),
    x = { s with ep := { s.ep with
      ports := sput .init s.ep.ports p { s.hport p with
        rate := 0, width := 0, training := !(s.hport p).perst && s.portLive p }
      linkChange := true } } → ∀ y : State, y = (x.portLds p).foldl (fun s l => s.resetFunction (ldKey p l) 3) x →
    s.linkDown p = (y.faultTo (if y.ldOf 0 / 16 = p then [] else [0]) 5 0x51 p 0xFFFF 0).digestUpdate)

/-- What configuration requests of a logical device do (R252, R351, R357, R359 to R361, R365): with its function
serving, bus mastering and Memory Space Enable are set or cleared, D3hot stops mastering, D0 resumes it and leaves the
part's low-power state, and a function-level reset resets it; a commit of an HDM decoder with legal ways and
granularity decodes after the decoders below it, any other is an error (R70); an unmasked vector sends what is
pending; a stream is keyed only over a secured session. -/
def Obligations.FunctionRows : Prop :=
  ∀ (s u : State) (t p l k n : Nat), u = s.start t → k = ldKey p l →
    (u.served k = true → (u.ld k).crs = false →
      (exec (.busMasterSet t p l) s = .next (State.masterBack (u.setLd k { u.ld k with bme := true }) k)) ∧
      (∀ x, x = u.setLd k { u.ld k with bme := false } → x.allotOf k = some n → (u.ld k).master = true →
        exec (.busMasterClear t p l) s = .next (x.masterLost n)) ∧
      ((u.ld k).master = false → exec (.busMasterClear t p l) s = .next (u.setLd k { u.ld k with bme := false })) ∧
      (∀ x, x = u.setLd k { u.ld k with dstate := 3 } → x.allotOf k = some n →
        exec (.d3hotEntry t p l) s = .next (x.masterLost n)) ∧
      (u.ep.lowPower = false →
        exec (.d0Entry t p l) s = .next (State.masterBack (u.setLd k { u.ld k with dstate := 0 }) k)) ∧
      (u.ep.lowPower = true → ∀ x, x = u.setLd k { u.ld k with dstate := 0 } →
        exec (.d0Entry t p l) s = .next (State.masterBack { x with ep := { x.ep with exiting := true } } k)) ∧
      (∀ b, exec (.memorySpaceEnable t p l b) s = .next (u.setLd k { u.ld k with
        mse := b, aperture := if b then (u.ld k).aperture else u.wantAperture k })) ∧
      (exec (.functionLevelReset t p l) s = .next (u.resetFunction k 1))) ∧
    (u.served k = false ∨ (u.ld k).crs = true →
      exec (.busMasterSet t p l) s = .next u ∧ exec (.busMasterClear t p l) s = .next u ∧
      exec (.d3hotEntry t p l) s = .next u ∧ exec (.d0Entry t p l) s = .next u ∧
      (∀ b, exec (.memorySpaceEnable t p l b) s = .next u) ∧ exec (.functionLevelReset t p l) s = .next u) ∧
    (u.allotOf k = some n → u.barOn n = true →
      (∀ i d, decoderOk d = true → exec (.hdmDecoderCommit t p l i d) s = .next (u.setLd k { u.ld k with
        decoders := sins (u.ld k).decoders i { d with dpaBase := (u.ld k).nextDpa i d.skip }
        decErr := (u.ld k).decErr.filter (· != i) })) ∧
      (∀ i d, decoderOk d = false → exec (.hdmDecoderCommit t p l i d) s = .next (u.setLd k { u.ld k with
        decoders := sdel (u.ld k).decoders i, decErr := i :: (u.ld k).decErr.filter (· != i) })) ∧
      (∀ v, exec (.msixVectorUnmask t p l v) s = .next (State.sendPending
        (u.setLd k { u.ld k with masked := (u.ld k).masked.filter (· != v) }) k))) ∧
    (∀ i, (u.ld k).sessions ≠ [] → 2 ≤ i ∨ l = 0 → exec (.ideKm t p l i true) s = .next (State.modHport
      (u.setLd k { u.ld k with lastSigned := none }) p fun h => { h with
        ide := if h.ide.contains i then h.ide else h.ide ++ [i] })) ∧
    (∀ i b, b = false ∨ (u.ld k).sessions = [] ∨ (i < 2 ∧ l ≠ 0) → exec (.ideKm t p l i b) s = .next u)

/-- A reset of an allotment ends when its abandoned work is done, and 100 ms after its count in any case (R320 to R322):
what it stopped is logged with code 0x10, the allotment leaves RESETTING, and its function answers configuration
requests again; until then nothing changes. -/
def Obligations.QuiesceEndsTheReset : Prop :=
  ∀ (s u : State) (t n : Nat), u = s.start t →
    ((u.allot n).resetAt = none → exec (.quiesce t n) s = .next u) ∧
    (∀ c m q, (u.allot n).resetAt = some (c, m, q) → u.resetBusy n c = true → u.now < c + 100000000 →
      exec (.quiesce t n) s = .next u) ∧
    (∀ c m q, (u.allot n).resetAt = some (c, m, q) → u.resetBusy n c = false ∨ c + 100000000 ≤ u.now →
      (u.allot n).resetCmd = none → ∀ x : State,
      x = (u.liftLocks.err n 0x10 5 0 (at_ 0 16 m + at_ 16 16 q + at_ 32 8 9) 0xFFFF 0xFFFF).modAllot n (fun a => { a with
        state := if a.state = 2 then (if a.enabled then 1 else 0) else a.state
        resetAt := none, resetCmd := none, cause := setFld a.cause 16 16 m }) →
      exec (.quiesce t n) s = .next (x.modLd (x.ldOf n) fun d => { d with crs := false }))

/-- The part's low-power state (R362, R445): it is entered when EP_CTRL allows it, no command is admitted, no Tamian port
is up and every function is in D3hot, after the merge buffer is written; an exit ends when
every channel in service has passed a retraining pause, and the requests that waited for it are served; a channel whose
pause fails escalates, and the part stays in low power. -/
def Obligations.LowPowerRows : Prop :=
  ∀ (s u : State) (t : Count) (env : ReadEnv), u = s.startEnv t env →
    (u.mayRest = true ↔ bitOf u.ep.ctrl 0 = true ∧ u.ep.lowPower = false ∧ u.cmds = [] ∧
      (∀ x ∈ u.tam.ports, x.2.up = false) ∧ ∀ n ∈ u.enabledAllots, (u.ld (u.ldOf n)).dstate = 3) ∧
    (u.mayRest = true → ∀ x, x = u.flushAll env →
      exec (.partLowPowerEntry t env) s = .next { x with ep := { x.ep with lowPower := true, exiting := false } }) ∧
    (u.mayRest = false → exec (.partLowPowerEntry t env) s = .next u) ∧
    (u.ep.exiting = true → ∀ (pauses : List (Nat × Nat × Bool)) (w : State),
      w = (List.range 72).foldl (fun s ch => s.exitPause pauses ch) u →
      ((∀ x ∈ pauses, 8 ≤ x.2.1) → exec (.lowPowerExitDone t ⟨pauses, env⟩) s = .next
        (State.wake { w with ep := { w.ep with lowPower := false, exiting := false } } .exit 0 env)) ∧
      ((∃ x ∈ pauses, x.2.1 < 8) → exec (.lowPowerExitDone t ⟨pauses, env⟩) s = .next w)) ∧
    (∀ (w : State) (pauses : List (Nat × Nat × Bool)) (c m : Nat) (hot : Bool), swf w.drm.chans = true →
      (w.chan c).out = false → pauses.find? (·.1 == c) = some (c, m, hot) → ∀ x : Chan,
      x = { w.chan c with hot := hot, margin := m % 256, lastMaint := w.now, due := 0, rows := [] } →
      w.exitPause pauses c = if 8 ≤ m then
          { w with drm := { w.drm with chans := sput .init w.drm.chans c { x with
            retrains := (x.retrains + 1) % 2 ^ 32 } } }
        else State.escalate { w with drm := { w.drm with chans := sput .init w.drm.chans c x } } c) ∧
    (u.ep.exiting = false → ∀ pauses, exec (.lowPowerExitDone t ⟨pauses, env⟩) s = .next u)

/-! ### Mailbox, FM API, SPDM and the management bus -/

/-- The mailbox of a logical device whose BARs decode (R70, R346 to R348, R425): each query answers and changes nothing
else; the effects in the Command Effects Log are a free value (assumption 45). A command to a device whose BARs do not
decode is an unsupported request. -/
def Obligations.MailboxQueries : Prop :=
  ∀ (s u : State) (t p l k : Nat), u = s.start t → k = ldKey p l →
    ((u.allotOf k = none ∨ ∃ n, u.allotOf k = some n ∧ u.barOn n = false) → ∀ log,
      exec (.identify t p l) s = .next { u with out := [.unsupported 0] } ∧
      exec (.getEventRecords t p l log) s = .next { u with out := [.unsupported 0] }) ∧
    (∀ n, u.allotOf k = some n → u.barOn n = true →
      (exec (.identify t p l) s = .next { u with
        out := [.reply 0 [0x1F3B, if n = 0 then 0x1865 else 0x1864, Config.serial.toNat] []] }) ∧
      (exec (.getEventRecords t p l 0) s = .next { u with
        out := [.reply 0 ((u.ld k).infoLog.flatMap fun r => [r.1, r.2.1, r.2.2]) []] }) ∧
      (exec (.getEventRecords t p l 4) s = .next { u with
        out := [.reply 0 ((u.ld k).dcdLog.flatMap fun r => [r.1, r.2.1, r.2.2]) []] }) ∧
      (∀ log, log ≠ 0 → log ≠ 4 → exec (.getEventRecords t p l log) s = .next { u with out := [.reply 2 [] []] }) ∧
      (exec (.getEventInterruptPolicy t p l) s = .next { u with
        out := [.reply 0 ((u.ld k).logVec.flatMap fun r => [r.1, r.2]) []] }) ∧
      (exec (.getTimestamp t p l) s = .next { u with out := [.reply 0 [u.calendarNow] []] }) ∧
      (exec (.getSupportedLogs t p l) s = .next { u with out := [.reply 0 [1, 52] []] }) ∧
      (∀ off len, 52 < off + len → exec (.getLog t p l off len) s = .next { u with out := [.reply 2 [] []] }) ∧
      (∀ off len, off + len ≤ 52 → exec (.getLog t p l off len) s = .next { u with
        free := u.free + 1
        out := [.reply 0 [] (((mailboxOps.zipIdx.flatMap fun e => leBytes 2 e.1 ++
          leBytes 2 (fld (Config.freeValue u.free) (16 * e.2) 16)).drop off).take len)] }) ∧
      (exec (.identifyMemoryDevice t p l) s = .next { u with out := [.reply 0 [0, 2 ^ 46] []] }) ∧
      (exec (.getDynamicCapacityConfiguration t p l) s = .next { u with
        out := [if u.gen.phase = 6 then .reply 0 [1, 0, 2 ^ 46, 2097152] [] else .reply 6 [] []] }) ∧
      (exec (.getDynamicCapacityExtentList t p l) s = .next { u with
        out := [if u.gen.phase = 6 then .reply 0 ((u.ld k).accepted.flatMap fun r => [r.1, r.2.1]) []
          else .reply 6 [] []] })) ∧
    (exec (.getLdInfo t p) s = .next { u with
      out := [if u.portMode p = 1 then .reply 0 [0, 16] [] else .reply 3 [] []] }) ∧
    (exec (.getLdAllocations t p) s = .next { u with
      out := [if u.portMode p = 1 then .reply 0 (List.replicate 16 0) [] else .reply 3 [] []] }) ∧
    (exec (.getQosStatus t p l) s = .next { u with
      out := [if u.portMode p = 1 then .reply 0 [(u.ld k).lastLoad] [] else .reply 3 [] []] }) ∧
    (u.portMode p = 1 → exec (.getQosControl t p) s = .next { u with
      free := u.free + 1, out := [.reply 0 [(Config.freeValue u.free).toNat] []] }) ∧
    (u.portMode p ≠ 1 → exec (.getQosControl t p) s = .next { u with out := [.reply 3 [] []] })

/-- The mailbox commands that change something (R348, R349): the event records whose handles are named go when every
one of them is there; a log takes a vector below 128; offered ranges that the host accepts pass check 3 from this
stamp, an empty list rejects the oldest offer, and released ranges are no longer accepted. -/
def Obligations.MailboxChanges : Prop :=
  ∀ (s u : State) (t p l k n : Nat) (d : Ld), u = s.start t → k = ldKey p l → u.allotOf k = some n →
    u.barOn n = true → d = u.ld k →
    (∀ h : List Nat, (∀ x ∈ h, ∃ r ∈ d.infoLog, r.1 = x) → exec (.clearEventRecords t p l 0 h) s = .next
      { u.setLd k { d with infoLog := d.infoLog.filter fun r => !h.contains r.1 } with out := [.reply 0 [] []] }) ∧
    (∀ h : List Nat, (∀ x ∈ h, ∃ r ∈ d.dcdLog, r.1 = x) → exec (.clearEventRecords t p l 4 h) s = .next
      { u.setLd k { d with dcdLog := d.dcdLog.filter fun r => !h.contains r.1 } with out := [.reply 0 [] []] }) ∧
    (∀ (log : Nat) (h : List Nat), (log ≠ 0 ∧ log ≠ 4) ∨ (log = 0 ∧ ∃ x ∈ h, ∀ r ∈ d.infoLog, r.1 ≠ x) ∨
        (log = 4 ∧ ∃ x ∈ h, ∀ r ∈ d.dcdLog, r.1 ≠ x) →
      exec (.clearEventRecords t p l log h) s = .next { u with out := [.reply 2 [] []] }) ∧
    (∀ log v, log = 0 ∨ log = 4 → v < 128 → exec (.setEventInterruptPolicy t p l log v) s = .next
      { u.setLd k { d with logVec := sins d.logVec log v } with out := [.reply 0 [] []] }) ∧
    (∀ log v, (log ≠ 0 ∧ log ≠ 4) ∨ 128 ≤ v →
      exec (.setEventInterruptPolicy t p l log v) s = .next { u with out := [.reply 2 [] []] }) ∧
    (u.gen.phase = 6 → exec (.addDynamicCapacityResponse t p l []) s = .next
      { u.setLd k { d with offered := d.offered.drop 1 } with out := [.reply 0 [] []] }) ∧
    (∀ xs : List DcdExtent, u.gen.phase = 6 → xs ≠ [] → (∀ x ∈ xs, (x.dpa, x.len) ∈ d.offered) →
      exec (.addDynamicCapacityResponse t p l xs) s = .next { u.setLd k { d with
        accepted := d.accepted ++ xs.map fun x => (x.dpa, x.len, u.now)
        offered := d.offered.filter fun r => !xs.any fun x => x.dpa == r.1 && x.len == r.2 } with
        out := [.reply 0 [] []] }) ∧
    (∀ xs : List DcdExtent, u.gen.phase = 6 → (∃ x ∈ xs, (x.dpa, x.len) ∉ d.offered) →
      exec (.addDynamicCapacityResponse t p l xs) s = .next { u with out := [.reply 2 [] []] }) ∧
    (∀ xs : List DcdExtent, u.gen.phase = 6 →
      (∀ x ∈ xs, ∃ r ∈ d.accepted, r.1 ≤ x.dpa ∧ x.dpa + x.len ≤ r.1 + r.2.1) →
      exec (.releaseDynamicCapacity t p l xs) s = .next { u.setLd k { d with
        accepted := xs.foldl (fun a x => cutRange x.dpa (x.dpa + x.len) a) d.accepted } with
        out := [.reply 0 [] []] }) ∧
    (∀ xs : List DcdExtent, u.gen.phase ≠ 6 →
      exec (.addDynamicCapacityResponse t p l xs) s = .next { u with out := [.reply 6 [] []] } ∧
      exec (.releaseDynamicCapacity t p l xs) s = .next { u with out := [.reply 6 [] []] })

/-- SPDM of a serving logical device (R397 to R401, R406): certificate chains are read by part; a challenge, the six
measurements and a key exchange are answered with an RSA signature, after which alone the SLH-DSA one of the same bytes
can be read; a key delivered over an open session is held under the next handle, at most 16 live ones of a device; handles
go when they are forgotten, with their session, and 100 s after their delivery. -/
def Obligations.SpdmRows : Prop :=
  ∀ (s u : State) (t p l k : Nat) (d : Ld), u = s.start t → k = ldKey p l → d = u.ld k → swf u.ep.lds = true →
    (u.served k = true → d.crs = false → ∀ w : State, w = u.setLd k { d with lastSigned := none } →
      (∀ off n b, b = ((Config.certChain 0).drop off).take n → exec (.getCertificate t p l off n) s = .next { w with
        out := [.reply 0 [b.length, (Config.certChain 0).length - (off + b.length)] b] }) ∧
      (∀ off n, exec (.getPqChain t p l off n) s = .next { w with
        out := [.reply 0 [(Config.certChain 1).length] (((Config.certChain 1).drop off).take n)] }) ∧
      (∀ b, exec (.challenge t p l b) s = .next { w.setLd k { d with lastSigned := some b } with
        out := [.reply 0 [] (identitySign 0 b)] }) ∧
      (∀ b, exec (.getMeasurements t p l b) s = .next { w.setLd k { d with lastSigned := some b } with
        out := [.reply 0 [6] (([1, 2, 3, 4, 5, 6].flatMap fun i => leBytes 48 (u.measurement i).toNat) ++
          identitySign 0 b)] }) ∧
      (∀ b x, x = (w.setLd k { d with lastSigned := none, sessions := d.sessions ++ [maxN 0 d.sessions + 1] }).setLd k
          { d with lastSigned := some b, sessions := d.sessions ++ [maxN 0 d.sessions + 1] } →
        exec (.keyExchange t p l b) s = .next { x with
          out := [.reply 0 [maxN 0 d.sessions + 1] (identitySign 0 b)] }) ∧
      (∀ off b, d.lastSigned = some b → exec (.getPqSig t p l off) s = .next { u with
        out := [.reply 0 [] (((identitySign 1 b).drop off).take 1024)] }) ∧
      (∀ off, d.lastSigned = none → exec (.getPqSig t p l off) s = .next { u with out := [.reply 4 [] []] }) ∧
      (∀ n key, n ∈ d.sessions → (u.liveHandles k).length < 16 → exec (.keyDeliver t p l (some n) key) s = .next
        { w.setLd k { d with lastSigned := none, handles := d.handles ++ [(u.sec.nextHandle, key, n, u.now)] } with
          sec := { u.sec with nextHandle := (u.sec.nextHandle + 1) % 2 ^ 32 }
          out := [.reply 0 [u.sec.nextHandle] []] }) ∧
      (∀ n key, n ∈ d.sessions → 16 ≤ (u.liveHandles k).length →
        exec (.keyDeliver t p l (some n) key) s = .next { w with out := [.reply 3 [] []] }) ∧
      (∀ o key h, (∀ n, o = some n → n ∉ d.sessions) →
        exec (.keyDeliver t p l o key) s = .next { w with out := [.reply 0x0B [] []] } ∧
        exec (.keyForget t p l o h) s = .next { w with out := [.reply 0x0B [] []] }) ∧
      (∀ n h, n ∈ d.sessions → exec (.keyForget t p l (some n) h) s = .next
        { w.setLd k { d with lastSigned := none, handles := d.handles.filter fun x => x.1 != h } with
          out := [.reply 0 [] []] }) ∧
      (∀ n, exec (.endSession t p l n) s = .next { w.setLd k { d with
        lastSigned := none, sessions := d.sessions.filter (· != n)
        handles := d.handles.filter fun x => x.2.2.1 != n } with out := [.reply 0 [] []] })) ∧
    (∀ h, exec (.handleExpiry t p l h) s = .next (u.setLd k { d with
      handles := d.handles.filter fun x => x.1 != h || decide (u.now < x.2.2.2 + 100000000000) }))

/-- The management bus (R364, R403, R417, R426, R459, R460): the state and the sensors are read, a level is held before
READY and set from then on, a wake request signals PME, and a configuration record is gathered piece by piece, and
judged at its last. -/
def Obligations.ManagementBusRows : Prop :=
  ∀ (s u : State) (t : Count), u = s.start t →
    (exec (.getState t) s = .next { u with
      out := [.reply 0 [u.gen.phase, u.plan.cur.ver, u.levelNow, u.tam.pair] []] }) ∧
    (∀ l, u.gen.phase = 0 ∨ u.gen.phase = 7 → exec (.powerLevel t l) s = .next { u with out := [.reply 1 [] []] }) ∧
    (∀ l, u.gen.phase ≠ 0 → u.gen.phase ≠ 7 → 3 < l →
      exec (.powerLevel t l) s = .next { u with out := [.reply 2 [] []] }) ∧
    (∀ l, u.gen.phase ≠ 0 → u.gen.phase ≠ 7 → u.gen.phase ≠ 6 → l ≤ 3 → exec (.powerLevel t l) s = .next { u with
      plan := { u.plan with heldLevel := some l }, out := [.reply 0 [l] []] }) ∧
    (∀ l, u.gen.phase = 6 → l ≤ 3 → exec (.powerLevel t l) s = .next ((u.levelTo l).emit (.reply 0 [l] []))) ∧
    (∀ p l, exec (.wake t p l) s = .next ((u.signalPme (ldKey p l)).emit (.reply 0 [] []))) ∧
    (u.gen.conv = true →
      exec (.pldmSensorRead t 0) s = .next { u with out := [.reply 0 [0, fld u.pwr.input 0 16] []] } ∧
      exec (.pldmSensorRead t 1) s = .next { u with out := [.reply 0 [0, fld u.pwr.input 16 16] []] } ∧
      exec (.pldmSensorRead t 2) s = .next { u with out := [.reply 0 [0, fld u.pwr.coolant 0 8] []] } ∧
      exec (.pldmSensorRead t 3) s = .next { u with out := [.reply 0 [0, fld u.pwr.coolant 8 8] []] } ∧
      exec (.pldmSensorRead t 4) s = .next { u with out := [.reply 0 [0, fld u.pwr.coolant 16 16] []] } ∧
      exec (.pldmSensorRead t 5) s = .next { u with out := [.reply 0 [0, (u.dom u.hottest).junction] []] }) ∧
    (exec (.pldmSensorRead t 6) s = .next { u with out := [.reply 0 [0, u.levelNow] []] }) ∧
    (∀ i, i < 6 → u.gen.conv = false → exec (.pldmSensorRead t i) s = .next { u with out := [.reply 0 [1] []] }) ∧
    (∀ i, 6 < i → exec (.pldmSensorRead t i) s = .next { u with out := [.reply 2 [] []] }) ∧
    (∀ off b last, u.gen.phase = 0 ∨ u.gen.phase = 1 ∨ u.gen.phase = 7 →
      exec (.cfgRecord t off b last) s = .next { u with out := [.reply 1 [] []] }) ∧
    (∀ (off : Nat) (b : Bytes), u.gen.phase ≠ 0 → u.gen.phase ≠ 1 → u.gen.phase ≠ 7 → b.length ≤ 256 →
      off + b.length ≤ 17176 → ∀ buf : Sparse Byte,
      buf = b.zipIdx.foldl (fun m e => sput 0 m (off + e.2) e.1) u.sec.busBuf →
      exec (.cfgRecord t off b false) s = .next { u with
        sec := { u.sec with busBuf := buf }
        out := [.reply 0 [atB 1 u.sec.cfgAccepted + at_ 8 4 u.sec.cfgReason] []] } ∧
      ∀ w, w = State.commitRecord { u with sec := { u.sec with busBuf := buf } } (sbytes buf 17176) →
        exec (.cfgRecord t off b true) s = .next { w with
          sec := { w.sec with busBuf := [] }
          out := [.reply 0 [atB 1 w.sec.cfgAccepted + at_ 8 4 w.sec.cfgReason] []] })

/-- Configuration records and key slots (R402 to R405, R407, R409): a record that fails a check of R403 sets its reason
and nothing else, and one that passes waits for the next reset with its owner enrolled; the mask of a loaded slot is
read-only, a slot bound to an extent is not erased, and an erased one loses its wrapped key with its key. -/
def Obligations.ConfigurationAndSlotWrites : Prop :=
  (∀ (s : State) (b : Bytes), (s.judgeRecord b ≠ 0 →
      s.commitRecord b = { s with sec := { s.sec with cfgAccepted := false, cfgReason := s.judgeRecord b } }) ∧
    (s.judgeRecord b = 0 → ∀ w, w = s.commitRecord b → w = { s with sec := w.sec } ∧
      w.sec = { s.sec with
        cfgAccepted := true, cfgReason := 0, nextRecord := b, owned := true
        ownerRsa := w.sec.ownerRsa, ownerSlh := w.sec.ownerSlh } ∧
      (leAt b 40 48 ≠ 0 → leAt b 88 48 ≠ 0 →
        w.sec.ownerRsa = BitVec.ofNat 384 (leAt b 40 48) ∧ w.sec.ownerSlh = BitVec.ofNat 384 (leAt b 88 48)) ∧
      (leAt b 40 48 = 0 ∨ leAt b 88 48 = 0 → s.sec.owned = true →
        w.sec.ownerRsa = s.sec.ownerRsa ∧ w.sec.ownerSlh = s.sec.ownerSlh))) ∧
  (∀ (s u : State) (t : Count) (v : Reg32) (x : Reg64) (k : Nat), s.barOn 0 = true → u = s.start t →
    k = fld u.sec.slotSel 0 8 →
    (exec (.cfgCommit t v) s = .next (u.commitRecord (sbytes u.sec.cfgBuf 17176))) ∧
    ((u.slot k).loaded = true → exec (.secSlotAssign t x) s = .next { u with
      lowHalf := sdel u.lowHalf 0x130028, sec := { u.sec with slotErr := true } }) ∧
    ((u.slot k).loaded = false → exec (.secSlotAssign t x) s = .next { u with
      lowHalf := sdel u.lowHalf 0x130028
      sec := { u.sec with
        slots := sput .init u.sec.slots k { u.slot k with assign := x }, slotAssign := x } }) ∧
    (u.slotBound k ≠ 0 → exec (.slotErase t v) s = .next { u with sec := { u.sec with slotErr := true } }) ∧
    (u.slotBound k = 0 → exec (.slotErase t v) s = .next { u with sec := { u.sec with
      slots := sput .init u.sec.slots k { u.slot k with loaded := false, key := 0 }
      wrapped := sdel u.sec.wrapped k
      erasePending := u.sec.erasePending || (u.slot k).loaded } }) ∧
    (exec (.keyEraseFlashDone t) s = .next { u with sec := { u.sec with erasePending := false } }))

/-! ### Tamian links and federation -/

/-- What the rows of a Tamian port do (R368 to R372, R381): a HELLO that fails its checks leaves the port down with an
error bit, one that passes takes it up at its width and has its round trip measured; the fourth training in 24 h retires a
port; a link that goes down or narrows is reported, and one that is down trains again 1 s later; echoes are answered and measured, the smallest of the last 16 round trips being the port's;
what is discarded or sent again is counted. -/
def Obligations.TamianLinkRows : Prop :=
  ∀ (s u : State) (t p : Nat), u = s.start t →
    (∀ id lead auth fw w, u.portEnabled p = false ∨ (u.tport p).retired = true ∨ (w ≠ 1 ∧ w ≠ 2) →
      exec (.hello t p id lead auth fw w) s = .next u) ∧
    (∀ id lead auth fw w b, u.portEnabled p = true → (u.tport p).retired = false → w = 1 ∨ w = 2 →
      (id = u.myId ∧ b = 0) ∨ (id ≠ u.myId ∧ b = 1 ∧ (auth = false ∨
        (p = 3 ∧ (bitOf u.tam.id 8 = false ∨ id ≠ u.partnerId ∨ lead = u.isLead)))) →
      exec (.hello t p id lead auth fw w) s = .next (State.fault0 (State.tamBit { u with tam := { u.tam with
        ports := sput .init u.tam.ports p { u.tport p with up := false, width := 0, tried := u.now } } } b) 6 0x63 p)) ∧
    (∀ id lead fw w, u.portEnabled p = true → (u.tport p).retired = false → w = 2 ∨ (w = 1 ∧ (u.tport p).width = 1) →
      id ≠ u.myId → p ≠ 3 → ∀ x : State,
      x = { u with tam := { u.tam with ports := sput .init u.tam.ports p { u.tport p with
        up := true, width := w, peer := id, sent := 0
        replays := satAdd 16 (u.tport p).replays (u.tport p).corrupt, corrupt := 0 } } } →
      exec (.hello t p id lead true fw w) s = .next (State.digestUpdate (State.portPlan (State.portSend (x.portSend p
        (x.message 0x01 0 id 0 0 [u.myId, if u.isLead then 1 else 0, u.sec.fwVersion.toNat, fw.toNat])) p
        (x.message 0x02 0 id 0 0 [u.now]))))) ∧
    ((u.tport p).up = false → ∀ w, exec (.tamianLinkDown t p w) s = .next u) ∧
    ((u.tport p).up = true → ∀ w l, l = recent (u.tport p).starts u.now dayCc → ∀ x : State,
      x = { u with tam := { u.tam with ports := sput .init u.tam.ports p { u.tport p with
        starts := l, retrains := satAdd 16 (u.tport p).retrains 1 } } } →
      (4 ≤ l.length → exec (.tamianLinkDown t p w) s = .next (x.retirePort p)) ∧
      (l.length < 4 → w ≠ 1 → w ≠ 2 → exec (.tamianLinkDown t p w) s = .next (State.digestUpdate (State.fault0
        (x.modTport p fun y => { y with up := false, width := 0, tried := u.now }) 6 0x60 p))) ∧
      (l.length < 4 → w = 2 → exec (.tamianLinkDown t p w) s = .next (State.digestUpdate (State.portPlan
        (x.modTport p fun y => { y with width := 2 }))))) ∧
    ((u.tport p).up = false → (u.tport p).retired = false → u.portEnabled p = true →
      (u.tport p).tried + 1000000000 ≤ u.now → ∀ w, w = 1 ∨ w = 2 →
      exec (.tamianTrainingRetry t p w) s = .next { u with
        tam := { u.tam with ports := sput .init u.tam.ports p { u.tport p with tried := u.now } }
        out := [.tam p
        (u.message 0x01 0 0 0 0 [u.myId, if u.isLead then 1 else 0, u.sec.fwVersion.toNat])] }) ∧
    ((u.tport p).up = true ∨ (u.tport p).retired = true ∨ u.portEnabled p = false ∨
        u.now < (u.tport p).tried + 1000000000 → ∀ w,
      exec (.tamianTrainingRetry t p w) s = .next u) ∧
    (∀ m : TamMsg, exec (.echo t p m) s = .next (u.portSend p
      { u.message 0x03 m.cls m.src m.tag 0 m.nums with flags := 2 })) ∧
    (∀ m : TamMsg, ∀ l, l = ((u.now - nth m.nums 0) :: (u.tport p).rtts).take 16 →
      exec (.echoReply t p m) s = .next { u with tam := { u.tam with
        ports := sput .init u.tam.ports p { u.tport p with
          rtts := l, rtt := min 65535 (l.foldl Nat.min (u.now - nth m.nums 0)) } } }) ∧
    (∀ n, (u.tport p).up = true → (u.tport p).sent = n → n < 4096 → ∀ q, q ≤ n → n ≤ q + 512 →
      exec (.flitReplayRequest t p q) s = .next { u with tam := { u.tam with
        ports := sput .init u.tam.ports p { u.tport p with replays := satAdd 16 (u.tport p).replays (n - q) } } }) ∧
    (∀ m, exec (.reservedMessageType t p m) s = .next { u with tam := { u.tam with
      ports := sput .init u.tam.ports p { u.tport p with replays := satAdd 16 (u.tport p).replays 1 } } })

/-- What is sent, and where (R372, R373, R381): a message leaves on its port while that is up, and its flits are counted;
by the route table without a route NO_ROUTE (3) is recorded; a message for another part is passed on with a hop less,
or its source is told that it has no hop left or no route; every 1 s ECHO is sent on every port, and SYNC_SEND sends one SYNC. -/
def Obligations.TamianMessagesAreSent : Prop :=
  (∀ (s : State) (p : Nat) (m : TamMsg),
    ((s.tport p).up = false → s.portSend p m = s) ∧
    ((s.tport p).up = true → s.portSend p m = { s with
      tam := { s.tam with ports := sput .init s.tam.ports p { s.tport p with
        sent := ((s.tport p).sent + tamFlits m) % 4096 } }
      out := s.out ++ [.tam p m] })) ∧
  (∀ (s : State) (m : TamMsg),
    (∀ p h, s.route m.dst = some (p, h) → s.tamSend m = s.portSend p m) ∧
    (s.route m.dst = none → s.tamSend m = { s with tam := { s.tam with status := setBit s.tam.status 3 true } }) ∧
    (∀ r, s.route m.dst = some r → m.hops ≠ 0 → bitOf s.tam.ctrl 8 = true →
      s.forward m = s.tamSend { m with hops := m.hops - 1 }) ∧
    (m.hops = 0 → bitOf (BitVec.ofNat 8 m.flags) 1 = false →
      s.forward m = State.tamReply { s with tam := { s.tam with status := setBit s.tam.status 4 true } } m m.type 4 []) ∧
    (m.hops ≠ 0 → bitOf (BitVec.ofNat 8 m.flags) 1 = false → bitOf s.tam.ctrl 8 = false ∨ s.route m.dst = none →
      s.forward m = State.tamReply { s with tam := { s.tam with status := setBit s.tam.status 3 true } } m m.type 2 [])) ∧
  (∀ (s u : State) (t : Count), u = s.start t →
    (u.tam.echoAt + 1000000000 ≤ u.now → exec (.rttMeasure t) s = .next ((List.range 4).foldl (fun s p =>
      s.portSend p (s.message 0x02 0 (s.tport p).peer 0 0 [s.now])) { u with tam := { u.tam with echoAt := u.now } })) ∧
    (u.now < u.tam.echoAt + 1000000000 → exec (.rttMeasure t) s = .next u) ∧
    ∀ (v : Reg32) (w : State), s.managed → w = { u with tam := { u.tam with ctrl := v &&& 0x000F0106 } } →
      (∀ p, p < 4 → (w.tport p).up = true → w.portEnabled p = true) →
      exec (.syncSend t v) s = .next (w.portSend (fld v 1 2)
        (w.message 0x04 0 (w.tport (fld v 1 2)).peer 0 0 [w.now])))

/-- Messages of federation (R95, R372 to R380, R443, R444): none is served from a port that is down; one for another part is
passed on; the home answers a PAGE_READ, registers and ends remote views, keeps the pages of a coming publish and
judges it, or takes it in the order of the tie while another writer could publish the extent at this count (R95), and a
publish it may not make is refused with status 3; a reply is given to the request that waits for its
tag, and dropped when none does; a REVOKED revokes the proxies it names. -/
def Obligations.FederationRows : Prop :=
  ∀ (s u : State) (t p : Nat) (m : TamMsg), u = s.start t →
    ((u.tport p).up = false → (∀ env : ReadEnv, quietEnv env → s.unheld →
        exec (.pageRead t p m env) s = .next u) ∧
      exec (.pageData t p m) s = .next u ∧ exec (.pageWrite t p m) s = .next u ∧
      exec (.openRemote t p m) s = .next u ∧ exec (.openReply t p m) s = .next u ∧
      exec (.publishRemote t p m) s = .next u ∧ exec (.publishReply t p m) s = .next u ∧
      exec (.closeRemote t p m) s = .next u ∧ exec (.revoked t p m) s = .next u) ∧
    ((u.tport p).up = true → u.forMe m = false → (∀ env : ReadEnv, quietEnv env → s.unheld →
        exec (.pageRead t p m env) s = .next (u.forward m)) ∧
      exec (.pageData t p m) s = .next (u.forward m) ∧ exec (.pageWrite t p m) s = .next (u.forward m) ∧
      exec (.openRemote t p m) s = .next (u.forward m) ∧ exec (.openReply t p m) s = .next (u.forward m) ∧
      exec (.publishRemote t p m) s = .next (u.forward m) ∧ exec (.publishReply t p m) s = .next (u.forward m) ∧
      exec (.closeRemote t p m) s = .next (u.forward m) ∧ exec (.revoked t p m) s = .next (u.forward m)) ∧
    ((u.tport p).up = true → u.forMe m = true →
      (∀ (env : ReadEnv) e x w, quietEnv env → s.unheld → u.homeExtent m = .ok (e, x, w) →
        (m.nums = [] → exec (.pageRead t p m env) s = .next
          (u.tamReply m 0x11 0 [x.base, x.size, x.attr.toNat, if w then 1 else 0])) ∧
        (∀ v, m.nums = [v] → exec (.pageRead t p m env) s = .next (u.servePage m e x v env)) ∧
        (∀ v a, m.nums = [v, a] → exec (.pageRead t p m env) s = .next (if m.src = u.partnerId then
          u.serveLine m e a env else u))) ∧
      (∀ (env : ReadEnv) st, quietEnv env → s.unheld → u.homeExtent m = .error st →
        exec (.pageRead t p m env) s = .next (u.tamReply m 0x11 st [])) ∧
      (∀ w, u.waitOf m [0x10] = some w → exec (.pageData t p m) s = .next
        (((u.dropWait w).routeBit m.status).pageAnswer w m)) ∧
      (u.waitOf m [0x10] = none → exec (.pageData t p m) s = .next u) ∧
      (∀ w, u.waitOf m [0x13] = some w → exec (.openReply t p m) s = .next
        (((u.dropWait w).routeBit m.status).openAnswer w m)) ∧
      (u.waitOf m [0x13] = none → exec (.openReply t p m) s = .next u) ∧
      (∀ w, u.waitOf m [0x15, 0x115] = some w → exec (.publishReply t p m) s = .next
        ((((u.passAnswer w m).dropWait w).routeBit m.status).publishAnswer w m)) ∧
      (u.tam.pair ≠ 1 ∨ u.isLead = false → ∀ w, u.passAnswer w m = u) ∧
      (u.waitOf m [0x15, 0x115] = none → exec (.publishReply t p m) s = .next u) ∧
      (∀ e x y, u.homeExtent m = .ok (e, x, true) → u.extent e = some y → u.tam.pair ≠ 1 →
        exec (.pageWrite t p m) s = .next { u with ext := { u.ext with tbl := sins u.ext.tbl e { y with
          inPages := (y.inPages.filter fun i => !(i.src == m.src && i.page == (m.addr - x.base) / 65536)) ++
            [InPage.mk m.src ((m.addr - x.base) / 65536) (msgCells u.now m) (msgLens m) u.now] } } }) ∧
      (∀ e x w, u.homeExtent m = .ok (e, x, w) → nth m.nums 0 = 0 → exec (.openRemote t p m) s = .next
        (State.tamReply (State.release (u.setExtent e { x with
          remoteViews := (x.remoteViews.filter (·.1 != m.src)) ++ [(m.src, x.ver)] }) e) m 0x14 0 [x.ver, 0])) ∧
      (∀ st, u.homeExtent m = .error st → exec (.openRemote t p m) s = .next (u.tamReply m 0x14 st [])) ∧
      (u.tam.pair ≠ 1 → (∀ e x, u.homeExtent m = .ok (e, x, true) →
          exec (.publishRemote t p m) s = .next (if u.rivalPublish e then
            { u with ties := insBy Tie.before ⟨u.now, 64, m.src, 0, .publish m false, noEnv, u.old⟩ u.ties }
            else u.remotePublish m e x false)) ∧
        (∀ e x, u.homeExtent m = .ok (e, x, false) →
          exec (.publishRemote t p m) s = .next (u.tamReply m 0x16 3 [])) ∧
        (∀ st, u.homeExtent m = .error st → exec (.publishRemote t p m) s = .next (u.tamReply m 0x16 st []))) ∧
      (∀ e x y, m.flags / 2 % 2 = 0 → u.extentAt m.addr = some (e, x) → u.extent e = some y →
        exec (.closeRemote t p m) s = .next (State.tamReply (State.release (u.setExtent e { y with
          remoteViews := y.remoteViews.filter (·.1 != m.src), inPages := y.inPages.filter (·.src != m.src) }) e)
          m 0x17 0 [])) ∧
      (∀ w, m.flags / 2 % 2 = 1 → u.waitOf m [0x17] = some w → exec (.closeRemote t p m) s = .next { u with
        tam := { u.tam with
          waits := u.tam.waits.filter (· != w), closing := u.tam.closing.filter (· != w.ext) } }) ∧
      (∀ l, l = (u.ext.tbl.filter fun e => e.2.proxy && e.2.home == m.src && (e.2.homeAddr 0 == m.addr ||
          nth m.nums 1 != 0 && decide (m.addr ≤ e.2.homeAddr 0) && decide (e.2.homeAddr 0 < m.addr + nth m.nums 1))) →
        exec (.revoked t p m) s = .next (l.foldl (fun s e => s.homeRevokes e.1 e.2) u)))

/-- What the home's clocks do (R373, R378, R380): an unanswered CLOSE_REMOTE is sent again after 1 s; received pages whose publish
has not come within the bound go, and before it stay; a request whose bound has passed counts as NO_ROUTE (status 2), and a publish's late answer is still waited for. -/
def Obligations.FederationTimeouts : Prop :=
  ∀ (s u : State) (t e n : Nat), u = s.start t →
    (∀ x, u.extent e = some x → u.tam.closing.contains e = true →
      (u.tam.waits.any fun w => w.type == 0x17 && w.ext == e && decide (u.now < w.at_ + 1000000000)) = false →
      exec (.closeRemoteResend t e) s = .next
      (State.closeRemote { u with tam := { u.tam with
        waits := u.tam.waits.filter fun w => !(w.type == 0x17 && w.ext == e) } } e x)) ∧
    (u.tam.closing.contains e = false ∨ u.extent e = none ∨
      (u.tam.waits.any fun w => w.type == 0x17 && w.ext == e && decide (u.now < w.at_ + 1000000000)) = true →
      exec (.closeRemoteResend t e) s = .next u) ∧
    (∀ x, u.extent e = some x → ∀ last, last = maxN 0 ((x.inPages.filter (·.src == n)).map (·.at_)) →
      exec (.pageWriteDiscard t n e) s = .next (u.setExtent e (if u.now < last + u.bound380 n then x
        else { x with inPages := x.inPages.filter (·.src != n) }))) ∧
    (u.extent e = none → exec (.pageWriteDiscard t n e) s = .next u) ∧
    ((u.tam.waits.find? fun w => w.tag == n && [0x10, 0x13, 0x15].contains w.type) = none →
      exec (.tamianRequestTimeout t n) s = .next u) ∧
    (∀ w, (u.tam.waits.find? fun w => w.tag == n && [0x10, 0x13, 0x15].contains w.type) = some w →
      (u.now < w.at_ + u.bound380 w.dst → exec (.tamianRequestTimeout t n) s = .next u) ∧
      (w.at_ + u.bound380 w.dst ≤ u.now → ∀ m : TamMsg,
        m = { u.message w.type 0 u.myId n 0 [] with flags := 2, status := 2 } →
        (w.type = 0x10 → exec (.tamianRequestTimeout t n) s = .next ((State.tamBit (u.dropWait w) 3).pageAnswer w m)) ∧
        (w.type = 0x13 → exec (.tamianRequestTimeout t n) s = .next ((State.tamBit (u.dropWait w) 3).openAnswer w m)) ∧
        (w.type = 0x15 → ∀ x, x = (State.passAnswer (State.tamBit (u.dropWait w) 3) w m).publishAnswer w m →
          exec (.tamianRequestTimeout t n) s = .next { x with tam := { x.tam with waits := x.tam.waits ++
            [{ w with type := 0x115, cmd := none, page := ((w.cmd.bind (State.tamBit (u.dropWait w) 3).cmd).map
              (·.allot)).getD 0 }] } })))

/-! ### Paired expanders -/

/-- Heartbeats and the loss of a partner (R384 to R387): one is sent every 10,000 CC; a first heartbeat pairs (1), one of a partner in SOURCING (5)
starts to resilver (4), and one of a PAIRED partner ends that; without T3, or without a heartbeat for 1 ms, the LEAD
and a part in SOURCING go on SOLO and the other is FENCED. -/
def Obligations.HeartbeatRows : Prop :=
  ∀ (s u : State) (t : Count) (m : TamMsg), u = s.start t →
    (bitOf u.tam.id 8 = true → u.tam.beatAt + 10000 ≤ u.now → ∀ x : State,
      x = u.portSend 3 (u.message 0x23 0 u.partnerId 0 0 [u.now, u.tam.pair]) →
      exec (.heartbeatSend t) s = .next { x with tam := { x.tam with beatAt := u.now } }) ∧
    (bitOf u.tam.id 8 = false ∨ u.now < u.tam.beatAt + 10000 → exec (.heartbeatSend t) s = .next u) ∧
    ((u.tport 3).up = false ∨ bitOf u.tam.id 8 = false → exec (.heartbeat t m) s = .next u) ∧
    ((u.tport 3).up = true → bitOf u.tam.id 8 = true → ∀ w : State,
      w = { u with tam := { u.tam with lastBeat := u.now } } →
      (u.tam.pair = 0 → nth m.nums 1 = 0 ∨ nth m.nums 1 = 1 → exec (.heartbeat t m) s = .next
        (State.sendRates { w with tam := { w.tam with pair := 1 } } u.plan.cur)) ∧
      (u.tam.pair = 0 ∨ u.tam.pair = 1 ∨ u.tam.pair = 3 → nth m.nums 1 = 5 → u.tam.waits = [] →
        exec (.heartbeat t m) s = .next { w with tam := { w.tam with pair := 4 } }) ∧
      (u.tam.pair = 4 → nth m.nums 1 = 1 → exec (.heartbeat t m) s = .next w.resilvered) ∧
      (u.tam.pair = 1 → nth m.nums 1 = 1 → exec (.heartbeat t m) s = .next w)) ∧
    (u.onePlan = false ∨ ((u.tport 3).up = true ∧ u.now < u.tam.lastBeat + 1000000) →
      exec (.partnerLoss t) s = .next u) ∧
    (u.onePlan = true → (u.tport 3).up = false ∨ u.tam.lastBeat + 1000000 ≤ u.now → ∀ w : State,
      w = State.fault0 { u with tam := { u.tam with status := setBit u.tam.status 5 true } } 6 0x64 3 →
      exec (.partnerLoss t) s = .next (if w.tam.pair = 5 ∨ (w.tam.pair = 1 ∧ w.isLead) then w.solo
        else w.fencePart))

/-- Work for a partner (R382, R383, R386, R387, R441 to R443): a line of its arbiter is performed and confirmed, a line
for this arbiter performed and returned, each with whether it was performed, and a store confirmed as performed is
acknowledged, any other fails; a command of the partner is applied, an
answer is given to the command that waits for it, and the partner's rates are kept; pages go to a returning partner in
the list's order; a FENCED part that takes over is SOLO, and a SOLO part that takes its partner back sends its tables
and is SOURCING. -/
def Obligations.PairRows : Prop :=
  ∀ (s u : State) (t : Count) (m : TamMsg) (v : Reg32), u = s.start t →
    ((u.tport 3).up = false → exec (.mirror t m) s = .next u ∧ exec (.mirrorAck t m) s = .next u ∧
      exec (.pairOp t m) s = .next u ∧ exec (.resilverPage t m) s = .next u) ∧
    ((u.tport 3).up = true → exec (.mirrorAck t m) s = .next (u.mirrorDone m.tag (m.status == 0))) ∧
    ((u.tport 3).up = true → u.onePlan = true → m.flags / 2 % 2 = 0 →
      exec (.mirror t m) s = .next (State.portSend (u.mirrored m).2 3 (
        if u.isArbiter m.addr then { m with
          flags := 2, src := (u.mirrored m).2.myId, dst := (u.mirrored m).2.partnerId
          status := if (u.mirrored m).1 then 0 else 5 }
        else { (u.mirrored m).2.message 0x21 0 (u.mirrored m).2.partnerId m.tag m.addr [] with
          flags := 2, status := if (u.mirrored m).1 then 0 else 5 }))) ∧
    ((u.tport 3).up = true → u.onePlan = true → m.flags / 2 % 2 = 1 →
      exec (.mirror t m) s = .next (if m.status = 0 then (u.mirrored m).2.mirrorDone m.tag (u.mirrored m).1
        else u.mirrorDone m.tag false)) ∧
    ((u.tport 3).up = true → u.onePlan = true → m.flags / 2 % 2 = 1 →
      (∀ w, u.waitOf m [0x22] = some w → exec (.pairOp t m) s = .next (u.pairAnswer w m)) ∧
      (u.waitOf m [0x22] = none → exec (.pairOp t m) s = .next u)) ∧
    ((u.tport 3).up = true → u.onePlan = true → m.flags / 2 % 2 = 0 →
      (∀ a b p l, m.lines = (a, b, p) :: l → (∀ r, m.nums ≠ 0xE0 :: r) →
        exec (.pairOp t m) s = .next (u.pairApply m p (l.map (·.2.2)))) ∧
      (∀ r, m.nums = 0 :: r → m.lines = [] → exec (.pairOp t m) s = .next (u.pairRates r)) ∧
      (∀ e a f r, m.nums = 0x16 :: e :: a :: f :: r → m.lines = [] →
        exec (.pairOp t m) s = .next (u.leadAnswer e a { m with status := f, nums := r })) ∧
      (∀ k r, m.nums = k :: r → k ≠ 0 → k ≠ 0x15 → k ≠ 0x16 → (k = 0xE0 ∨ m.lines = []) →
        exec (.pairOp t m) s = .next (if u.tam.pair = 4 then u.storeTable m k r else u))) ∧
    ((u.tport 3).up = true → (u.tam.pair = 4 → exec (.resilverPage t m) s = .next (u.storeResilver m)) ∧
      (u.tam.pair = 5 → u.tam.resLeft = [] → exec (.resilverPage t m) s = .next u.resilvered.beat) ∧
      (∀ k r w, u.tam.pair = 5 → u.tam.resLeft = k :: r → r ≠ [] → w = u.sendResilver k →
        exec (.resilverPage t m) s = .next { w with tam := { w.tam with
          resSent := (w.tam.resSent + 1) % 2 ^ 32, resLeft := r } }) ∧
      (u.tam.pair ≠ 4 → u.tam.pair ≠ 5 → exec (.resilverPage t m) s = .next u)) ∧
    (s.managed →
      (u.tam.pair = 3 → bitOf v 9 = false → exec (.takeover t v) s = .next u.solo) ∧
      (u.tam.pair ≠ 3 → bitOf v 9 = false → exec (.takeover t v) s = .next u) ∧
      (u.tam.pair = 2 → (u.tport 3).up = true → ∀ w,
        w = State.sendTables (State.beat { u with tam := { u.tam with pair := 5 } }) →
        exec (.rejoin t v) s = .next { w with tam := { w.tam with resSent := 0, resLeft := w.resilverList } }) ∧
      (u.tam.pair ≠ 2 → bitOf v 8 = false → exec (.rejoin t v) s = .next u))

/-! ### GDDR7 maintenance -/

/-- Refreshes (R114 to R116): one falls due every 238 CC, every 119 CC while the channel is hot, and not earlier; it is
taken from those issued ahead, goes out on an idle channel, is postponed below POSTPONE_MAX, or goes out with what is
owed: in the interruption that began less than 2,000 CC ago, or forced, unless a forced train began less than 2,000 CC
ago or the next pause or slice starts within 2,000 CC, which takes it; an idle channel issues what it owes and runs
ahead by at most PULLIN_MAX; a channel out of service does neither, nor does one while GDDR7 refreshes itself (R362). -/
def Obligations.RefreshRows : Prop :=
  ∀ (s u : State) (t ch : Nat) (c : Chan) (put : State → Chan → State), u = s.start t → c = u.chan ch →
    swf u.drm.chans = true →
    (put = fun w x => { w with drm := { w.drm with chans := sput .init w.drm.chans ch x } }) →
    (c.st = 4 ∨ c.st = 5 ∨ u.ep.lowPower = true → ∀ busy n, exec (.refreshDue t ch busy) s = .next u ∧
      exec (.pullInRefresh t ch n busy) s = .next u) ∧
    (∀ n, exec (.pullInRefresh t ch n true) s = .next u) ∧
    (u.now < c.due → ∀ busy, exec (.refreshDue t ch busy) s = .next u) ∧
    (c.st ≠ 4 → c.st ≠ 5 → u.ep.lowPower = false →
      (∀ n, exec (.pullInRefresh t ch n false) s = .next (put u { c with
        owed := c.owed - n, ahead := min (fld u.drm.ctrl 4 4) (c.ahead + (n - c.owed)) })) ∧
      (c.due ≤ u.now → ∀ (d : Chan) (w : State), w = put u d →
        d = { c with due := (if c.due = 0 then u.now else c.due) + if c.hot then 119 else 238 } →
        (0 < c.ahead → ∀ busy, exec (.refreshDue t ch busy) s = .next (put w { d with ahead := c.ahead - 1 })) ∧
        (c.ahead = 0 → exec (.refreshDue t ch false) s = .next (put w { d with owed := 0 })) ∧
        (c.ahead = 0 → c.owed + 1 < fld u.drm.ctrl 0 4 →
          exec (.refreshDue t ch true) s = .next (put w { d with owed := c.owed + 1 })) ∧
        (c.ahead = 0 → fld u.drm.ctrl 0 4 ≤ c.owed + 1 →
          (c.lastMaint ≠ 0 → u.now < c.lastMaint + 2000 →
            exec (.refreshDue t ch true) s = .next (put w { d with owed := 0 })) ∧
          (c.lastMaint = 0 ∨ c.lastMaint + 2000 ≤ u.now →
            ((c.lastTrain ≠ 0 ∧ u.now < c.lastTrain + 2000) ∨ c.nextStop ch u.now < u.now + 2000 →
              exec (.refreshDue t ch true) s = .next (put w { d with owed := c.owed + 1 })) ∧
            (c.lastTrain = 0 ∨ c.lastTrain + 2000 ≤ u.now → u.now + 2000 ≤ c.nextStop ch u.now →
              exec (.refreshDue t ch true) s = .next (put w { d with
                owed := 0, forced := min (c.forced + 1) 65535, lastTrain := u.now })))))) ∧
    (c.st ≠ 1 → ch < 72 → u.now ≤ c.nextStop ch u.now ∧ c.nextStop ch u.now % 1000000 = ch * 13888 ∧
      c.nextStop ch u.now < u.now + 1000000)

/-- Training pauses and sweeps (R114, R116, R117, R119, R120): the pause of channel c starts when the count modulo
1,000,000 is 13,888 times c, and a forced one 2,000 CC after the last interruption at the earliest; a pause reads the
temperature and the worst margin, issues what would pass POSTPONE_MAX within it, and one
under 8/256 UI starts an escalation; slices start 4,000 CC apart; a slice ends the escalation when it passes, in LIMP and
retired at the limp step; steps 1, 2, 3 and the limp step give way after 32, 64, 128 and 64 slices, the last to the
channel's loss. An escalation of a NORMAL channel begins with its first sweep, or straight with the limp step when it is
the fourth start within 24 h of the first of the four, whether or not the earlier ones passed (which four is the model's
reading, assumption 79), and in any other state none begins (the model's reading, assumption 84). -/
def Obligations.SweepRows : Prop :=
  (∀ (s u : State) (t ch margin : Nat) (c : Chan) (put : State → Chan → State), u = s.start t →
    c = u.chan ch → swf u.drm.chans = true →
    (put = fun w x => { w with drm := { w.drm with chans := sput .init w.drm.chans ch x } }) →
    (c.st = 1 ∨ c.st = 4 ∨ c.st = 5 ∨ u.ep.lowPower = true → ∀ hot,
      exec (.retrainingPause t ch margin hot) s = .next u) ∧
    (u.now % 1000000 ≠ ch * 13888 → ch ∉ u.prt.pauses ∨ (c.lastMaint ≠ 0 ∧ u.now < c.lastMaint + 2000) →
      ∀ hot, exec (.retrainingPause t ch margin hot) s = .next u) ∧
    (c.st ≠ 1 → c.st ≠ 4 → c.st ≠ 5 → u.ep.lowPower = false →
      (u.now % 1000000 = ch * 13888 ∧ c.lastMaint ≠ u.now) ∨ (u.now % 1000000 ≠ ch * 13888 ∧ ch ∈ u.prt.pauses ∧
        (c.lastMaint = 0 ∨ c.lastMaint + 2000 ≤ u.now) ∧ (c.lastTrain = 0 ∨ c.lastTrain + 2000 ≤ u.now)) →
      ∀ (hot : Bool) (d e : Chan) (w : State),
      w = (if u.now % 1000000 = ch * 13888 then u else
        { u with prt := { u.prt with pauses := u.prt.pauses.erase ch } }) →
      d = { c with hot := hot, margin := margin % 256, lastMaint := u.now } →
      e = { d with owed := if fld u.drm.ctrl 0 4 ≤ c.owed + 2000 / (if hot then 119 else 238) then 0 else c.owed } →
      (8 ≤ margin → exec (.retrainingPause t ch margin hot) s = .next (put (put (put w d) e) { e with
          retrains := (c.retrains + 1) % 2 ^ 32 })) ∧
      (margin < 8 → exec (.retrainingPause t ch margin hot) s = .next ((put (put w d) e).escalate ch))) ∧
    (c.st ≠ 1 ∨ u.ep.lowPower = true ∨ (c.lastSlice ≠ 0 ∧ u.now < c.lastSlice + 4000) →
      exec (.sweepSlice t ch margin) s = .next u) ∧
    (c.st = 1 → u.ep.lowPower = false → c.lastSlice = 0 ∨ c.lastSlice + 4000 ≤ u.now →
      c.lastMaint = 0 ∨ c.lastMaint + 2000 ≤ u.now → c.lastTrain = 0 ∨ c.lastTrain + 2000 ≤ u.now →
      ∀ (d e : Chan) (w : State),
      d = { c with
        slices := c.slices + 1, lastMaint := u.now, lastSlice := u.now, margin := margin % 256 } →
      e = { d with owed := if fld u.drm.ctrl 0 4 ≤ c.owed + 2000 / (if c.hot then 119 else 238) then 0 else c.owed } →
      w = put (put u d) e →
      (8 ≤ margin → c.sweep < 4 → exec (.sweepSlice t ch margin) s = .next (put w { e with
        st := 0, slices := 0, lastChange := u.now })) ∧
      (8 ≤ margin → 4 ≤ c.sweep → exec (.sweepSlice t ch margin) s = .next (State.retireChannel (put w { e with
        st := 2, slices := 0, copied := none, switched := 0, lastChange := u.now }) ch 0x11)) ∧
      (margin < 8 → ∀ n, (c.sweep = 1 ∧ n = 32) ∨ (c.sweep = 2 ∧ n = 64) ∨ (c.sweep = 3 ∧ n = 128) ∨
          (c.sweep = 4 ∧ n = 64) →
        (c.slices + 1 < n → exec (.sweepSlice t ch margin) s = .next w) ∧
        (n ≤ c.slices + 1 → c.sweep < 4 → exec (.sweepSlice t ch margin) s = .next (put w { e with
          sweep := c.sweep + 1, slices := 0 })) ∧
        (n ≤ c.slices + 1 → c.sweep = 4 → exec (.sweepSlice t ch margin) s = .next (w.channelLost ch))))) ∧
  (dayCc = 86400000000000 ∧ ∀ (s : State) (c : Nat),
    ((s.chan c).st ≠ 0 → s.escalate c = s) ∧
    ((s.chan c).st = 0 → swf s.drm.chans = true → ∀ a b d : Count, a ≤ b → b ≤ d → d ≤ s.now →
      ((s.chan c).escStarts = [a, b, d] →
        ((s.escalate c).chan c).st = 1 ∧
        (((s.escalate c).chan c).sweep = if s.now < a + dayCc then 4 else 1)) ∧
      ((s.chan c).escStarts.length < 3 → ((s.escalate c).chan c).st = 1 ∧ ((s.escalate c).chan c).sweep = 1)))

/-- The evacuation of a channel (R121, R124): the first copy takes a channel from LIMP to EVACUATING; the next chunk is
the lowest of those still to be copied; it is used from its slot at its switch count, and after the last the
channel is RETIRED and stands in the life record; what a channel has to copy when it is retired is every chunk position on
it whose frame holds data. -/
def Obligations.EvacuationRows : Prop :=
  (∀ (s u : State) (t ch : Nat) (c : Chan) (put : State → Chan → State) (kept : List Nat), u = s.start t →
    c = u.chan ch → swf u.drm.chans = true →
    (put = fun w x => { w with drm := { w.drm with chans := sput .init w.drm.chans ch x } }) →
    kept = (if ch ∈ u.drm.recorded then u.drm.recorded else u.drm.recorded ++ [ch]) →
    ((c.st ≠ 2 ∧ c.st ≠ 3) ∨ c.copied ≠ none → ∀ at_, exec (.evacuationChunkCopy t ch at_) s = .next u) ∧
    (∀ (d : Chan) (w x : State) at_, c.copied = none → (c.st = 3 ∧ d = c ∧ w = u) ∨
        (c.st = 2 ∧ d = { c with st := 3, readFails := (0, 0), lastChange := u.now } ∧ w = put u d) →
      (∀ i r, c.todo = i :: r →
        exec (.evacuationChunkCopy t ch at_) s = .next (put w { d with copied := some (i, max at_ u.now) })) ∧
      (x = put w { d with st := 4, copied := none, lastChange := u.now } → c.todo = [] →
        exec (.evacuationChunkCopy t ch at_) s = .next { x with drm := { x.drm with recorded := kept } })) ∧
    (c.copied = none → exec (.chunkSwitch t ch) s = .next u) ∧
    (∀ i at_, c.copied = some (i, at_) →
      (u.now < at_ → exec (.chunkSwitch t ch) s = .next u) ∧
      (at_ ≤ u.now → ∀ d, d = { c with
          todo := c.todo.filter (· != i), copied := none, switched := c.switched + 1 } →
        (d.todo ≠ [] → exec (.chunkSwitch t ch) s = .next (put u d)) ∧
        (d.todo = [] → ∀ x, x = put (put u d) { d with st := 4, lastChange := u.now } →
          exec (.chunkSwitch t ch) s = .next { x with drm := { x.drm with recorded := kept } })))) ∧
  (∀ (s : State) (ch i : Nat), i ∈ s.chunksOn ch ↔ ∃ x ∈ s.dir.frames, ∃ p, p < 9 ∧ s.chunkAt x.1 p = (ch, i))

/-! ### Pages, flash and the Gleaner -/

/-- Fills and the merge buffer (R19, R26, R90, R166, R167): an entry's stored form is read in once; a dirty entry is
written at FLUSH_AGE and not before; a filled page is RESIDENT, PINNED or stale, keeps the lines stored meanwhile and
is dirty by them, and what waited for it is served; a shadow gets the lowest lines it does not have yet; a write-back
reads the frame's lines, places its image in the next stripe row, and leaves the frame CLEANING (4) for that program. -/
def Obligations.FillRows : Prop :=
  ∀ (s u : State) (t n span : Nat) (env : ReadEnv), u = s.startEnv t env →
    ((∀ m, u.mergeAt n span = some m → m.loaded = true → exec (.mergeBufferFill t n span env) s = .next u) ∧
      (u.mergeAt n span = none → exec (.mergeBufferFill t n span env) s = .next u ∧
        exec (.mergeFlushAge t n span env) s = .next u) ∧
      (∀ m f x v, u.mergeAt n span = some m → m.loaded = false → u.frame n = some f → u.extent f.ext = some x →
        v = u.mergeLoad x m env → exec (.mergeBufferFill t n span env) s = .next (State.setMerge { v.2 with
          dir := { v.2.dir with clock := v.2.dir.clock + 1 } } { v.1 with used := v.2.dir.clock + 1 })) ∧
      (∀ m, u.mergeAt n span = some m → m.dirty = false ∨ u.now < m.since + 1000 * fld u.cod.ctrl 0 16 →
        exec (.mergeFlushAge t n span env) s = .next u) ∧
      (∀ m, u.mergeAt n span = some m → m.dirty = true → m.since + 1000 * fld u.cod.ctrl 0 16 ≤ u.now →
        exec (.mergeFlushAge t n span env) s = .next (u.flushEntry m env))) ∧
    (∀ ext page ver lost f, (u.framesOf ext page).find? (fun f => f.2.st == 3 && f.2.fillVer == ver) = some (n, f) →
      f.st = 3 → u.frame n = some f → ∀ (x : Extent) (w : State), u.extent f.ext = some x → x.versioned = false →
      w = u.setFrame n { f with
        lines := fillLines u.now f.lines (u.source f.ext f.page f.fillVer) lost
        lens := match u.source f.ext f.page f.fillVer with | some i => i.lens | none => f.lens
        st := if f.pinned then 2 else 1
        dirty := f.dirty || u.dir.merge.any (fun m => m.frame == n && m.dirty)
        fillEmpty := false, decoded := [], cleaning := none } →
      exec (.fillComplete t ext page ver lost env) s = .next (w.wake .fill n env) ∧
      ((∀ r ∈ u.waiting, r.wait ≠ .order ∧ (r.wait = .fill → r.on ≠ n)) →
        exec (.fillComplete t ext page ver lost env) s = .next w)) ∧
    (∀ ext page ver lost, (u.framesOf ext page).find? (fun f => f.2.st == 3 && f.2.fillVer == ver) = none →
      (∀ r ∈ u.waiting, r.wait = .fill → r.ext ≠ ext) → exec (.fillComplete t ext page ver lost env) s = .next u) ∧
    (∀ k, (∀ f, u.frame n = some f → f.st ≠ 5) → exec (.shadowCopy t n k env) s = .next u) ∧
    (∀ k f, u.frame n = some f → f.st = 5 → exec (.shadowCopy t n k env) s = .next (u.copyShadow n
      (((List.range 1024).filter fun l => !f.copied.contains l).take k) env)) ∧
    ((∀ f, u.frame n = some f → f.st ≠ 1 ∨ f.dirty = false) → exec (.writeBack t n env) s = .next u) ∧
    (∀ f g h q id x, u.frame n = some f → f.st = 1 → f.dirty = true → ∀ w r, w = u.flushFrame n env →
      w.frame n = some g → r = w.imageRead n g env → q = State.nextPlace r.2 → id = q.2.fls.nextProg →
      x = { q.2 with fls := { q.2.fls with
        programs := q.2.fls.programs ++ [Program.mk id { r.1 with die := q.1.1, row := q.1.2, seq := id } (some n) true none 0
          q.2.mayIssue]
        nextProg := id + 1 } } →
      x.frame n = some h → r.2.fls.nextProg = id →
      exec (.writeBack t n env) s = .next (x.setFrame n { h with st := 4, cleaning := some id }))

/-- Flash (R26, R128, R131, R132, R134, R135, R150): a codeword of a FILLING frame that is found gives the frame its
lines and serves what waited for them, one past the last step gives poison; a reconstructed one is
counted, its image moves, and more than 64 in 1 s retire the die; a program that fails, or whose erase does, retires its
block, the fourth in 24 h its die, and goes on at the next place; a die that does not come back is retired; a done one
enters its row's parity and the map, cleans its frame, lets the next program begin and is counted down from what waits;
a rebuilding die gives up an image at a time and is RETIRED (2) after its last; relocated images move, and a row without
one is given up. Which place is next is the model's choice (assumption 13). -/
def Obligations.FlashRows : Prop :=
  ∀ (s u : State) (t : Nat) (put : State → Nat → Die → State), u = s.start t →
    (put = fun w d x => { w with fls := { w.fls with dies := sput .init w.fls.dies d x } }) →
    (∀ ext page cw step, (u.framesOf ext page).find? (fun f => f.2.st == 3) = none →
      step ≠ 4 ∨ u.codewordImage ext page = none → exec (.flashReadDone t ext page cw step) s = .next u) ∧
    (∀ ext page cw step n f, (u.framesOf ext page).find? (fun f => f.2.st == 3) = some (n, f) → u.frame n = some f →
      f.st = 3 → step ≠ 4 → cw ∉ f.decoded → ∀ w, w = u.setFrame n { f with
        lines := decodeLines u.now f.lines (u.source f.ext f.page f.fillVer) (decide (4 < step)) cw
        lens := match u.source f.ext f.page f.fillVer with
          | some i => (List.range 4).foldl (fun m b => sput 0 m (4 * cw + b) (sget 0 i.lens (4 * cw + b))) f.lens
          | none => f.lens
        decoded := cw :: f.decoded } →
      exec (.flashReadDone t ext page cw step) s = .next (w.wake .fill n noEnv)) ∧
    (∀ ext page cw i l d w, (u.framesOf ext page).find? (fun f => f.2.st == 3) = none →
      u.codewordImage ext page = some i → d = u.die i.die → d.st = 0 → swf u.fls.dies = true →
      l = recent d.reconTimes u.now 1000000000 →
      w = State.moveImages (put (put u i.die { d with recon := min (d.recon + 1) 65535 }) i.die { d with
        recon := min (d.recon + 1) 65535, reconTimes := l }) ((List.range 32).map fun k => (u.fls.nextProg + k) % 32) [i] →
      exec (.flashReadDone t ext page cw 4) s = .next (if 64 < l.length then w.retireDie i.die else w)) ∧
    (∀ id o, (u.fls.programs.find? fun g => g.id == id && g.issued) = none →
      exec (.flashProgramDone t id o) s = .next u) ∧
    (∀ id g, (u.fls.programs.find? fun g => g.id == id && g.issued) = some g →
      exec (.flashProgramDone t id 3) s = .next (u.retireDie g.img.die) ∧
      (∀ o w q, o = 1 ∨ o = 2 → w = u.retireBlock g.img.die g.img.row → q = w.nextPlace →
        exec (.flashProgramDone t id o) s = .next { q.2 with fls := { q.2.fls with
          programs := q.2.fls.programs.map fun h =>
            if h.id = id then { h with img := { h.img with die := q.1.1, row := q.1.2 }, suspends := 0 } else h } }) ∧
      (∀ n x, u.extent g.img.ext = some x → g.frame = some n → g.cmd = none → ∀ w y : State,
        w = { u with fls := { u.fls with programs := u.fls.programs.filter (·.id != id) } } →
        y = State.issueNext (State.frameCleaned ((((w.countProgram g.host).addToRow g.img).closeRow
          (g.img.die / 16) g.img.row).switchMap g.img) n g.id) →
        (∀ c ∈ y.cmds, pkOp c.pkt ≠ 0x41) → exec (.flashProgramDone t id 0) s = .next y)) ∧
    (∀ n id f, u.frame n = some f → u.frameCleaned n id = u.setFrame n (if f.cleaning = some id then { f with
      st := if f.st = 4 then (if f.pinned then 2 else 1) else f.st, dirty := false, cleaning := none } else f)) ∧
    (∀ d, (u.die d).st ≠ 1 → exec (.rebuildImage t d) s = .next u) ∧
    (∀ d, (u.die d).st = 1 → (u.fls.images.find? fun i => i.die == d && !i.lost) = none →
      exec (.rebuildImage t d) s = .next (put u d { u.die d with st := 2 })) ∧
    (∀ d i w, (u.die d).st = 1 → (u.fls.images.find? fun i => i.die == d && !i.lost) = some i →
      w = u.moveImages [d / 16] [i] →
      exec (.rebuildImage t d) s = .next (if w.fls.images.any fun i => i.die == d && !i.lost then w
        else put w d { w.die d with st := 2 })) ∧
    (∀ d b n w, w = u.moveImages u.anyGroup ((u.fls.images.filter fun i =>
        i.die == d && i.row / Config.blockPages == b && !i.lost).take n) →
      exec (.relocation t d b n) s = .next { w with fls := { w.fls with
        stripes := w.fls.stripes.filter fun r => !r.closed || !(w.rowImages r).isEmpty } })

/-- Wipes, buckets and the Gleaner (R292, R299, R304 to R306): the promoted page is wiped first, and what waited for it
is served; a passed leak interval lowers every bucket by one; in phase READY a pass starts at its predecessor's
end of period with the period set then; a frame is visited unless no pass runs or the part is in low power, and after
the last frame the pass ends with the hard lines of each channel; a pass whose period has passed is late, once. -/
def Obligations.WipeAndScrubRows : Prop :=
  ∀ (s u : State) (t : Nat), u = s.start t →
    (u.nextWipe = none → exec (.pageWipe t) s = .next u) ∧
    (∀ n f, u.nextWipe = some n → u.frame n = some f → ∀ w : State,
      w = u.setFrame n { f with
        wipe := none, promoted := false, lines := [], errs := [], lens := [], lenDie := [] } →
      exec (.pageWipe t) s = .next (w.wake .wipe n noEnv) ∧
      ((∀ r ∈ u.waiting, r.wait ≠ .order ∧ (r.wait = .wipe → r.on ≠ n)) → exec (.pageWipe t) s = .next w)) ∧
    (swf u.drm.chans = true → ∀ n, n = u.now / (fld u.int.ctrl 16 12 * 1000000000) - u.int.lastLeak / (fld u.int.ctrl 16 12 * 1000000000) →
      ∃ chs : Sparse Chan, exec (.bucketLeak t) s = .next { u with
          drm := { u.drm with chans := chs }, int := { u.int with lastLeak := u.now } } ∧
        ∀ ch, sget .init chs ch = if ch < 72 then { u.chan ch with bucket := (u.chan ch).bucket - n }
          else u.chan ch) ∧
    (u.gen.phase ≠ 6 ∨ u.int.inPass = true ∨
        (u.int.passes ≠ 0 ∧ u.now < u.int.passStart + u.int.passPeriod * 3600000000000) →
      exec (.scrubPassStart t) s = .next u) ∧
    (u.gen.phase = 6 → u.int.inPass = false → u.int.passes = 0 ∨ u.int.passStart + u.int.passPeriod * 3600000000000 ≤ u.now →
      exec (.scrubPassStart t) s = .next { u with int := { u.int with
        inPass := true, pos := 0, passStart := u.now, passPeriod := fld u.int.scrub 0 8, passLate := false } }) ∧
    (∀ v : State, (v.int.inPass = true → v.int.passLate = false →
        v.int.passStart + v.int.passPeriod * 3600000000000 < v.now → v.passLate = { v with int := { v.int with
          status := setBit v.int.status 8 true, passLate := true } }) ∧
      (v.int.inPass = false ∨ v.int.passLate = true ∨ v.now ≤ v.int.passStart + v.int.passPeriod * 3600000000000 →
        v.passLate = v)) ∧
    (∀ env v, v = (s.startEnv t env).passLate →
      (v.int.inPass = false ∨ v.ep.lowPower = true → exec (.scrubFrame t env) s = .next v) ∧
      (v.int.inPass = true → v.ep.lowPower = false → v.nextScrub = none →
        exec (.scrubFrame t env) s = .next v.endPass) ∧
      (∀ n w x, v.int.inPass = true → v.ep.lowPower = false → v.nextScrub = some n → w = v.scrubFrame n env →
        x = { w with int := { w.int with pos := n + 1 } } →
        exec (.scrubFrame t env) s = .next (if x.nextScrub = none then x.endPass else x))) ∧
    (swf u.drm.chans = true → ∀ ch, ch < 72 → (u.endPass.chan ch).hard = (u.chan ch).hardNow ∧ (u.endPass.chan ch).hardNow = 0 ∧
      u.endPass.int.inPass = false ∧ u.endPass.int.passes = (u.int.passes + 1) % 2 ^ 32)

/-! ### Loads, stores and peer requests -/

/-- How a request enters (R11, R70 to R73, R224, R301): its stamp is the count; a logical device that no allotment names
answers nothing (the model's reading, assumption 90); an allotment
that may not issue gives error 1, an address no decoder or window covers 2, and the checks of R71 their codes, without
reaching data, and so does a window whose range was revoked and that no commit has replaced since (3, assumption 88); a
request that passes them has its class,
with the kind, the priority and the budget that govern this count, and the versions and the set that its allotment
sees, and a stamped write ends a binding of its extent at the same count; it enters stage 3, or takes its place in the
order of the tie in ordered mode; a store or peer write that does not cover whole lines is completed, recorded with
code 9 and counted, and touches
nothing; a peer request without an open BAR4 is unsupported, and each of its lines is a request of its own. -/
def Obligations.HostRequestsEnter : Prop :=
  (∀ (s u : State) (env : ReadEnv) (t port ld n addr : Nat) (data : Line) (poison : Bool) (w : State),
    u = s.startEnv t env → w = { u with nextReq := u.nextReq + 1 } →
    (u.boundAllot (ldKey port ld) = none ∨ (u.ld (ldKey port ld)).dstate = 3 →
      exec (.load t port ld addr env) s = .next u ∧
      exec (.store t port ld addr data (BitVec.allOnes 64) poison env) s = .next u) ∧
    (u.boundAllot (ldKey port ld) = some n → (u.ld (ldKey port ld)).dstate ≠ 3 → ∀ (r : HostReq) (c : Instr),
      (c = .load t port ld addr env ∧ r = .blank u.nextReq 0 port n addr u.now 0 false) ∨
        (c = .store t port ld addr data (BitVec.allOnes 64) poison env ∧
          r = .blank u.nextReq 1 port n addr u.now data poison) →
      (∀ log, w.barred n = some log → exec c s = .next (w.failReq r 0x01 log false)) ∧
      (w.barred n = none → w.decodeHpa (ldKey port ld) addr = none →
        exec c s = .next (w.failReq r 0x02 true false)) ∧
      (∀ i dpa l, w.barred n = none → w.decodeHpa (ldKey port ld) addr = some (i, dpa) → l = dpa / 64 * 64 →
        (∀ code e, w.access n l u.now r.write = (code, e, none) →
          exec c s = .next (w.failReq { r with laddr := l, ext := e } code true false)) ∧
        (∀ code e x v k, w.access n l u.now r.write = (code, e, some x) → k = w.loadClass n i x →
          v = (if r.write then w.stampWrite e u.now else w) → exec c s = .next (v.arrive { r with
            laddr := l, ext := e, cls := k, ver := (v.verOf (v.viewsOf n) e).getD noView, set := x.cmdSet n e []
            tag := if x.composite then v.tagFor (v.viewsOf n) x.desc else none
            kd := fld (sget 0 u.old.cls k) 0 2, pr := fld (sget 0 u.old.cls k) 4 3
            budget := fld (sget 0 u.old.budget (16 * n + k)) 0 12
            ordered := bitOf u.old.det 0, after := u.nextCmd } x env)))) ∧
    (∀ be : BitVec 64, be ≠ BitVec.allOnes 64 → u.boundAllot (ldKey port ld) = some n →
      exec (.store t port ld addr data be poison env) s =
        .next (w.partialWrite (.blank u.nextReq 1 port n addr u.now data poison))) ∧
    (∀ (req : BitVec 16) len ds, u.barOpen (ldKey port ld) = none →
      exec (.peerRead t port ld addr len req env) s = .next { u with out := u.out ++ [.unsupported len] } ∧
      exec (.peerWrite t port ld addr len req ds poison env) s = .next { u with out := u.out ++ [.unsupported len] }) ∧
    (∀ (req : BitVec 16) len ds, u.barOpen (ldKey port ld) = some n →
      addr % 64 ≠ 0 ∨ len % 64 ≠ 0 ∨ ds.length ≠ len / 64 → exec (.peerWrite t port ld addr len req ds poison env) s =
        .next (w.partialWrite (.blank u.nextReq 3 port n addr u.now 0 poison))) ∧
    (∀ (req : BitVec 16), u.barOpen (ldKey port ld) = some n → addr % 64 = 0 → ∀ (r : HostReq) (c : Instr) (b : Nat),
      (c = .peerRead t port ld addr 64 req env ∧ r = .blank u.nextReq 2 port n addr u.now 0 false ∧ b = 1) ∨
        (c = .peerWrite t port ld addr 64 req [data] poison env ∧ b = 2 ∧
          r = .blank u.nextReq 3 port n addr u.now data poison) →
      (∀ log, w.barred n = some log → exec c s = .next (w.failReq r 0x01 log false)) ∧
      (w.barred n = none → w.windowAt n addr u.now = none → exec c s = .next (w.failReq r 0x02 true false)) ∧
      (∀ k v l, w.barred n = none → w.windowAt n addr u.now = some (k, v) → l = (v.to + (addr - v.base)) / 64 * 64 →
        ((w.allot n).dead k u.now = true → exec c s = .next (w.failReq { r with laddr := l } 0x03 true false)) ∧
        ((w.allot n).dead k u.now = false → bitOf v.ctrl 3 = true → fld v.ctrl 16 16 ≠ req.toNat →
          exec c s = .next (w.failReq { r with laddr := l } 0x05 true false)) ∧
        ((w.allot n).dead k u.now = false → bitOf v.ctrl 3 = false ∨ fld v.ctrl 16 16 = req.toNat →
          (bitOf v.ctrl b = false → exec c s = .next (w.failReq { r with laddr := l } 0x01 true false)) ∧
          (bitOf v.ctrl b = true → exec c s = .next (w.enter r l (fun _ => fld v.ctrl 4 4) env)))))) ∧
  (∀ (s : State) (r : HostReq) (x : Extent) (e : Nat) (stamp : Count) (env : ReadEnv),
    (bitOf s.old.det 0 = false → s.ties = [] → s.arrive r x env = s.stage3 r x env) ∧
    (bitOf s.old.det 0 = true ∨ s.ties ≠ [] → s.arrive r x env = { s with
      ties := insBy Tie.before ⟨r.stamp, r.allot, 4096 + r.lane, r.id, .host r, env, s.old⟩ s.ties }) ∧
    (s.extent e = some x → x.rebound = none →
      (x.written = none → s.stampWrite e stamp = s.setExtent e { x with written := some stamp }) ∧
      (x.written ≠ none → s.stampWrite e stamp = s)) ∧
    (∀ c k, s.extent e = some x → x.written = none → x.rebound = some (c, k) →
      (stamp ≤ c → s.stampWrite e stamp = State.digestUpdate (State.codBit (s.setExtent e { x with
        written := some stamp, slot := k, rebound := none }) 2)) ∧
      (c < stamp → s.stampWrite e stamp = s.setExtent e { x with written := some stamp })))

/-- How a request is served (R14 to R18, R20, R71, R112, R113, R143, R223, R227, R295, R366): while the lane holds one
back at the Gate, what follows on it waits there too; at the meter a request waits
behind those that wait and while the meter is not positive, unless it is exempt, and a lane has room for 256 there; a
budgeted class has its priority
while its budget has room and is demoted beyond it; a request that an earlier one on the same line precedes is held
back; a write to a range that a running snapshot locks fails; a read is answered with its data, or with poison and the
error of what it met; a write is performed and completed; the meter releases in stamp order while it is positive, and
what waits at the Gate moves up; urgency only
rises, and reaching 3 is counted for the lane of a load or a store. -/
def Obligations.HostRequestsAreServed : Prop :=
  (∀ (s : State) (r : HostReq) (x : Extent) (env : ReadEnv),
    ((∃ q ∈ s.waiting, q.wait = .gate ∧ q.lane = r.lane) → s.stage3 r x env = s.backPressure r) ∧
    ((∀ q ∈ s.waiting, q.wait = .gate → q.lane ≠ r.lane) →
      (s.exempt r (x.tier == 0) = true → s.stage3 r x env = State.serve { (s.classify r).2 with
        col := { (s.classify r).2.col with meter := (s.classify r).2.col.meter - meterCharge x.codec } }
        (s.classify r).1 env) ∧
      (s.exempt r (x.tier == 0) = false → ∀ (q : HostReq) (v : State),
        (r.kd = 2 ∧ x.tier = 0 ∧ r.demoted = false ∧ q = { r with demoted := true, eff := 0 } ∧ v = { s with
          col := { s.col with demoted := min (s.col.demoted + 1) (2 ^ 32 - 1) } }) ∨
        ((r.kd ≠ 2 ∨ x.tier ≠ 0 ∨ r.demoted = true) ∧ q = r ∧ v = s) →
        (v.meterHeld = true ∨ v.col.meter ≤ 0 →
          (v.laneHeld r.lane < 256 → s.stage3 r x env = v.waitFor { q with metered := true } .meter 0) ∧
          (256 ≤ v.laneHeld r.lane → s.stage3 r x env = v.backPressure q)) ∧
        (v.meterHeld = false → 0 < v.col.meter → s.stage3 r x env = State.serve { (v.classify q).2 with
          col := { (v.classify q).2.col with meter := (v.classify q).2.col.meter - meterCharge x.codec } }
          (v.classify q).1 env))) ∧
    (∀ p, s.exempt r p = true ↔ r.kd = 2 ∧ p = true ∧ s.lsCount (16 * r.allot + r.cls) < r.budget) ∧
    (r.kd = 0 ∨ r.kd = 3 → s.classify r = ({ r with eff := 0, demoted := false, inBudget := false }, s)) ∧
    (r.kd = 1 ∨ r.kd = 2 → r.demoted = false → (s.lsCount (16 * r.allot + r.cls) < r.budget →
      s.classify r = ({ r with eff := r.pr, demoted := false, inBudget := true }, { s with col := { s.col with
        ls := sput 0 s.col.ls (16 * r.allot + r.cls) (s.lsCount (16 * r.allot + r.cls) + 1) } })) ∧
      (r.budget ≤ s.lsCount (16 * r.allot + r.cls) →
        s.classify r = ({ r with eff := 0, demoted := true, inBudget := false }, { s with col := { s.col with
          demoted := min (s.col.demoted + 1) (2 ^ 32 - 1) } }))) ∧
    (s.extent r.ext = some x → s.ep.exiting = false → x.moving = none → (x.sharing = 0 ∨ r.ver ≠ noView) →
      (r.write = true → r.acked = false → x.lockedAt (r.laddr - x.base) r.stamp = true →
        s.serve r env = s.failReq r 0x08 true false) ∧
      (r.write = false ∨ r.acked = true ∨ x.lockedAt (r.laddr - x.base) r.stamp = false → s.blocked r = true →
        s.serve r env = s.holdBack r x) ∧
      (s.blocked r = false → (r.write = true → r.acked = true ∨ x.lockedAt (r.laddr - x.base) r.stamp = false →
          s.serve r env = s.serveWrite r x env) ∧
        (r.write = false → s.tam.pair ≠ 4 → s.filterFull r x = true → s.serve r env = s.waitFilter r) ∧
        (r.write = false → s.tam.pair ≠ 4 → s.filterFull r x = false → ∀ v,
          v = (if s.tracks r x then s.track (s.ldOf r.allot) (r.laddr / 64) else s) →
          s.serve r env = if x.composite then v.serveTile r x env else v.serveRead r x env))) ∧
    (∀ e c, s.extent r.ext = some x → s.ep.exiting = false → x.moving = some (e, c) → c ≤ r.stamp →
      s.serve r env = s.waitFor r .move r.ext) ∧
    (s.extent r.ext = none → s.serve r env = s.failReq r 0x03 true false) ∧
    (∀ v, env.parity = [] → s.finishRead r (.ok v) env = State.respond (s.hashAdd r.allot r.kind false r.laddr v r.stamp)
      r (.readData r.id false [v] r.devLoad)) ∧
    (s.finishRead r .uncorrectable env = s.failReq r 0x0A true true ∧ s.finishRead r .tag env = s.failReq r 0x0B true true
      ∧ s.finishRead r .damaged env = s.failReq r 0x0C true true) ∧
    (∀ code, r.write = true → s.failReq r code false false = s.respond r (.writeDone r.id r.devLoad)) ∧
    (∀ code, r.write = false → s.failReq r code false false = s.respond r (.readData r.id true [0] r.devLoad)) ∧
    (s.wipeFrames r.ext x ((r.laddr - x.base) / 64) = [] → x.locks = [] → s.onePlan = false → r.acked = false →
      s.serveWrite r x env = if (s.performStore r x env).1 then (s.performStore r x env).2.writeDone r
        else (s.performStore r x env).2.storeFails r x) ∧
    (r.devLoad = if r.metered then 3 else if r.demoted then 2 else if r.urgency ≠ 0 then 1 else 0)) ∧
  (∀ (s u : State) (t : Nat) (env : ReadEnv), u = s.startEnv t env →
    (u.col.meter ≤ 0 ∨ u.meterHeld = false → exec (.meterRelease t env) s = .next (u.drainOrder env)) ∧
    exec (.meterRelease t env) s = .next ((u.meterDrain env u.waiting.length).drainOrder env) ∧
    ((∀ r ∈ u.waiting, r.wait ≠ .order) → u.drainOrder env = u) ∧
    (∀ k r x v y, 0 < u.col.meter → u.waiting.find? (fun r => r.wait == .meter) = some r →
      v = State.classify { u with waiting := u.waiting.filter (·.id != r.id) } r → v.2.extent v.1.ext = some x →
      y = State.serve { v.2 with col := { v.2.col with meter := v.2.col.meter - meterCharge x.codec } } v.1 env →
      u.meterDrain env (k + 1) = State.meterDrain env k (y.gateDrain env v.1.lane y.waiting.length))) ∧
  (∀ (s u : State) (t id : Nat), u = s.start t →
    (u.req id = none → exec (.urgencyRaise t id) s = .next u) ∧
    (∀ r q a v w, u.req id = some r → q = fld (sget 0x3E8 u.drm.target r.lane) 0 16 → a = u.now - r.stamp →
      r.stamp ≤ u.now →
      v = (if 9 * q / 10 ≤ a then 3 else if 3 * q / 4 ≤ a then 2 else if q / 2 ≤ a then 1 else 0) →
      w = { u with waiting := u.waiting.map fun k => if k.id = id then { k with urgency := max r.urgency v } else k } →
      exec (.urgencyRaise t id) s = .next (if r.kind < 2 ∧ r.urgency < 3 ∧ max r.urgency v = 3 then { w with
        drm := { w.drm with
          late := sput 0 w.drm.late r.lane ((sget 0 w.drm.late r.lane + 1) % 2 ^ 32) } } else w)))

/-! ### The work of commands -/

/-- Reports of work (R20, R36, R44, R65 to R69, R94, R95, R104, R143, R182, R191, R199, R208, R216, R217, R234, R280,
R328, R340): a job is done once, on the engine that has it, an error gives it to another, and past the limit of an
interval, again, or within a second retires the
unit; a batch is done when its core has units of the command, no earlier work on their lines precedes it and no earlier
promise has the core's share of the station, and a unit that needs tiles waits for them; with its last station a command
ends; held and waiting commands go on when their count is reached and not before, in ordered mode with those of the same
count that the key ranks before them;
the first pending publish commits when the writes before its cut are done, and one that a failed write spoiled ends with
status 2; a revoke, a resize and a snapshot end when
what was stamped before them is done; the next record of a replay is injected or skipped at its count. -/
def Obligations.WorkRows : Prop :=
  (∀ (s u v : State) (t id eng core st : Nat) (env : ReadEnv), u = s.startEnv t env → v = s.startTies t env →
    (u.mxe.jobs.find? (fun j => j.id == id && j.eng == some eng) = none →
      ∀ b, exec (.synthJobDone t id eng b env) s = .next u) ∧
    (∀ j, u.mxe.jobs.find? (fun j => j.id == id && j.eng == some eng) = some j →
      exec (.synthJobDone t id eng false env) s = .next (State.finishJob { u with mxe := { u.mxe with
        jobsDone := sput 0 u.mxe.jobsDone eng ((sget 0 u.mxe.jobsDone eng + 1) % 2 ^ 32) } } id env) ∧
      (∀ n w x, n = (if u.mxe.restarts.1 = u.now / 1000000 then u.mxe.restarts.2 else 0) →
        w = { u with mxe := { u.mxe with
          errors := sput 0 u.mxe.errors eng (min (sget 0 u.mxe.errors eng + 1) 65535)
          retries := min (u.mxe.retries + 1) (2 ^ 32 - 1), restarts := (u.now / 1000000, n + 1)
          retryLimit := u.mxe.retryLimit || decide (64 ≤ n), firstErr := sins u.mxe.firstErr eng u.now } } →
        x = (if 64 ≤ n ∨ j.restarted = true ∨ (∃ f, sfind u.mxe.firstErr eng = some f ∧ u.now < f + 1000000000) then
          w.retireEngine eng else w) →
        exec (.synthJobDone t id eng true env) s = .next (State.runJobs { x with mxe := { x.mxe with
          jobs := x.mxe.jobs.map fun j => if j.id = id then { j with restarted := true, eng := none, avoid := some eng }
            else j } }))) ∧
    (u.cmd id = none → ∀ b, exec (.sprigBatchAck t core id b env) s = .next u) ∧
    (v.cmd id = none → exec (.stationReport t id st env) s = .next v ∧
      exec (.launchCountReached t id env) s = .next v) ∧
    (∀ c, u.cmd id = some c →
      u.unitsOf c core = (if c.phase = .running ∧ isSprig (pkOp c.pkt) = true then
        c.left.filter fun k => u.coreOf (c.unitAddr k) == some core else []) ∧
      (u.unitsOf c core = [] ∨ u.cmdBlocked c = true ∨ u.promiseFirst c (core / 132) = false →
        ∀ b, exec (.sprigBatchAck t core id b env) s = .next u) ∧
      (u.unitsOf c core ≠ [] → u.cmdBlocked c = false → u.promiseFirst c (core / 132) = true →
        exec (.sprigBatchAck t core id true env) s = .next (u.coreError core) ∧
        (∀ w, u.proxyWait c env = (true, w) → exec (.sprigBatchAck t core id false env) s = .next w) ∧
        (∀ w x, u.proxyWait c env = (false, w) →
          x = ((w.unitsOf c core).take 4).foldl (fun s k => s.doSprig c.id k env) w → x.mxe.want = [] →
          exec (.sprigBatchAck t core id false env) s = .next { x with
            mxe := { x.mxe with outs := x.mxe.outs.filter fun o => o.cmd != c.id }
            spr := { x.spr with restarting := x.spr.restarting.filter (· != core) } }))) ∧
    (∀ c, v.cmd id = some c →
      (c.phase ≠ .running ∨ st ∉ c.stations ∨ v.cmdBlocked c = true ∨ v.promiseFirst c st = false →
        exec (.stationReport t id st env) s = .next v) ∧
      (∀ w x y d, c.phase = .running → st ∈ c.stations → v.cmdBlocked c = false → v.promiseFirst c st = true →
        v.proxyWait c env = (false, w) → x = w.stationWork c st env → x.mxe.want = [] →
        y = { x with mxe := { x.mxe with outs := x.mxe.outs.filter fun o => o.cmd != c.id } } →
        y.cmd c.id = some d →
        (d.phase ≠ .running ∨ d.stationDone st = false →
          exec (.stationReport t id st env) s = .next (y.drainOrder env)) ∧
        (∀ q, d.phase = .running → d.stationDone st = true → q = { y with cmds := y.cmds.map fun c =>
            if c.id = id then { c with stations := c.stations.filter (· != st) } else c } →
          exec (.stationReport t id st env) s = .next (State.drainOrder
            (if d.stations.filter (· != st) = [] then q.endWork id else q) env))) ∧
      (c.phase ≠ .held ∨ v.now < c.eff → exec (.launchCountReached t id env) s = .next v) ∧
      (c.phase = .held → c.eff ≤ v.now → c.keyed = false →
        (bitOf v.cc.status 1 = true → exec (.launchCountReached t id env) s = .next (v.startCmd c.id env)) ∧
        (bitOf v.cc.status 1 = false → exec (.launchCountReached t id env) s = .next
          (State.startCmd (State.recordConfig { v with det := { v.det with unsynced := true } }) c.id env))) ∧
      (c.phase = .held → c.eff ≤ v.now → c.keyed = true → exec (.launchCountReached t id env) s = .next
        ((sortBy Cmd.keyBefore (v.cmds.filter fun d => d.phase == .held && (d.id == id || (d.keyed && d.keyBefore c)))).foldl
          (fun s d => s.launch d.id env) v))) ∧
    (∀ e, (u.cmds.find? fun c => c.phase == .running && pkOp c.pkt == 0x52 && pk c.pkt 32 2 == e) = none →
      exec (.resizeMoveComplete t e env) s = .next u) ∧
    (∀ e c, (u.cmds.find? fun c => c.phase == .running && pkOp c.pkt == 0x52 && pk c.pkt 32 2 == e) = some c →
      exec (.resizeMoveComplete t e env) s = .next (if u.busyBefore e c then u else u.endResize c env)) ∧
    (v.det.replay = none → exec (.replayInject t env) s = .next v) ∧
    (∀ r l d, v.det.replay = some (r :: l, d) → v.now < r.stamp + d → exec (.replayInject t env) s = .next v) ∧
    (∀ r r' l d, v.det.replay = some (r :: r' :: l, d) → r.stamp + d ≤ v.now → v.skipsRecord r = true →
      exec (.replayInject t env) s = .next { v with det := { v.det with
        replay := some (r' :: l, d), skipped := min (v.det.skipped + 1) (2 ^ 32 - 1), skippedBit := true } }) ∧
    (∀ r r' l d, v.det.replay = some (r :: r' :: l, d) → r.stamp + d ≤ v.now → v.skipsRecord r = false →
      pkFlag r.pkt 2 = true → pkFlag r.pkt 3 = false → exec (.replayInject t env) s = .next (State.packet { v with
          det := { v.det with replay := some (r' :: l, d), replayPos := r.stamp }
          queues := sput .init v.queues r.queue { v.queue r.queue with inflight := (v.queue r.queue).inflight + 1 } }
        r.queue r.n r.pkt (r.stamp + d) true true (deadlineOf r.pkt (r.stamp + d)) (some (r.stamp + d)) env))) ∧
  (∀ (s u : State) (t id core n cls : Nat), u = s.start t →
    ((∀ c ∈ u.cmds, u.unitsOf c core = []) → exec (.sprigCoreTimeout t core) s = .next u) ∧
    (∀ k w c, c ∈ u.cmds → u.unitsOf c core ≠ [] →
      k = (if u.spr.restarts.1 = u.now / 1000000 then u.spr.restarts.2 else 0) →
      w = { u with spr := { u.spr with
        errors := sput 0 u.spr.errors core (min (sget 0 u.spr.errors core + 1) 65535)
        retries := min (u.spr.retries + 1) (2 ^ 32 - 1), restarts := (u.now / 1000000, k + 1)
        retryLimit := u.spr.retryLimit || decide (256 ≤ k), firstErr := sins u.spr.firstErr core u.now
        restarting := core :: u.spr.restarting.filter (· != core) } } →
      exec (.sprigCoreTimeout t core) s = .next (if 256 ≤ k ∨ core ∈ u.spr.restarting ∨
        (∃ f, sfind u.spr.firstErr core = some f ∧ u.now < f + 1000000000) then w.retireCore core else w)) ∧
    (u.cmd id = none → exec (.waitCountReached t id) s = .next u ∧ exec (.publishCommit t id) s = .next u ∧
      exec (.revokeComplete t id) s = .next u ∧ exec (.snapshotRelease t id) s = .next u) ∧
    (∀ c, u.cmd id = some c →
      (pkOp c.pkt ≠ 0x71 ∨ c.phase ≠ .running ∨ u.now < nth c.aux 0 → exec (.waitCountReached t id) s = .next u) ∧
      (pkOp c.pkt = 0x71 → c.phase = .running → nth c.aux 0 ≤ u.now →
        exec (.waitCountReached t id) s = .next (u.finishCmd c.id 0 false (result [(20, 6, nth c.aux 0)]))) ∧
      (∀ x e, c.phase = .running → pkOp c.pkt = 0x31 → e = pk c.pkt 24 2 → u.extent e = some x →
        (c.cutWaits = true →
          (u.writesBefore e c.allot (x.cmdSet c.allot e []) x c.eff id = true →
            exec (.publishCommit t id) s = .next u) ∧
          (u.writesBefore e c.allot (x.cmdSet c.allot e []) x c.eff id = false → exec (.publishCommit t id) s = .next
            (State.drainOrder (State.beginPublish (u.modCmd id fun c => { c with left := [] }) { c with left := [] } noEnv)
              noEnv))) ∧
        (∀ k l, c.cutWaits = false → x.pubs = k :: l →
          (k.cmd ≠ id ∨ u.now < c.eff ∨ u.writesBefore e c.allot k.set x c.eff id = true →
            exec (.publishCommit t id) s = .next u) ∧
          (k.cmd = id → c.eff ≤ u.now → u.writesBefore e c.allot k.set x c.eff id = false →
            (k.bad = true → exec (.publishCommit t id) s = .next
              ((u.unpublish e k).finishCmd c.id 2 false (result [(20, 4, x.ver), (28, 4, 5)]))) ∧
            (k.bad = false → x.freezing c.allot (pk c.pkt 28 4) = false → exec (.publishCommit t id) s = .next
              (((u.commit e k false).remoteCommits e (l.length + 1)).finishCmd c.id 0 false
                (result [(20, 4, k.ver), (24, 4, (u.dir.frames.filter fun f =>
                  f.2.ext == e && f.2.cut && f.2.fillVer == k.ver).length)]))) ∧
            (k.bad = false → x.freezing c.allot (pk c.pkt 28 4) = true → c.queue < 4096 →
              exec (.publishCommit t id) s = .next (((u.commit e k true).remoteCommits e (l.length + 1)).finishCmd c.id 0
                false (result [(20, 4, k.ver), (24, 4, 0)])))))) ∧
      (pkOp c.pkt ≠ 0x40 ∨ c.phase ≠ .running ∨ c.left ≠ [] → exec (.snapshotRelease t id) s = .next u) ∧
      (pkOp c.pkt = 0x40 → c.phase = .running → c.left = [] → exec (.snapshotRelease t id) s = .next
        (State.programsSettle (((u.unlock id).pruneLocks).modCmd id fun c => { c with result := result [(20, 6, u.now)] })
          id)) ∧
      (∀ x e, c.phase = .running → pkOp c.pkt = 0x51 → e = pk c.pkt 32 2 → u.extent e = some x →
        (pk c.pkt 24 1 = 0 → (u.busyExtent e = true → exec (.revokeComplete t id) s = .next u) ∧
          (u.busyExtent e = false → exec (.revokeComplete t id) s = .next (State.digestUpdate (State.finishCmd
            (x.holders.foldl (fun s n => s.extentEvent n 3 e x) (u.dropExtent e)) c.id 0 false
            (result [(20, 6, c.eff)]))))) ∧
        (∀ m, pk c.pkt 24 1 ≠ 0 → m = pk c.pkt 25 1 →
          (u.busyMember e m = true → exec (.revokeComplete t id) s = .next u) ∧
          (∀ w, u.busyMember e m = false → w = (u.dropMember e m x).setExtent e { x with
              members := x.members.filter (·.1 != m)
              endedViews := x.endedViews.map fun v => if v.1 = m then (m, 0) else v } →
            exec (.revokeComplete t id) s = .next (State.finishCmd (State.release (State.takeBack (x.holders.foldl
              (fun s n => s.extentEvent n 4 e x) w) m e x.base x.size) e) c.id 0 false (result [(20, 6, c.eff)]))))) ∧
      (∀ x e, c.phase = .running → pkOp c.pkt = 0x52 → e = pk c.pkt 32 2 → u.extent e = some x →
        exec (.revokeComplete t id) s = .next (if u.busyBefore e c = true ∨ x.hasPlane = true then u
          else u.endResize c noEnv))) ∧
    (∀ w, w = u.settleShare n cls → (∀ c ∈ w.cmds, c.allot = n → c.phase = .running →
        pkOp c.pkt = 0x60 ∨ pkOp c.pkt = 0x61 → w.now < nth c.aux 0) →
      exec (.reservationEffective t n cls) s = .next w) ∧
    (∀ w c, w = u.settleShare n cls → (w.cmds.filter fun c => c.allot == n && c.phase == .running &&
        (pkOp c.pkt == 0x60 || pkOp c.pkt == 0x61) && decide (nth c.aux 0 ≤ w.now)) = [c] →
      exec (.reservationEffective t n cls) s = .next (w.finishCmd c.id 0 false (result [(20, 6, nth c.aux 0)]))) ∧
    (∀ port ld lines d h w, d = u.ld (ldKey port ld) → h = u.hport port →
      w = { u with ep := { u.ep with
        lds := sput .init u.ep.lds (ldKey port ld) { d with bisnp := d.bisnp.filter fun n => !lines.contains n }
        ports := sput .init u.ep.ports port { h with
          snoop := h.snoop.filter fun e => !(e.1 == ld && lines.contains e.2) } } } →
      (∀ c ∈ u.cmds, pkOp c.pkt ≠ 0x30) → exec (.bisnpResponse t port ld lines) s = .next (w.wake .filter 0 noEnv) ∧
      ((∀ r ∈ u.waiting, r.wait ≠ .filter ∧ r.wait ≠ .order) →
        exec (.bisnpResponse t port ld lines) s = .next w)))

/-! ### Recording and replay -/

/-- DET's rows (R327, R334 to R338, R341): DET_CTRL takes its defined bits and a window length of 16 to 40, closes the
windows whose bounds change and records the configuration when recording starts; a time window closes once its end is
passed, and its record waits for the requests stamped in it; the buffer drains into the flash, and one GAP record (type 5) tells what was discarded once there is room; GO copies a whole
kept range of the log to a PRIVATE range that allotment 0 may write, and is refused with COPY_ERR otherwise; a copy
that is done says so. -/
def Obligations.DeterminismRows : Prop :=
  ∀ (s u : State) (t : Nat) (v : Reg32), u = s.start t →
    (s.managed → ∀ w : Reg32, w = detWord u.det.ctrl v →
      (bitOf w 3 = bitOf u.det.ctrl 3 → fld w 8 6 = fld u.det.ctrl 8 6 → bitOf w 2 = false → exec (.detCtrl t v) s =
        .next (State.digestUpdate { u with det := { u.det with ctrl := w, full := false } })) ∧
      (bitOf w 3 = bitOf u.det.ctrl 3 → fld w 8 6 = fld u.det.ctrl 8 6 → bitOf w 2 = true →
        bitOf u.det.ctrl 2 = false → exec (.detCtrl t v) s = .next (State.recordConfig { u with
          det := { u.det with ctrl := w, full := u.det.full && bitOf w 4 } })) ∧
      (bitOf w 3 ≠ bitOf u.det.ctrl 3 ∨ fld w 8 6 ≠ fld u.det.ctrl 8 6 → bitOf w 2 = false →
        ∀ x, x = u.hashCloseAll u.now → exec (.detCtrl t v) s =
          .next (State.digestUpdate { x with det := { x.det with ctrl := w, full := false } }))) ∧
    (∀ i, i < 5 → bitOf (detWord u.det.ctrl v) i = bitOf v i) ∧
    (fld (detWord u.det.ctrl v) 8 6 = if 16 ≤ fld v 8 6 ∧ fld v 8 6 ≤ 40 then fld v 8 6 else fld u.det.ctrl 8 6) ∧
    (∀ n a, a = u.allot n →
      (a.hashOpen = false ∨ bitOf u.det.ctrl 3 = true ∨ u.now < a.hashStart + 2 ^ fld u.det.ctrl 8 6 →
        exec (.hashWindowClose t n) s = .next u) ∧
      (a.hashOpen = true → bitOf u.det.ctrl 3 = false → a.hashStart + 2 ^ fld u.det.ctrl 8 6 ≤ u.now → ∀ w : State,
        w = { u with allots := sput .init u.allots n { a with
          hashOpen := false, hashStart := 0, hashSum := 0, hashCount := 0
          hashLate := if u.hashPending n a.hashStart (a.hashStart + 2 ^ fld u.det.ctrl 8 6) then a.hashLate ++
            [(a.hashStart, a.hashStart + 2 ^ fld u.det.ctrl 8 6, a.hashSum, a.hashCount)] else a.hashLate } } →
        (u.hashPending n a.hashStart (a.hashStart + 2 ^ fld u.det.ctrl 8 6) = true ∨ a.hashCount = 0 ∨
          bitOf u.det.mask n = false → exec (.hashWindowClose t n) s = .next w) ∧
        (u.hashPending n a.hashStart (a.hashStart + 2 ^ fld u.det.ctrl 8 6) = false → a.hashCount ≠ 0 →
          bitOf u.det.mask n = true → exec (.hashWindowClose t n) s = .next
          (w.record 2 0 n 0xFFFF (a.hashStart + 2 ^ fld u.det.ctrl 8 6) a.hashStart
            (BitVec.ofNat 512 (a.hashSum.toNat + at_ 128 64 a.hashCount +
              at_ 192 64 (a.hashStart + 2 ^ fld u.det.ctrl 8 6))) 2 0)))) ∧
    (∀ n (w : State), w = { u with
        fls := { u.fls with nandProg := u.fls.nandProg + min n u.det.buffered }
        det := { u.det with buffered := u.det.buffered - n } } →
      (u.det.gapOpen = 0 ∨ u.recording = false ∨ 67108864 < w.det.buffered + 65536 →
        exec (.replayBufferDrain t n) s = .next w) ∧
      (u.det.gapOpen ≠ 0 → u.recording = true → w.det.buffered + 65536 ≤ 67108864 →
        exec (.replayBufferDrain t n) s = .next (State.record { w with det := { w.det with gapOpen := 0 } }
          5 0 0 0xFFFF u.now u.det.gapOpen 0 1 0))) ∧
    (s.managed → ∀ len src dst, len = 65536 * fld u.det.copyLen 0 16 → src = fld u.det.copySrc 0 40 →
      dst = fld u.det.copyDst 0 48 →
      (bitOf v 0 = false ∨ len = 0 → exec (.logCopy t v) s = .next u) ∧
      (bitOf v 0 = true → len ≠ 0 →
        (src % 65536 = 0 → dst % 64 = 0 → u.logHas (u.logAt src) len = true → u.copyTarget dst len = true →
          u.det.copying = none → ∀ e x w, u.extentAt dst = some (e, x) → w = u.stampWrite e u.now →
          exec (.logCopy t v) s = .next { w with det := { w.det with
            copying := some (u.logAt src, dst, len) } }) ∧
        (src % 65536 ≠ 0 ∨ dst % 64 ≠ 0 ∨ u.logHas (u.logAt src) len = false ∨ u.copyTarget dst len = false ∨
          u.det.copying ≠ none → exec (.logCopy t v) s = .next { u with det := { u.det with copyErr := true } }))) ∧
    (u.det.copying = none → exec (.logCopyDone t) s = .next u) ∧
    (∀ a dst len w, u.det.copying = some (a, dst, len) →
      w = (List.range (len / 64)).foldl (fun s i => s.copyLogLine (a + 64 * i) (dst + 64 * i)) u →
      exec (.logCopyDone t) s = .next { w with det := { w.det with copying := none, copyDone := true } })

/-! ### Test mode and register writes -/

/-- PRT's rows (R429 to R437): while test mode is open, a setting in range is traced and takes effect, and any other
write of a setting only sets SET_ERR; a lane's gate delay and an entry of PRT_STAGE keep their defined bits; a forced
pause waits, and a forced sweep begins on a NORMAL channel and is counted; an injection is made at once or armed; a
corrupted flit is a replay on a link that is up and waits on one that is down; closing drops them all. -/
def Obligations.TestModeRows : Prop :=
  ∀ (s u : State) (t n : Nat) (v : Reg32), s.managed → u = s.start t → ∀ (err : State) (traced : Nat → Nat → State),
    err = { u with prt := { u.prt with setErr := true } } →
    (traced = fun off x => { u with prt := { u.prt with
      digest := Config.sha384 (leBytes 48 u.prt.digest.toNat ++ leBytes 8 u.now ++ leBytes 4 off ++ leBytes 8 x)
      changes := u.prt.changes + 1 } }) →
    (∀ w, u.prt.isOpen = false → (n < 12 → exec (.prtGateDelay t n v) s = .next err) ∧
      (n < 32 → exec (.prtStage t n v) s = .next err) ∧ exec (.prtRetrain t v) s = .next err ∧
      exec (.symbolInject t v) s = .next err ∧ exec (.prtLink t v) s = .next err ∧
      exec (.prtCodec t w) s = .next { err with
        lowHalf := sdel u.lowHalf 0x160118, woLow := sput 0 u.woLow 0x160118 (w.setWidth 32) } ∧
      exec (.testClose t v) s = .next u) ∧
    (12 ≤ n → exec (.prtGateDelay t n v) s = .next u) ∧ (32 ≤ n → exec (.prtStage t n v) s = .next u) ∧
    (u.prt.isOpen = true → ∀ w : State,
      (n < 12 → w = traced (0x40 + 4 * n) v.toNat → exec (.prtGateDelay t n v) s = .next { w with
        prt := { w.prt with gate := sput 0 u.prt.gate n (v &&& 0xFFFF) } }) ∧
      (n < 32 → u.onePlan = true ∨ stagePoint (fld v 0 8) = false → exec (.prtStage t n v) s = .next err) ∧
      (n < 32 → u.onePlan = false → stagePoint (fld v 0 8) = true → w = traced (0x80 + 4 * n) v.toNat →
        (∀ e ∈ u.prt.stage, e.1 ≠ n → fld e.2 0 8 ≠ fld v 0 8) →
        (v &&& 0xFFFFF = sget 0 u.prt.stage n → exec (.prtStage t n v) s = .next w) ∧
        (v &&& 0xFFFFF ≠ sget 0 u.prt.stage n → exec (.prtStage t n v) s = .next (State.issueLive { w with
            prt := { w.prt with stage := sput 0 u.prt.stage n (v &&& 0xFFFFF) } } 4 fun b =>
          { b with stages := (sput 0 u.prt.stage n (v &&& 0xFFFFF)).map fun e => (e.1, e.2.toNat) }))) ∧
      (72 ≤ fld v 0 7 → exec (.prtRetrain t v) s = .next err) ∧
      (fld v 0 7 < 72 → w = traced 0x100 v.toNat → ∀ c, c = u.chan (fld v 0 7) →
        (fld v 8 2 = 0 → exec (.prtRetrain t v) s = .next { w with prt := { w.prt with
          pauses := u.prt.pauses ++ [fld v 0 7] } }) ∧
        (fld v 8 2 ≠ 0 → c.st ≠ 0 → exec (.prtRetrain t v) s = .next w) ∧
        (fld v 8 2 ≠ 0 → c.st = 0 → exec (.prtRetrain t v) s = .next { w with drm := { u.drm with
          chans := sput .init u.drm.chans (fld v 0 7) { c with
            st := 1, sweep := fld v 8 2, slices := 0, escalations := min (c.escalations + 1) 65535
            lastChange := u.now } } })) ∧
      (8 < fld v 0 4 ∨ 71 < fld v 8 7 ∨ (bitOf v 4 = true ∧ bitOf v 5 = true) →
        exec (.symbolInject t v) s = .next err) ∧
      (fld v 0 4 ≤ 8 → fld v 8 7 ≤ 71 → bitOf v 4 = false ∨ bitOf v 5 = false → ∀ x l a,
        w = traced 0x10C ((v ||| 0x40).toNat) → x = { w with prt := { w.prt with symCtrl := v &&& 0x7F3F } } →
        l = u.prt.symLine.toNat → a = Armed.mk 0 l (fld v 8 7) (fld v 0 4) (bitOf v 4) →
        (u.frame (l / 1024) = none → exec (.symbolInject t v) s = .next x) ∧
        (∀ f, u.frame (l / 1024) = some f → bitOf v 5 = false → exec (.symbolInject t v) s = .next { x with
          prt := { x.prt with armed := u.prt.armed ++ [a] } }) ∧
        (∀ f es, u.frame (l / 1024) = some f → bitOf v 5 = true →
          es = addErrs (sget [] f.errs (l % 1024)) a.errs → exec (.symbolInject t v) s = .next (State.injected
            (x.setFrame (l / 1024) { f with errs := sput [] f.errs (l % 1024) es }) [a]))) ∧
      (12 ≤ fld v 0 4 ∨ fld v 8 8 = 0 → exec (.prtLink t v) s = .next err) ∧
      (fld v 0 4 < 8 → fld v 8 8 ≠ 0 → w = traced 0x110 v.toNat → ∀ h k, h = u.hport (fld v 0 4) →
        k = (if h.rate = 0 then { h with corrupt := h.corrupt + fld v 8 8 }
          else { h with replays := (h.replays + fld v 8 8) % 2 ^ 32 }) →
        exec (.prtLink t v) s = .next { w with ep := { u.ep with
          ports := sput .init u.ep.ports (fld v 0 4) k } }) ∧
      (∀ p, fld v 0 4 = p + 8 → p < 4 → fld v 8 8 ≠ 0 → w = traced 0x110 v.toNat → ∀ h k, h = u.tport p →
        k = (if h.up then { h with replays := min (h.replays + fld v 8 8) 65535 }
          else { h with corrupt := h.corrupt + fld v 8 8 }) →
        exec (.prtLink t v) s = .next { w with tam := { u.tam with ports := sput .init u.tam.ports p k } })) ∧
    (u.prt.isOpen = true → ∀ (x : Reg64) (y w : State) a f b d, y = { u with
        lowHalf := sdel u.lowHalf 0x160118, woLow := sput 0 u.woLow 0x160118 (x.setWidth 32) } →
      f = fld x 0 21 → b = fld x 24 6 → d = fld x 32 4 → a = Armed.mk 1 f b d false →
      w = { y with prt := (traced 0x118 x.toNat).prt } →
      (d = 0 → exec (.prtCodec t x) s = .next { y with prt := { y.prt with setErr := true } }) ∧
      (d ≠ 0 → u.frame f = none → exec (.prtCodec t x) s = .next w) ∧
      (∀ fr, d ≠ 0 → u.frame f = some fr → bitOf x 40 = false → exec (.prtCodec t x) s = .next { w with
        prt := { w.prt with armed := u.prt.armed ++ [a] } }) ∧
      (∀ fr, d ≠ 0 → u.frame f = some fr → bitOf x 40 = true → exec (.prtCodec t x) s = .next (State.injected
        (w.setFrame f { fr with lens := sput 0 fr.lens b (sget 0 fr.lens b ^^^ d) }) [a]))) ∧
    (u.prt.isOpen = true → u.prt.stage = [] → exec (.testClose t v) s = .next { u with
      prt := { u.prt with
        isOpen := false, digest := 0, gate := [], symLine := 0, symCtrl := 0, armed := [] }
      ep := { u.ep with ports := u.ep.ports.map fun e => (e.1, { e.2 with corrupt := 0 }) }
      tam := { u.tam with ports := u.tam.ports.map fun e => (e.1, { e.2 with corrupt := 0 }) } })

/-- Register writes (R5 to R10, R468 to R474): a write that the place does not allow, or at no place, is recorded with
code 15 and changes nothing else; a read-only register keeps its value; a register's own width takes effect at once; a
64-bit register's low half waits, and its high half takes effect with it, or with the register's low half when none
waits; a whole write discards what waits; reserved bits and values out of a field's range are not taken. -/
def Obligations.RegisterWrites : Prop :=
  ∀ (s u : State) (t off width : Nat) (v : Reg64), u = s.start t →
    (∀ by_, 64 ≤ by_ → off < 2 ^ 32 → exec (.registerWrite t by_ off width v) s = .next u) ∧
    (∀ by_, by_ < 64 → off < 2 ^ 32 → u.barOn by_ = false →
      exec (.registerWrite t by_ off width v) s = .next { u with out := [.unsupported off] }) ∧
    (∀ k, (u.served k = false ∨ (u.ld k).crs = true) → k < 128 →
      exec (.registerWrite t 0 (2 ^ 32 + k) width v) s = .next u) ∧
    (∀ by_ p, by_ < 64 → off < 2 ^ 32 → u.barOn by_ = true → by_ ≠ 0 ∨ s.sec.recovery = false →
      p = u.place by_ off →
      (p.fits off width = false ∨ p = .nothing →
        exec (.registerWrite t by_ off width v) s = .next (u.err by_ 0x0F 3 off 0 0xFFFF 0xFFFF)) ∧
      (p.fits off width = true →
        (∀ o w b, p = .reg o w b false → exec (.registerWrite t by_ off width v) s = .next u) ∧
        (∀ i b, p = .plog i b ∨ (∃ n, p = .alog n i b) ∨ p = .cxl →
          exec (.registerWrite t by_ off width v) s = .next u) ∧
        (∀ o b, p = .reg o 4 b true →
          exec (.registerWrite t by_ off width v) s = .next (u.writeReg by_ off o v)) ∧
        (∀ o b, p = .reg o 8 b true → width = 8 → exec (.registerWrite t by_ off width v) s = .next
          (State.writeReg { u with
            lowHalf := sdel u.lowHalf o
            woLow := if writeOnly o then sput 0 u.woLow o (v.setWidth 32) else u.woLow } by_ (off - b) o v)) ∧
        (∀ o, p = .reg o 8 0 true → width = 4 → exec (.registerWrite t by_ off width v) s = .next { u with
          lowHalf := sins u.lowHalf o (v.setWidth 32)
          woLow := if writeOnly o then sput 0 u.woLow o (v.setWidth 32) else u.woLow }) ∧
        (∀ o low, p = .reg o 8 4 true → width = 4 →
          (sfind u.lowHalf o = some low ∨ (sfind u.lowHalf o = none ∧
            low = if writeOnly o then sget 0 u.woLow o else BitVec.ofNat 32 (u.readReg o))) →
          exec (.registerWrite t by_ off width v) s = .next (State.writeReg { u with
            lowHalf := sdel u.lowHalf o } by_ (off - 4) o ((v.setWidth 32 : Reg32) ++ low))))) ∧
    (s.managed →
      (exec (.registerWrite t 0 0x100008 8 v) s = .next { u with
        lowHalf := sdel u.lowHalf 0x100008, det := { u.det with mask := v } }) ∧
      (exec (.registerWrite t 0 0xC0000 4 v) s = .next { u with drm := { u.drm with ctrl := BitVec.ofNat 32 (
        (if 1 ≤ fld v 0 4 ∧ fld v 0 4 ≤ 8 then fld v 0 4 else fld u.drm.ctrl 0 4) +
        16 * (if fld v 4 4 ≤ 8 then fld v 4 4 else fld u.drm.ctrl 4 4) +
        256 * (if 1 ≤ fld v 8 8 then fld v 8 8 else fld u.drm.ctrl 8 8)) } }) ∧
      (exec (.registerWrite t 0 0xE0008 4 v) s = .next { u with int := { u.int with
        scrub := BitVec.ofNat 32 (if 1 ≤ fld v 0 8 ∧ fld v 0 8 ≤ 168 then fld v 0 8 else fld u.int.scrub 0 8) } }))

/-! ### Packets -/

/-- Every row of a Barfin opcode delivers a packet of that opcode to its queue (R36, R42, R43, R243 to R246, R260, R261,
R264). The queue's head, expected SEQ and count in flight advance; then the checks come in the order of R261: no plan
(15), a management opcode or a FAULTED allotment (12), the header (11), the opcode's own, and the Colander's; a refused
command is recorded and completes at once; an admitted one has its promise, its place in the class's budget and what
its opcode takes at admission, the extents it writes are written from its stamp on, and its work begins at its effective
count. A packet whose place is decided only with the others of its count (R95, R328), or whose arguments an earlier
write still waits to change, takes its place in the order of the tie and is judged later. -/
def Obligations.PacketsAreJudged : Prop :=
  ∀ (s u w : State) (t q op : Nat) (p k : Packet) (env : ReadEnv) (v : Queue) (i : Instr) (d e : Option Count) (a : Nat),
    (i, op) ∈ ([(.fill t q p env, 0x01), (.copy t q p env, 0x02), (.compare t q p env, 0x03), (.reduce t q p env, 0x10),
      (.scatterAdd t q p env, 0x11), (.gather t q p env, 0x12), (.recipe t q p env, 0x13), (.matmul t q p env, 0x14),
      (.synth t q p env, 0x15), (.hint t q p env, 0x20), (.pin t q p env, 0x21), (.unpin t q p env, 0x22),
      (.pageIn t q p env, 0x23), (.pageOut t q p env, 0x24), (.open_ t q p env, 0x30), (.publish t q p env, 0x31),
      (.close t q p env, 0x32), (.snapshot t q p env, 0x40), (.drain t q p env, 0x41), (.restore t q p env, 0x42),
      (.grant t q p env, 0x50), (.revoke t q p env, 0x51), (.resize t q p env, 0x52), (.query t q p env, 0x53),
      (.reserve t q p env, 0x60), (.release t q p env, 0x61), (.fence t q p env, 0x70), (.waitCount t q p env, 0x71),
      (.mark t q p env, 0x72), (.keyLoad t q p env, 0x80), (.keyDrop t q p env, 0x81), (.planSet t q p env, 0xF0),
      (.powerSet t q p env, 0xF1), (.replan t q p env, 0xF2), (.altReset t q p env, 0xF3),
      (.calendarSet t q p env, 0xF4), (.testOpen t q p env, 0xF5), (.replay t q p env, 0xF6),
      (.fwStage t q p env, 0xF7)] : List (Instr × Nat)) →
    u = s.startTies t env → v = u.queue q → swf u.queues = true → 1 ≤ v.fetching → v.fetchDrop = false →
    v.state = 1 ∨ v.state = 2 → k = withOp p op → a = v.allotment → d = deadlineOf k u.now → e = launchOf k u.now →
    w = { u with queues := sput .init u.queues q { v with
      sqHead := (v.sqHead + 1) % v.sqSize, seq := (v.seq + 1) % 65536, fetched := v.fetched + 1
      inflight := v.inflight + 1, fetching := v.fetching - 1 } } →
    (w.packetWaits a k = true → exec i s = .next { w with
      ties := insBy Tie.before ⟨u.now, a, q, v.fetched, .packet k (pkSeq k == v.seq), env, u.old⟩ w.ties }) ∧
    (w.packetWaits a k = false →
    ∀ c : Ask, c = ⟨a, q, v.fetched, k, u.now, e.getD u.now⟩ →
      (u.plan.cur.ver = 0 → exec i s = .next (w.refuseCmd c 0x0F 0 0 false)) ∧
      (u.plan.cur.ver ≠ 0 → (0xF0 ≤ op ∧ a ≠ 0) ∨ (u.allot a).state = 3 →
        exec i s = .next (w.refuseCmd c 0x0C 0 0 false)) ∧
      (u.plan.cur.ver ≠ 0 → op < 0xF0 ∨ a = 0 → (u.allot a).state ≠ 3 →
        (d = none ∨ e = none ∨ pkSeq k ≠ v.seq ∨ headReserved k = true →
          exec i s = .next (w.refuseCmd c 0x0B 0 0 false)) ∧
        (∀ dl ef, d = some dl → e = some ef → pkSeq k = v.seq → headReserved k = false →
          (∀ st res x, w.checkOp c env = (.refuse st res, x) → exec i s = .next (x.refuseCmd c st res 0 false)) ∧
          (∀ x y want, w.checkOp c env = (.ok want, x) → asksHome k = false → x.tam.pair ≠ 1 → x.tam.pair ≠ 5 →
            (∀ st res pr, x.colander a (pkClass k) (x.isPaced k) ef dl want = .refused st res pr y →
              exec i s = .next (y.refuseCmd c st res pr false)) ∧
            (∀ inB prio pr b z, x.colander a (pkClass k) (x.isPaced k) ef dl want = .admitted inB prio pr y →
              b = y.newCmd c want inB prio pr false →
              z = State.admitOp (State.stampWrites { (y.recordCmd c 0 pr false) with
                cmds := (y.recordCmd c 0 pr false).cmds ++ [b]
                nextCmd := (y.recordCmd c 0 pr false).nextCmd + 1 } want.writes u.now) b want →
              exec i s = .next (if z.now < ef then z else z.startCmd b.id env))))))

/-- What a command's work is when it begins (R45, R92, R209, R217, R234, R248, R264, R265, R271, R278 to R285, R409,
R422, R425, R428): it reads the versions open now, and writes the set that is
its issuer's now; work of stations waits for their reports; the other opcodes have the
effect and the result of their rows, and a FENCE ends once every command that it covers has been handed on; work that is
done is released at once, or at its promise when it is paced. -/
def Obligations.WorkBeginsAndEnds : Prop :=
  (∀ (s : State) (id : Nat) (c d : Cmd) (env : ReadEnv), s.cmd id = some c → s.tam.pair ≠ 1 → s.tam.pair ≠ 5 →
    d = { c with phase := .running, vers := s.captureVers c, sets := s.captureSets c } →
    s.startCmd id env = State.beginOp { s with cmds := s.cmds.map fun e => if e.id = id then d else e } d env) ∧
  (∀ (s : State) (c : Cmd) (env : ReadEnv) (op : Nat), op = pkOp c.pkt →
    (op ∈ [0x01, 0x02, 0x03, 0x10, 0x11, 0x12, 0x13, 0x14, 0x42] → c.stations ≠ [] → s.beginOp c env = s) ∧
    (op = 0x15 → s.beginOp c env = s.startTiles c (pk c.pkt 24 2) (tierLevel s c).1 (tierLevel s c).2) ∧
    (op ∈ [0x20, 0x21, 0x22, 0x23, 0x24] → s.beginOp c env = s.beginTier c env) ∧
    (op = 0x51 → pk c.pkt 24 1 = 0 → s.beginOp c env = s.revokeReached (pk c.pkt 32 2)) ∧
    (∀ x, op = 0x52 → s.extent (pk c.pkt 32 2) = some x → pk c.pkt 40 8 = x.size →
      s.beginOp c env = s.finishCmd c.id 0 false 0) ∧
    (∀ x, op = 0x52 → s.extent (pk c.pkt 32 2) = some x → pk c.pkt 40 8 < x.size →
      s.beginOp c env = s.staleWindows x none (pk c.pkt 40 8)) ∧
    (∀ x, op = 0x53 → s.extent (pk c.pkt 32 2) = some x → s.beginOp c env =
      s.finishCmd c.id 0 false (s.queryResult c.allot (pk c.pkt 24 1) (pk c.pkt 32 2) x)) ∧
    (op = 0x60 ∨ op = 0x61 → s.now < nth c.aux 0 → s.beginOp c env = s) ∧
    (op = 0x71 → s.beginOp c env = if s.now < nth c.aux 0 then s
      else s.finishCmd c.id 0 false (result [(20, 6, nth c.aux 0)])) ∧
    (op = 0x72 → s.beginOp c env = s.finishCmd c.id 0 false (result [(20, 6, c.stamp), (26, 1, nth c.aux 0)])) ∧
    (∀ k : KeySlot, op = 0x80 → k = { s.slot (pk c.pkt 24 1) with
        loaded := true, key := (c.args.getD 0 0).setWidth 256 } →
      s.beginOp c env = State.finishCmd { s with sec := { s.sec with
        slots := sput .init s.sec.slots (pk c.pkt 24 1) k
        wrapped := sins s.sec.wrapped (pk c.pkt 24 1) (wrapKey k.key) } } c.id 0 false 0) ∧
    (∀ k : KeySlot, op = 0x81 → k = { s.slot (pk c.pkt 24 1) with loaded := false, key := 0 } →
      s.beginOp c env = State.finishCmd { s with sec := { s.sec with
        slots := sput .init s.sec.slots (pk c.pkt 24 1) k
        wrapped := sdel s.sec.wrapped (pk c.pkt 24 1)
        erasePending := s.sec.erasePending || (s.slot (pk c.pkt 24 1)).loaded } } c.id 0 false 0) ∧
    (op = 0xF1 → pk c.pkt 24 1 = s.plan.cur.level → s.planBase.level = pk c.pkt 24 1 → s.beginOp c env =
      s.finishCmd c.id 0 false (result [(20, 2, s.plan.cur.ver), (24, 6, s.plan.cur.effective)])) ∧
    (op = 0xF2 → s.beginOp c env = { s with pwr := { s.pwr with
      replanning := true, replanCmds := s.pwr.replanCmds ++ [c.id] } }) ∧
    (op = 0xF3 → s.beginOp c env = if (s.allot (pk c.pkt 24 1)).state = 0 then s.finishCmd c.id 0 false 0
      else s.resetAllot (pk c.pkt 24 1) 2 c.eff (some c.id)) ∧
    (op = 0xF4 → s.beginOp c env = State.finishCmd { s with pwr := { s.pwr with
      calendar := pk c.pkt 24 8, calendarAt := c.stamp, calValid := true } } c.id 0 false 0) ∧
    (op = 0xF5 → s.beginOp c env = State.finishCmd { s with prt := { s.prt with
      isOpen := true, changes := 0
      digest := Config.sha384 (leBytes 32 (c.args.getD 0 0).toNat ++ leBytes 8 c.eff) } } c.id 0 false 0) ∧
    (op = 0xF7 → s.beginOp c env = State.finishCmd { s with sec := { s.sec with candidate := linesBytes c.args } }
      c.id 0 false (result [(24, 4, imageVersion (linesBytes c.args))])) ∧
    (∀ x y w e n, op = 0x50 → pk c.pkt 24 1 = 1 → e = pk c.pkt 32 2 → n = pk c.pkt 25 1 % 64 → s.extent e = some x →
      y = { x with
        members := x.members ++ [(n, pk c.pkt 26 1 == 1)], memRevoke := x.memRevoke.filter (·.1 != n)
        endedViews := x.endedViews.filter (·.1 != n) } →
      w = y.holders.foldl (fun s m => s.extentEvent m 1 e y) (s.setExtent e y) →
      s.beginOp c env = State.finishCmd (w.offer n e x.base x.size) c.id 0 false
        (result [(20, 2, e), (22, 6, x.base), (28, 4, x.attr.toNat)])) ∧
    (∀ x y w e, op = 0x50 → pk c.pkt 24 1 ≠ 1 → s.newExtent c = (e, x, y) →
      w = (y.setExtent e x).modCmd c.id (fun c => { c with aux := [] }) →
      s.beginOp c env = State.digestUpdate (State.finishCmd (State.offer (State.extentEvent (State.pinPages { w with
        dir := { w.dir with hint := sput 1 w.dir.hint e 1 }
        old := { w.old with hint := sput 1 w.old.hint e 1 }
        sec := { w.sec with nonces := sins w.sec.nonces e (wrapKey x.nonce) } } e x env) x.owner 0 e x) x.owner e x.base x.size) c.id 0 false
          (result [(20, 2, e), (22, 6, x.base), (28, 4, x.attr.toNat)]))) ∧
    (∀ x w e, op = 0x51 → pk c.pkt 24 1 ≠ 0 → e = pk c.pkt 32 2 → w = s.endViews e (some (pk c.pkt 25 1)) →
      w.extent e = some x → s.beginOp c env = w.staleWindows x (some (pk c.pkt 25 1)) 0) ∧
    (∀ x e f w, op = 0x31 → e = pk c.pkt 24 2 → s.extent e = some x → f = s.publishFault c.allot e (pk c.pkt 28 4) c.eff →
      w = s.setExtent e { x with pubs := x.pubs.filter (·.cmd != c.id) } →
      (f ≠ 0 → f ≠ 2 → s.beginOp c env = w.finishCmd c.id f false 0) ∧
      (f = 0 → x.freezing c.allot (pk c.pkt 28 4) = true → s.beginOp c env = s.setExtent e { x with
        pubs := x.pubs.map fun k => if k.cmd = c.id then { k with base := 0, pages := [] } else k }) ∧
      (f = 0 → x.freezing c.allot (pk c.pkt 28 4) = false → ∀ pages,
        pages = s.setPages e x c.allot (x.cmdSet c.allot e []) c.eff c.id →
        (pages = [] → s.beginOp c env = w.finishCmd c.id 0 false (result [(20, 4, x.ver)])) ∧
        (pages ≠ [] → x.proxy = false → (∃ k ∈ x.pubs, k.cmd = c.id) →
          s.beginOp c env = s.cutPublish c e x pages env) ∧
        (∀ why p, pages ≠ [] → x.proxy = false → (∀ k ∈ x.pubs, k.cmd ≠ c.id) →
          s.conflict e x (pk c.pkt 28 4) pages = some (why, p) → s.beginOp c env =
            s.finishCmd c.id 3 false (result [(20, 4, x.pending), (24, 4, p), (28, 4, why)])))) ∧
    (∀ w x y a b o l, op = 0x40 → a = pk c.pkt 24 2 → b = pk c.pkt 26 2 → o = pk c.pkt 32 8 → l = pk c.pkt 48 8 → a ≠ b →
      w = s.pruneLocks → w.extent a = some x → w.extent b = some y → x.versioned = false →
      (∀ f ∈ w.dir.frames, f.2.st ≠ 8) →
      s.beginOp c env = (w.setExtent a { x with locks := x.locks ++ [⟨c.id, o, o + l, c.eff, none⟩] }).setExtent b { y with
        locks := y.locks ++ [⟨c.id, pk c.pkt 40 8, pk c.pkt 40 8 + l, c.eff, none⟩] }) ∧
    (∀ x e, op = 0x41 → e = pk c.pkt 24 2 → s.extent e = some x → (s.cmdBlocked c = true → s.beginOp c env = s) ∧
      (s.cmdBlocked c = false → s.fls.programs = [] → (∀ p ∈ x.bytePages (pk c.pkt 32 8) (pk c.pkt 48 8),
          ∀ k, s.locate e p (if x.versioned then x.verAt c.eff else x.ver) ≠ .frame k) →
        s.beginOp c env = State.programsSettle (s.modCmd c.id fun c => { c with
          programs := 0, poison := false, result := result [(20, 4, 0)], stations := [], reads := [] }) c.id)) ∧
    (op = 0x70 → s.beginOp c env = s.fences s.cmds.length) ∧
    (∀ l b, op = 0xF0 → l = ((List.range 9).map fun i => if pk c.pkt (24 + 2 * i) 2 = 0 then 1000
        else pk c.pkt (24 + 2 * i) 2) → b = { s.planBase with limits := l } →
      ((s.compute b).same s.planBase = true → s.beginOp c env = State.finishCmd { s with plan := { s.plan with
          cur := { s.plan.cur with limits := l }, pend := s.plan.pend.map fun p => { p with limits := l } } } c.id 0 false
        (result [(20, 2, s.plan.cur.ver), (24, 6, s.plan.cur.effective)])) ∧
      ((s.compute b).same s.planBase = false →
        s.beginOp c env = (s.issueAs 4 b none).finishCmd c.id 0 false ((s.issueAs 4 b none).planResult s.plan.last))) ∧
    (∀ l, op = 0xF6 → l = s.replayRecords (pk c.pkt 24 8) (pk c.pkt 32 8) →
      (l = [] → s.beginOp c env = s.finishCmd c.id 0 false 0) ∧
      (l ≠ [] → s.beginOp c env = State.finishCmd (((l.map (·.queue)).eraseDups).foldl (fun s q =>
        s.modQueue q fun v => { v with replaying := true }) { s with det := { s.det with
          replay := some (l, pk c.pkt 40 8) } }) c.id 0 false 0)) ∧
    (∀ x, op = 0x32 → s.extent (pk c.pkt 24 2) = some x → x.proxy = false → s.closeFault c.allot (pk c.pkt 24 2) c.eff = 0 →
      ∀ w, w = x.cmdSet c.allot (pk c.pkt 24 2) [] →
      s.beginOp c env = State.finishCmd (State.release (State.setExtent ((s.dropShadows (pk c.pkt 24 2) w).keepView
        (pk c.pkt 24 2) c.allot x) (pk c.pkt 24 2) (x.dropView c.allot)) (pk c.pkt 24 2)) c.id 0 false
          (result [(20, 4, (s.shadowSet (pk c.pkt 24 2) w).length)])) ∧
    (∀ x, op = 0x30 → s.extent (pk c.pkt 24 2) = some x → x.proxy = false → s.openFault c.allot (pk c.pkt 24 2) c.eff = 0 →
      s.beginOp c env = s.moveView c (pk c.pkt 24 2) x (((x.commits.find? fun q => decide (q.2 ≤ c.eff)).map
        (·.1)).getD x.ver))) ∧
  (∀ (s : State) (k : Nat) (f : Cmd → Bool),
    (f = fun c => pkOp c.pkt == 0x70 && c.phase == .running && !(c.covers.any fun i => (s.cmd i).isSome)) →
    (s.cmds.find? f = none → s.fences k = s) ∧
    (∀ c, s.cmds.find? f = some c → s.fences (k + 1) =
      (s.finishOne c.id 0 false (result [(20, 4, c.covers.length)])).fences k)) ∧
  (∀ (s : State) (id st : Nat) (po : Bool) (res : BitVec 96) (c d : Cmd), s.cmd id = some c →
    d = { c with status := st, poison := po, result := res, phase := .paced } →
    (c.paced = true → s.now < c.promise →
      s.finishOne id st po res = { s with cmds := s.cmds.map fun e => if e.id = id then d else e }) ∧
    (c.paced = false ∨ c.promise ≤ s.now → (∀ w ∈ s.tam.waits, w.type ≠ 0x22) →
      s.finishOne id st po res = s.releaseCmd d) ∧
    (c.vers = [] → c.queue < 4096 → ∀ w : State, w = { s with
        cmds := s.cmds.filter (·.id != id)
        mxe := { s.mxe with outs := s.mxe.outs.filter fun o => o.cmd != id } } →
      ∀ e, e = entryOf (pkTag c.pkt) st (s.plan.cur.ver != c.plan) po c.plan c.promise res →
        s.releaseCmd d = State.reap (w.complete c.queue e c.promise c.intr
          (if c.inBudget then some (16 * c.allot + c.cls) else none))))

/-! ### The machine after reset -/

/-- What the registers read after reset: the values of the register tables that are not zero, the arrays of which every
element has the same value, and zero in the others that are named here; nothing waits, no page
holds data, no extent exists and the part stands in phase BOOT_ROM (R461, R468). -/
def Obligations.ResetValues : Prop :=
  (∀ e ∈ [(0x4, 1), (0x20000, 0xFA), (0x30000, 0x100), (0x30004, 1), (0x50000, 8), (0x50008, 0x1CF000),
      (0x5000C, 0x1EEC00), (0x60000, 0x401), (0x70000, 0x3E8), (0x70024, 4), (0x80000, 8), (0x90034, 0xC),
      (0x90038, 2 ^ 64 - 1), (0xC0000, 0x1088), (0xC0008, 0x90000), (0xC000C, 0x7F7F), (0xD0000, 0x1320),
      (0xD0028, 0xAC000000000), (0xE0000, 0x3C0040), (0xE0004, 1), (0xE0008, 0x18), (0xF0000, 3), (0x100000, 0x1800),
      (0x100008, 2 ^ 64 - 1), (0x110000, 1), (0x120000, 0xF0100), (0x140000, 0x645F01), (0x150000, 0x141E)],
    State.reset.readReg e.1 = e.2) ∧
  (∀ n, n < 64 → State.reset.readReg (0x20100 + 4 * n) = 0xF0000 ∧ (0 < n →
    State.reset.readReg (0x30000 + 0x40 * n) = 0 ∧ State.reset.readReg (0x30004 + 0x40 * n) = 0)) ∧
  (∀ n, n < 12 → State.reset.readReg (0xC0040 + 4 * n) = 0x3E8) ∧
  (∀ e, e < 65536 → State.reset.readReg (0x400000 + 4 * e) = 1) ∧
  (∀ q, q < 4096 → ∀ r ∈ [0x0, 0x8, 0x10, 0x14, 0x18, 0x1C], State.reset.readReg (0xA0000 + 0x20 * q + r) = 0) ∧
  (∀ o ∈ [0x8, 0x10, 0x10000, 0x10008, 0x10010, 0x10014, 0x10018, 0x10020, 0x10024, 0x10028, 0x10030, 0x20004, 0x20008,
      0x2000C, 0x20010, 0x20014, 0x20018, 0x20200, 0x50004, 0x50010, 0x50014, 0x50018, 0x5001C, 0x50020, 0x50028, 0x50030,
      0x60004, 0x60008, 0x6000C, 0x60010, 0x60018, 0x60020, 0x70004, 0x70008, 0x7000C, 0x70010, 0x70014, 0x70018, 0x70020,
      0x700C0, 0x700C4, 0x700C8, 0x700D0, 0x80004, 0x8000C, 0x80010, 0x80014, 0x80018, 0x80020, 0x80028, 0x80030, 0x80038,
      0x80040, 0x80048, 0x90000, 0x90010, 0x90014, 0x90018, 0x90020, 0x90028, 0x90030, 0xC0004, 0xC0010, 0xC0018, 0xC0020,
      0xC0028, 0xD0004, 0xD0030, 0xD0034, 0xD0038, 0xD0040, 0xD0048, 0xE0010, 0xE0018, 0xE0020, 0xE0028, 0xE0030, 0xE0034,
      0xE0038, 0xE003C, 0xE0040, 0xE0044, 0xE0048, 0xE0050, 0xE0058, 0xE0060, 0xF0008, 0xF000C, 0x100004, 0x100010,
      0x100030, 0x100034, 0x100038, 0x100040, 0x100048, 0x100050, 0x100054, 0x110004, 0x110010, 0x110018, 0x110020,
      0x110028, 0x110030, 0x120004, 0x12000C, 0x120010, 0x120018, 0x120030, 0x120038, 0x120040, 0x130018, 0x13001C,
      0x130020, 0x130030, 0x130034, 0x130040, 0x130044, 0x140004, 0x140010, 0x140018, 0x14001C, 0x140020, 0x140028,
      0x140030, 0x150004, 0x150008, 0x160000, 0x160004, 0x160008, 0x16000C, 0x160010, 0x160100, 0x160108, 0x16010C,
      0x160110, 0x160118], State.reset.readReg o = 0) ∧
  (State.reset.pending = [] ∧ State.reset.cmds = [] ∧ State.reset.waiting = [] ∧ State.reset.queues = [] ∧
    State.reset.ext.tbl = [] ∧ State.reset.dir.frames = [] ∧ State.reset.fls.images = [] ∧ State.reset.gen.phase = 1 ∧
    State.reset.cc.running = false ∧ State.reset.tam.pair = 0)
end

