-- ==== Sys2Proof/Laws/Settings.lean ====
section
/-! SUPPORT. The settings of a state that is written field by field, and of one that an operation leaves. -/

namespace Sys2Proof.Machine

open Sys2Proof

/-- The settings of a state written as a record. -/
@[simp] theorem State.settings_mk
    (pending : List Instr) (out : List Out) (cc : CcBlk) (plan : PlanBlk) (col : ColBlk) (dir : DirBlk)
    (ext : ExtBlk) (cod : CodBlk) (mxe : MxeBlk) (spr : SprBlk) (drm : DrmBlk) (fls : FlsBlk) (int : IntBlk)
    (flt : FltBlk) (det : DetBlk) (ep : EpBlk) (tam : TamBlk) (sec : SecBlk) (pwr : PwrBlk) (prt : PrtBlk)
    (gen : GenBlk) (queues : Sparse Queue) (allots : Sparse Allot) (cmds : List Cmd) (nextCmd : Nat)
    (waiting : List HostReq) (nextReq : Nat) (ties : List Tie) (old : Governed)
    (readHigh : Sparse Reg32) (readLog : Sparse (BitVec 256)) (lowHalf : Sparse Reg32) (woLow : Sparse Reg32) (free : Nat) :
    State.settings
      (State.mk
        pending out cc plan col dir ext cod mxe spr drm fls int flt det ep tam sec pwr prt gen queues allots
        cmds nextCmd waiting nextReq ties old readHigh readLog lowHalf woLow free) =
    Settings.mk
      pending cc.now cc.running gen.addr cc.syncValue col.ctrl col.cls col.resSel dir.ctrl dir.sel ext.ctrl ext.sel cod.ctrl
      cod.grantTable cod.tblSel cod.elem cod.buf cod.slots cod.extSel mxe.ctrl mxe.desc mxe.engSel
      mxe.compSel spr.rcpSel spr.buf spr.slots spr.allow spr.coreSel drm.ctrl drm.target drm.chSel fls.ctrl
      fls.dieSel int.ctrl int.scrub int.chSel flt.ctrl det.ctrl det.mask det.copySrc det.copyDst det.copyLen
      ep.ctrl ep.portSel ep.ldSel tam.ctrl tam.portSel tam.route tam.export_ sec.cfgBuf sec.slotSel
      sec.rcvLen sec.window pwr.ctrl pwr.domSel pwr.ageCtrl pwr.ageSel prt.gate prt.stage prt.symLine
      prt.symCtrl lowHalf woLow := rfl

/-- The settings of a state, read back from its fields. -/
@[simp] theorem State.settings_eta (s : State) :
    Settings.mk
      s.pending s.cc.now s.cc.running s.gen.addr s.cc.syncValue s.col.ctrl s.col.cls s.col.resSel s.dir.ctrl s.dir.sel s.ext.ctrl
      s.ext.sel s.cod.ctrl s.cod.grantTable s.cod.tblSel s.cod.elem s.cod.buf s.cod.slots s.cod.extSel
      s.mxe.ctrl s.mxe.desc s.mxe.engSel s.mxe.compSel s.spr.rcpSel s.spr.buf s.spr.slots s.spr.allow
      s.spr.coreSel s.drm.ctrl s.drm.target s.drm.chSel s.fls.ctrl s.fls.dieSel s.int.ctrl s.int.scrub
      s.int.chSel s.flt.ctrl s.det.ctrl s.det.mask s.det.copySrc s.det.copyDst s.det.copyLen s.ep.ctrl
      s.ep.portSel s.ep.ldSel s.tam.ctrl s.tam.portSel s.tam.route s.tam.export_ s.sec.cfgBuf s.sec.slotSel
      s.sec.rcvLen s.sec.window s.pwr.ctrl s.pwr.domSel s.pwr.ageCtrl s.pwr.ageSel s.prt.gate s.prt.stage
      s.prt.symLine s.prt.symCtrl s.lowHalf s.woLow = s.settings := rfl

end Sys2Proof.Machine
end

