-- ==== Sys2Proof/Laws/Foundation.lean ====
section
/-! SUPPORT. Frame lemmas of the named operations, records, events and rates: none changes a setting. -/

namespace Sys2Proof.Machine

open Sys2Proof

/-- A fold whose step changes no setting changes none. -/
@[simp] theorem foldl_settings {α : Type} (g : State → α → State) (h : ∀ s a, (g s a).settings = s.settings)
    (l : List α) (s : State) : (l.foldl g s).settings = s.settings := by
  induction l generalizing s with
  | nil => rfl
  | cons a l ih => simp [ih, h]

/-- A fold whose step changes no setting changes none. -/
@[simp] theorem foldl_settings2 {α β : Type} (g : β × State → α → β × State)
    (h : ∀ p a, (g p a).2.settings = p.2.settings) (l : List α) (p : β × State) :
    (l.foldl g p).2.settings = p.2.settings := by
  induction l generalizing p with
  | nil => rfl
  | cons a l ih => simp [ih, h]

/-- A fold whose step changes no setting changes none. -/
@[simp] theorem foldl_settings4 {α β γ δ : Type} (g : β × γ × δ × State → α → β × γ × δ × State)
    (h : ∀ p a, (g p a).2.2.2.settings = p.2.2.2.settings) (l : List α) (p : β × γ × δ × State) :
    (l.foldl g p).2.2.2.settings = p.2.2.2.settings := by
  induction l generalizing p with
  | nil => rfl
  | cons a l ih => simp [ih, h]

/-- A fold whose step changes no setting changes none. -/
@[simp] theorem foldl_settings3 {α β γ : Type} (g : β × γ × State → α → β × γ × State)
    (h : ∀ p a, (g p a).2.2.settings = p.2.2.settings) (l : List α) (p : β × γ × State) :
    (l.foldl g p).2.2.settings = p.2.2.settings := by
  induction l generalizing p with
  | nil => rfl
  | cons a l ih => simp [ih, h]

/-! ### Ops -/

@[simp] theorem State.emit_settings (s : State) (a1 : Out) :
    (@State.emit s a1).settings = s.settings := by
  simp [State.emit]

@[simp] theorem State.fresh_settings (s : State) :
    (@State.fresh s).2.settings = s.settings := by
  simp [State.fresh]

@[simp] theorem State.setAllot_settings (s : State) (a1 : Nat) (a2 : Allot) :
    (@State.setAllot s a1 a2).settings = s.settings := by
  simp [State.setAllot]

@[simp] theorem State.modAllot_settings (s : State) (a1 : Nat) (a2 : Allot → Allot) :
    (@State.modAllot s a1 a2).settings = s.settings := by
  simp [State.modAllot]

@[simp] theorem State.setQueue_settings (s : State) (a1 : Nat) (a2 : Queue) :
    (@State.setQueue s a1 a2).settings = s.settings := by
  simp [State.setQueue]

@[simp] theorem State.modQueue_settings (s : State) (a1 : Nat) (a2 : Queue → Queue) :
    (@State.modQueue s a1 a2).settings = s.settings := by
  simp [State.modQueue]

@[simp] theorem State.setLd_settings (s : State) (a1 : Nat) (a2 : Ld) :
    (@State.setLd s a1 a2).settings = s.settings := by
  simp [State.setLd]

@[simp] theorem State.modLd_settings (s : State) (a1 : Nat) (a2 : Ld → Ld) :
    (@State.modLd s a1 a2).settings = s.settings := by
  simp [State.modLd]

@[simp] theorem State.modHport_settings (s : State) (a1 : Nat) (a2 : HostPort → HostPort) :
    (@State.modHport s a1 a2).settings = s.settings := by
  simp [State.modHport]

@[simp] theorem State.modTport_settings (s : State) (a1 : Nat) (a2 : TamPort → TamPort) :
    (@State.modTport s a1 a2).settings = s.settings := by
  simp [State.modTport]

@[simp] theorem State.modChan_settings (s : State) (a1 : Nat) (a2 : Chan → Chan) :
    (@State.modChan s a1 a2).settings = s.settings := by
  simp [State.modChan]

@[simp] theorem State.modDie_settings (s : State) (a1 : Nat) (a2 : Die → Die) :
    (@State.modDie s a1 a2).settings = s.settings := by
  simp [State.modDie]

@[simp] theorem State.modDom_settings (s : State) (a1 : Nat) (a2 : Domain → Domain) :
    (@State.modDom s a1 a2).settings = s.settings := by
  simp [State.modDom]

@[simp] theorem State.modSlot_settings (s : State) (a1 : Nat) (a2 : KeySlot → KeySlot) :
    (@State.modSlot s a1 a2).settings = s.settings := by
  simp [State.modSlot]

@[simp] theorem State.setExtent_settings (s : State) (a1 : Nat) (a2 : Extent) :
    (@State.setExtent s a1 a2).settings = s.settings := by
  simp [State.setExtent]

@[simp] theorem State.modExtent_settings (s : State) (a1 : Nat) (a2 : Extent → Extent) :
    (@State.modExtent s a1 a2).settings = s.settings := by
  unfold State.modExtent; (repeat' split) <;> simp

@[simp] theorem State.setFrame_settings (s : State) (a1 : Nat) (a2 : Frame) :
    (@State.setFrame s a1 a2).settings = s.settings := by
  simp [State.setFrame]

@[simp] theorem State.modFrame_settings (s : State) (a1 : Nat) (a2 : Frame → Frame) :
    (@State.modFrame s a1 a2).settings = s.settings := by
  unfold State.modFrame; (repeat' split) <;> simp

@[simp] theorem State.modCmd_settings (s : State) (a1 : Nat) (a2 : Cmd → Cmd) :
    (@State.modCmd s a1 a2).settings = s.settings := by
  simp [State.modCmd]

@[simp] theorem State.updIntx_settings (s : State) (a1 : Nat) :
    (@State.updIntx s a1).settings = s.settings := by
  simp [State.updIntx, apply_ite State.settings]

@[simp] theorem State.interrupt_settings (s : State) (a1 a2 : Nat) :
    (@State.interrupt s a1 a2).settings = s.settings := by
  simp [State.interrupt, apply_ite State.settings]

@[simp] theorem State.evtPut_settings (s : State) (a1 : Nat) (a2 : EventEntry) (a3 : Bool) :
    (@State.evtPut s a1 a2 a3).settings = s.settings := by
  simp [State.evtPut]

@[simp] theorem State.evtStep_settings (s : State) (a1 : Nat) :
    (@State.evtStep s a1).settings = s.settings := by
  simp only [State.evtStep]; (repeat' split) <;> simp_all

@[simp] theorem State.post_settings (s : State) (a1 a2 : Nat) (a3 : List (Nat × Nat × Nat)) :
    (@State.post s a1 a2 a3).settings = s.settings := by
  simp [State.post, apply_ite State.settings]

@[simp] theorem State.evtDrain_settings (a0 a1 : Nat) (s : State) :
    (@State.evtDrain a0 a1 s).settings = s.settings := by
  induction a1 generalizing s a0 <;> simp_all [State.evtDrain, apply_ite State.settings]

@[simp] theorem State.postGroup_settings (s : State) (a1 : Nat) (a2 : List EventEntry) :
    (@State.postGroup s a1 a2).settings = s.settings := by
  simp [State.postGroup, apply_ite State.settings]

@[simp] theorem State.plogPut_settings (s : State) (a1 : LogEntry) :
    (@State.plogPut s a1).settings = s.settings := by
  simp [State.plogPut]

@[simp] theorem State.signalPme_settings (s : State) (a1 : Nat) :
    (@State.signalPme s a1).settings = s.settings := by
  simp [State.signalPme, apply_ite State.settings]

@[simp] theorem State.faultTo_settings (s : State) (a1 : List Nat) (a2 a3 a4 a5 a6 : Nat) :
    (@State.faultTo s a1 a2 a3 a4 a5 a6).settings = s.settings := by
  simp [State.faultTo]

@[simp] theorem State.fault0_settings (s : State) (a1 a2 a3 : Nat) :
    (@State.fault0 s a1 a2 a3).settings = s.settings := by
  simp [State.fault0]

@[simp] theorem State.err_settings (s : State) (a1 a2 a3 a4 a5 a6 a7 : Nat) :
    (@State.err s a1 a2 a3 a4 a5 a6 a7).settings = s.settings := by
  simp only [State.err]; (repeat' split) <;> simp_all

@[simp] theorem State.regErr_settings (s : State) (a1 a2 : Nat) :
    (@State.regErr s a1 a2).settings = s.settings := by
  simp [State.regErr]

@[simp] theorem State.reply_settings (s : State) (a1 : Nat) (a2 : List Nat) (a3 : optParam Bytes []) :
    (@State.reply s a1 a2 a3).settings = s.settings := by
  simp [State.reply]

/-! ### Flags -/

@[simp] theorem State.ccBit_settings (s : State) (a1 : Nat) (a2 : Bool) :
    (@State.ccBit s a1 a2).settings = s.settings := by
  simp [State.ccBit]

@[simp] theorem State.dirBit_settings (s : State) (a1 : Nat) :
    (@State.dirBit s a1).settings = s.settings := by
  simp [State.dirBit]

@[simp] theorem State.pubBit_settings (s : State) (a1 : Nat) :
    (@State.pubBit s a1).settings = s.settings := by
  simp [State.pubBit]

@[simp] theorem State.codBit_settings (s : State) (a1 : Nat) :
    (@State.codBit s a1).settings = s.settings := by
  simp [State.codBit]

@[simp] theorem State.intBit_settings (s : State) (a1 : Nat) :
    (@State.intBit s a1).settings = s.settings := by
  simp [State.intBit]

@[simp] theorem State.tamBit_settings (s : State) (a1 : Nat) :
    (@State.tamBit s a1).settings = s.settings := by
  simp [State.tamBit]

@[simp] theorem State.prtErr_settings (s : State) :
    (@State.prtErr s).settings = s.settings := by
  simp [State.prtErr]

@[simp] theorem State.clockEvent_settings (s : State) :
    (@State.clockEvent s).settings = s.settings := by
  simp [State.clockEvent]

/-! ### Records -/

@[simp] theorem State.record_settings (s : State) (a1 a2 a3 a4 : Nat) (a5 : Count) (a6 : Nat) (a7 : Packet) (a8 a9
    : Nat) :
    (@State.record s a1 a2 a3 a4 a5 a6 a7 a8 a9).settings = s.settings := by
  simp [State.record, apply_ite State.settings]

@[simp] theorem State.recordConfig_settings (s : State) :
    (@State.recordConfig s).settings = s.settings := by
  simp [State.recordConfig]

@[simp] theorem State.digestUpdate_settings (s : State) :
    (@State.digestUpdate s).settings = s.settings := by
  simp [State.digestUpdate, apply_ite State.settings]

@[simp] theorem State.hashRecord_settings (s : State) (a1 : Nat) (a2 a3 : Count) (a4 : BitVec 128) (a5 : Nat) :
    (@State.hashRecord s a1 a2 a3 a4 a5).settings = s.settings := by
  simp [State.hashRecord, apply_ite State.settings]

@[simp] theorem State.hashClose_settings (s : State) (a1 : Nat) (a2 : Count) :
    (@State.hashClose s a1 a2).settings = s.settings := by
  simp [State.hashClose, apply_ite State.settings]

@[simp] theorem State.hashFlush_settings (s : State) (a1 : Nat) :
    (@State.hashFlush s a1).settings = s.settings := by
  simp [State.hashFlush, apply_ite State.settings]

@[simp] theorem State.hashWindow_settings (s : State) (a1 : Nat) (a2 : Count) :
    (@State.hashWindow s a1 a2).settings = s.settings := by
  simp [State.hashWindow, apply_ite State.settings]

@[simp] theorem State.hashAdd_settings (s : State) (a1 a2 : Nat) (a3 : Bool) (a4 : Nat) (a5 : Line) (a6 : Count) :
    (@State.hashAdd s a1 a2 a3 a4 a5 a6).settings = s.settings := by
  simp [State.hashAdd, apply_ite State.settings]

/-! ### Wire -/

@[simp] theorem State.portSend_settings (s : State) (a1 : Nat) (a2 : TamMsg) :
    (@State.portSend s a1 a2).settings = s.settings := by
  simp [State.portSend, apply_ite State.settings]

@[simp] theorem State.tamSend_settings (s : State) (a1 : TamMsg) :
    (@State.tamSend s a1).settings = s.settings := by
  unfold State.tamSend; (repeat' split) <;> simp

@[simp] theorem State.sendHeld_settings (s : State) : (@State.sendHeld s).settings = s.settings := by
  unfold State.sendHeld
  split <;> simp

@[simp] theorem State.tamRequest_settings (s : State) (a1 : TamMsg) (a2 a3 : Nat) (a4 : Option Nat) :
    (@State.tamRequest s a1 a2 a3 a4).2.settings = s.settings := by
  unfold State.tamRequest
  simp only []
  split <;> simp

@[simp] theorem State.tamReply_settings (s : State) (a1 : TamMsg) (a2 a3 : Nat) (a4 : List Nat) :
    (@State.tamReply s a1 a2 a3 a4).settings = s.settings := by
  simp [State.tamReply]

/-! ### Plan -/

@[simp] theorem State.sendRates_settings (s : State) (a1 : Plan) :
    (@State.sendRates s a1).settings = s.settings := by
  simp [State.sendRates, apply_ite State.settings]

@[simp] theorem State.applyCuts_settings (s : State) (a1 : Bool) :
    (@State.applyCuts s a1).settings = s.settings := by
  simp [State.applyCuts]

@[simp] theorem State.postPlan_settings (s : State) (a1 : Plan) (a2 : Count) (a3 : Bool) (a4 : List Reservation) :
    (@State.postPlan s a1 a2 a3 a4).settings = s.settings := by
  simp [State.postPlan]

@[simp] theorem State.withdraw_settings (s : State) :
    (@State.withdraw s).settings = s.settings := by
  unfold State.withdraw; (repeat' split) <;> simp

@[simp] theorem State.newVersion_settings (s : State) (a1 : Nat) (a2 : Count) :
    (@State.newVersion s a1 a2).2.settings = s.settings := by
  simp [State.newVersion]

@[simp] theorem State.inForce_settings (s : State) (a1 : Plan) :
    (@State.inForce s a1).settings = s.settings := by
  simp [State.inForce]

@[simp] theorem State.issueAs_settings (s : State) (a1 : Nat) (a2 : Plan) (a3 : Option Count) :
    (@State.issueAs s a1 a2 a3).settings = s.settings := by
  simp [State.issueAs, apply_ite State.settings]

@[simp] theorem State.issue_settings (s : State) (a1 : Nat) (a2 : Plan → Plan) :
    (@State.issue s a1 a2).settings = s.settings := by
  simp [State.issue]

@[simp] theorem State.retirePlan_settings (s : State) :
    (@State.retirePlan s).settings = s.settings := by
  simp only [State.retirePlan]; (repeat' split) <;> simp_all

@[simp] theorem State.issueLive_settings (s : State) (a1 : Nat) (a2 : Plan → Plan) :
    (@State.issueLive s a1 a2).settings = s.settings := by
  simp [State.issueLive, apply_ite State.settings]

@[simp] theorem State.powerSet_settings (s : State) (a1 : Nat) :
    (@State.powerSet s a1).settings = s.settings := by
  simp [State.powerSet, apply_ite State.settings]

/-! ### Colander -/

@[simp] theorem State.setLs_settings (s : State) (a1 a2 : Nat) :
    (@State.setLs s a1 a2).settings = s.settings := by
  simp [State.setLs]

@[simp] theorem State.setCmdCount_settings (s : State) (a1 a2 : Nat) :
    (@State.setCmdCount s a1 a2).settings = s.settings := by
  simp [State.setCmdCount]

@[simp] theorem State.leaveCmd_settings (s : State) (a1 : Option Nat) :
    (@State.leaveCmd s a1).settings = s.settings := by
  unfold State.leaveCmd; (repeat' split) <;> simp

@[simp] theorem State.countDemoted_settings (s : State) :
    (@State.countDemoted s).settings = s.settings := by
  simp [State.countDemoted]

@[simp] theorem State.classify_settings (s : State) (a1 : HostReq) :
    (@State.classify s a1).2.settings = s.settings := by
  simp only [State.classify]; (repeat' split) <;> simp_all

@[simp] theorem State.leaveLs_settings (s : State) (a1 : HostReq) :
    (@State.leaveLs s a1).settings = s.settings := by
  simp [State.leaveLs, apply_ite State.settings]

@[simp] theorem State.chargeMeter_settings (s : State) (a1 : Nat) :
    (@State.chargeMeter s a1).settings = s.settings := by
  simp [State.chargeMeter]

@[simp] theorem State.setHorizon_settings (s : State) (a1 : Option Reservation) (a2 : Nat) (a3 : Count) :
    (@State.setHorizon s a1 a2 a3).settings = s.settings := by
  unfold State.setHorizon; (repeat' split) <;> simp

@[simp] theorem State.setHorizons_settings (s : State) (a1 : List (Nat × Option Reservation × Count)) :
    (@State.setHorizons s a1).settings = s.settings := by
  simp [State.setHorizons]

theorem State.colander_settings (s : State) (allot cls : Nat) (paced : Bool) (eff deadline : Count) (w : Want) :
    (s.colander allot cls paced eff deadline w).state.settings = s.settings := by
  unfold State.colander
  simp only []
  repeat' split
  all_goals simp [Admission.state]

/-! ### Queues -/

@[simp] theorem State.queueTo_settings (s : State) (a1 a2 a3 : Nat) :
    (@State.queueTo s a1 a2 a3).settings = s.settings := by
  simp [State.queueTo, apply_ite State.settings]

@[simp] theorem State.queueSettle_settings (s : State) (a1 : Nat) :
    (@State.queueSettle s a1).settings = s.settings := by
  simp [State.queueSettle, apply_ite State.settings]

@[simp] theorem State.cqWrite_settings (s : State) (a1 : Nat) (a2 : Completion) (a3 : Count) (a4 a5 : Bool) (a6 :
    Option Nat) :
    (@State.cqWrite s a1 a2 a3 a4 a5 a6).settings = s.settings := by
  simp [State.cqWrite, apply_ite State.settings]

@[simp] theorem State.complete_settings (s : State) (a1 : Nat) (a2 : Completion) (a3 : Count) (a4 : Bool) (a5 :
    Option Nat) :
    (@State.complete s a1 a2 a3 a4 a5).settings = s.settings := by
  simp [State.complete, apply_ite State.settings]

@[simp] theorem State.heldWrite_settings (s : State) (a1 : Nat) :
    (@State.heldWrite s a1).settings = s.settings := by
  simp only [State.heldWrite]; (repeat' split) <;> simp_all

@[simp] theorem State.heldDrain_settings (a0 a1 : Nat) (s : State) :
    (@State.heldDrain a0 a1 s).settings = s.settings := by
  induction a1 generalizing s a0 <;> simp_all [State.heldDrain, apply_ite State.settings]

@[simp] theorem State.issueFetch_settings (s : State) (a1 a2 : Nat) :
    (@State.issueFetch s a1 a2).settings = s.settings := by
  simp [State.issueFetch, apply_ite State.settings]

@[simp] theorem State.discardHeld_settings (s : State) (a1 : Nat) :
    (@State.discardHeld s a1).settings = s.settings := by
  simp [State.discardHeld]

@[simp] theorem State.clearQueue_settings (s : State) (a1 : Nat) :
    (@State.clearQueue s a1).settings = s.settings := by
  simp [State.clearQueue]

end Sys2Proof.Machine
end

