-- ==== Sys2Proof/Laws/Storage.lean ====
section
/-! SUPPORT. Frame lemmas of what reads and writes lines and pages: none changes a setting. -/

namespace Sys2Proof.Machine

open Sys2Proof

/-! ### Pages -/

@[simp] theorem State.touch_settings (s : State) (a1 : Nat) :
    (@State.touch s a1).settings = s.settings := by
  simp [State.touch]

@[simp] theorem State.freeFrame_settings (s : State) (a1 : Nat) :
    (@State.freeFrame s a1).settings = s.settings := by
  simp [State.freeFrame]

@[simp] theorem State.stampWrite_settings (s : State) (a1 : Nat) (a2 : Count) :
    (@State.stampWrite s a1 a2).settings = s.settings := by
  simp only [State.stampWrite]; (repeat' split) <;> simp_all

@[simp] theorem State.release101_settings (s : State) (a1 : Nat) :
    (@State.release101 s a1).settings = s.settings := by
  unfold State.release101; (repeat' split) <;> simp

@[simp] theorem State.retainTest_settings (s : State) :
    (@State.retainTest s).settings = s.settings := by
  simp [State.retainTest, apply_ite State.settings]

/-! ### Flash -/

@[simp] theorem State.countInternal_settings (s : State) (a1 : Nat) :
    (@State.countInternal s a1).settings = s.settings := by
  simp [State.countInternal]

@[simp] theorem State.countProgram_settings (s : State) (a1 : Bool) :
    (@State.countProgram s a1).settings = s.settings := by
  simp [State.countProgram, apply_ite State.settings]

@[simp] theorem State.setRow_settings (s : State) (a1 : Stripe) :
    (@State.setRow s a1).settings = s.settings := by
  simp [State.setRow]

@[simp] theorem State.placeIn_settings (s : State) (a1 : List Nat) :
    (@State.placeIn s a1).2.settings = s.settings := by
  unfold State.placeIn; (repeat' split) <;> simp

@[simp] theorem State.nextPlace_settings (s : State) :
    (@State.nextPlace s).2.settings = s.settings := by
  simp [State.nextPlace]

@[simp] theorem State.closeRow_settings (s : State) (a1 a2 : Nat) :
    (@State.closeRow s a1 a2).settings = s.settings := by
  unfold State.closeRow; (repeat' split) <;> simp

@[simp] theorem State.switchMap_settings (s : State) (a1 : Image) :
    (@State.switchMap s a1).settings = s.settings := by
  simp [State.switchMap, apply_ite State.settings]

@[simp] theorem State.addToRow_settings (s : State) (a1 : Image) :
    (@State.addToRow s a1).settings = s.settings := by
  unfold State.addToRow; (repeat' split) <;> simp

@[simp] theorem State.landImage_settings (s : State) (a1 : Image) (a2 : Bool) :
    (@State.landImage s a1 a2).settings = s.settings := by
  simp [State.landImage]

@[simp] theorem State.putImage_settings (s : State) (a1 : Image) (a2 : Bool) :
    (@State.putImage s a1 a2).settings = s.settings := by
  simp [State.putImage]

@[simp] theorem State.program_settings (s : State) (a1 : Image) (a2 : Option Nat) (a3 : Bool) (a4 : Option Nat) :
    (@State.program s a1 a2 a3 a4).settings = s.settings := by
  simp [State.program]

@[simp] theorem State.issueNext_settings (s : State) :
    (@State.issueNext s).settings = s.settings := by
  unfold State.issueNext; (repeat' split) <;> simp

@[simp] theorem State.touchMap_settings (s : State) (a1 a2 : Nat) :
    (@State.touchMap s a1 a2).settings = s.settings := by
  simp [State.touchMap]

@[simp] theorem State.countRecon_settings (s : State) (a1 a2 : Nat) :
    (@State.countRecon s a1 a2).settings = s.settings := by
  simp [State.countRecon]

@[simp] theorem State.flashRead_settings (s : State) (a1 : Image) :
    (@State.flashRead s a1).settings = s.settings := by
  simp only [State.flashRead]; (repeat' split) <;> simp_all

@[simp] theorem State.readFlash_settings (s : State) (a1 a2 a3 : Nat) :
    (@State.readFlash s a1 a2 a3).settings = s.settings := by
  unfold State.readFlash; (repeat' split) <;> simp

@[simp] theorem State.moveImages_settings (s : State) (a1 : List Nat) (a2 : List Image) :
    (@State.moveImages s a1 a2).settings = s.settings := by
  simp [State.moveImages]

@[simp] theorem State.loseImage_settings (s : State) (a1 : Image) :
    (@State.loseImage s a1).settings = s.settings := by
  simp only [State.loseImage]; (repeat' split) <;> simp_all

@[simp] theorem State.leaveDie_settings (s : State) (a1 : Nat) :
    (@State.leaveDie s a1).settings = s.settings := by
  simp [State.leaveDie]

@[simp] theorem State.retireDie_settings (s : State) (a1 : Nat) :
    (@State.retireDie s a1).settings = s.settings := by
  simp [State.retireDie, apply_ite State.settings]

@[simp] theorem State.retireBlock_settings (s : State) (a1 a2 : Nat) :
    (@State.retireBlock s a1 a2).settings = s.settings := by
  simp [State.retireBlock, apply_ite State.settings]

/-! ### Channels -/

@[simp] theorem State.checkWrite_settings (s : State) (a1 a2 : Nat) :
    (@State.checkWrite s a1 a2).settings = s.settings := by
  simp [State.checkWrite]

@[simp] theorem State.checkRead_settings (s : State) (a1 a2 : Nat) :
    (@State.checkRead s a1 a2).settings = s.settings := by
  simp only [State.checkRead]; (repeat' split) <;> simp_all

@[simp] theorem State.checkClean_settings (s : State) (a1 : Nat) :
    (@State.checkClean s a1).settings = s.settings := by
  simp [State.checkClean]

@[simp] theorem State.checkDrop_settings (s : State) (a1 : Nat) :
    (@State.checkDrop s a1).settings = s.settings := by
  simp [State.checkDrop]

@[simp] theorem State.opensRow_settings (s : State) (a1 : HostReq) (a2 : List HostReq) :
    (@State.opensRow s a1 a2).1.settings = s.settings := by
  unfold State.opensRow; (repeat' split) <;> simp

/-! ### Lines -/

@[simp] theorem State.escalate_settings (s : State) (a1 : Nat) :
    (@State.escalate s a1).settings = s.settings := by
  simp [State.escalate, apply_ite State.settings]

@[simp] theorem State.linkCheck_settings (s : State) (a1 : Bool) (a2 : List (Nat × Nat)) :
    (@State.linkCheck s a1 a2).settings = s.settings := by
  simp [State.linkCheck, apply_ite State.settings]

@[simp] theorem State.fillBucket_settings (s : State) (a1 a2 : Nat) (a3 : List Nat) :
    (@State.fillBucket s a1 a2 a3).settings = s.settings := by
  simp only [State.fillBucket]; (repeat' split) <;> simp_all

@[simp] theorem State.corrected_settings (s : State) (a1 a2 : Nat) (a3 : List Nat) :
    (@State.corrected s a1 a2 a3).settings = s.settings := by
  simp [State.corrected]

@[simp] theorem State.recordUe_settings (s : State) (a1 : Nat) (a2 : LineClass) (a3 : Bool) :
    (@State.recordUe s a1 a2 a3).settings = s.settings := by
  simp [State.recordUe]

@[simp] theorem State.injected_settings (s : State) (a1 : List Armed) :
    (@State.injected s a1).settings = s.settings := by
  simp [State.injected, apply_ite State.settings]

@[simp] theorem State.applied_settings (s : State) (a1 : List Armed) :
    (@State.applied s a1).settings = s.settings := by
  simp [State.applied]

@[simp] theorem State.readOnce_settings (s : State) (a1 a2 : Nat) (a3 : List LineFault) :
    (@State.readOnce s a1 a2 a3).2.2.settings = s.settings := by
  simp only [State.readOnce]; (repeat' split) <;> simp_all

@[simp] theorem State.readLine1_settings (s : State) (a1 a2 : Nat) (a3 : List LineFault) :
    (@State.readLine1 s a1 a2 a3).2.settings = s.settings := by
  simp only [State.readLine1]; (repeat' split) <;> simp_all

@[simp] theorem State.rereadOk_settings (s : State) :
    (@State.rereadOk s).2.settings = s.settings := by
  simp only [State.rereadOk]; (repeat' split) <;> simp_all

@[simp] theorem State.readLine_settings (s : State) (a1 a2 : Nat) (a3 : ReadEnv) (a4 : Bool) :
    (@State.readLine s a1 a2 a3 a4).2.settings = s.settings := by
  simp only [State.readLine]; (repeat' split) <;> simp_all

@[simp] theorem State.writeCell_settings (s : State) (a1 a2 : Nat) (a3 : Cell) :
    (@State.writeCell s a1 a2 a3).settings = s.settings := by
  simp [State.writeCell]

@[simp] theorem State.handUe_settings (s : State) (a1 a2 : Nat) :
    (@State.handUe s a1 a2).settings = s.settings := by
  unfold State.handUe; (repeat' split) <;> simp

@[simp] theorem State.blockLines_settings (s : State) (a1 a2 a3 : Nat) (a4 : List LineFault) :
    (@State.blockLines s a1 a2 a3 a4).2.settings = s.settings := by
  simp [State.blockLines]

@[simp] theorem State.blockReread_settings (s : State) :
    (@State.blockReread s).2.settings = s.settings := by
  simp only [State.blockReread]; (repeat' split) <;> simp_all

@[simp] theorem State.lenAt_settings (s : State) (a1 : Nat) (a2 : Frame) (a3 : Nat) :
    (@State.lenAt s a1 a2 a3).2.settings = s.settings := by
  simp [State.lenAt]

@[simp] theorem State.countDamage_settings (s : State) (a1 : Got) :
    (@State.countDamage s a1).settings = s.settings := by
  simp [State.countDamage, apply_ite State.settings]

@[simp] theorem State.recordBlock_settings (s : State) (a1 a2 : Nat) (a3 : List LineOut) (a4 : Bool) :
    (@State.recordBlock s a1 a2 a3 a4).settings = s.settings := by
  unfold State.recordBlock; repeat' first
    | (simp [apply_ite State.settings]; done)
    | (simp_all [apply_ite State.settings]; done)
    | split
    | refine (foldl_settings _ (fun _ _ => ?_) _ _).trans ?_
    | refine (foldl_settings2 _ (fun _ _ => ?_) _ _).trans ?_
    | refine (foldl_settings3 _ (fun _ _ => ?_) _ _).trans ?_
    | refine (foldl_settings4 _ (fun _ _ => ?_) _ _).trans ?_
    | (simp only [apply_ite State.settings]) | simp

@[simp] theorem State.secondBlock_settings (s : State) (a1 a2 a3 : Nat) (a4 : CodeTable) (a5 : ReadEnv) (a6 : List
    LineOut) (a7 : Got) :
    (@State.secondBlock s a1 a2 a3 a4 a5 a6 a7).2.2.settings = s.settings := by
  simp only [State.secondBlock]; (repeat' split) <;> simp_all

@[simp] theorem State.handBlock_settings (s : State) (f b : Nat) (ls : List LineOut) :
    (s.handBlock f b ls).settings = s.settings := by
  unfold State.handBlock
  refine (foldl_settings _ (fun _ a => ?_) _ _).trans rfl
  obtain ⟨o, i⟩ := a
  cases o <;> simp

@[simp] theorem State.blockPasses_settings (s : State) (a1 a2 : Nat) (a3 : Frame) (a4 : CodeTable) (a5 : ReadEnv) :
    (@State.blockPasses s a1 a2 a3 a4 a5).2.2.settings = s.settings := by
  simp only [State.blockPasses]; (repeat' split) <;> simp_all

@[simp] theorem State.readBlock_settings (s : State) (a1 a2 : Nat) (a3 : CodeTable) (a4 : ReadEnv) (a5 : Bool) :
    (@State.readBlock s a1 a2 a3 a4 a5).2.settings = s.settings := by
  simp only [State.readBlock]; (repeat' split) <;> simp

@[simp] theorem State.writeBlock_settings (s : State) (a1 a2 : Nat) (a3 : CodeTable) (a4 : List Cell) :
    (@State.writeBlock s a1 a2 a3 a4).settings = s.settings := by
  simp [State.writeBlock]

/-! ### Memory -/

@[simp] theorem State.decodeCodeword_settings (s : State) (a1 a2 : Nat) (a3 : Bool) :
    (@State.decodeCodeword s a1 a2 a3).settings = s.settings := by
  unfold State.decodeCodeword; (repeat' split) <;> simp

@[simp] theorem State.finishFill_settings (s : State) (a1 : Nat) (a2 : List Nat) :
    (@State.finishFill s a1 a2).settings = s.settings := by
  unfold State.finishFill; (repeat' split) <;> simp

@[simp] theorem State.settle_settings (s : State) (a1 : Nat) (a2 : ReadEnv) :
    (@State.settle s a1 a2).settings = s.settings := by
  unfold State.settle; (repeat' split) <;> simp

@[simp] theorem State.setMerge_settings (s : State) (a1 : MergeEntry) :
    (@State.setMerge s a1).settings = s.settings := by
  simp [State.setMerge]

@[simp] theorem State.pokePlane_settings (s : State) (a1 : Frame) (a2 : Nat) (a3 : BitVec 64) (a4 : Line) :
    (@State.pokePlane s a1 a2 a3 a4).settings = s.settings := by
  simp only [State.pokePlane]; (repeat' split) <;> simp_all

@[simp] theorem State.pokeScale_settings (s : State) (a1 : Extent) (a2 : Frame) (a3 a4 : Nat) :
    (@State.pokeScale s a1 a2 a3 a4).settings = s.settings := by
  simp only [State.pokeScale]; (repeat' split) <;> simp_all

@[simp] theorem State.zeroGroup_settings (s : State) (a1 : Extent) (a2 : Frame) (a3 : Nat) :
    (@State.zeroGroup s a1 a2 a3).settings = s.settings := by
  simp [State.zeroGroup, apply_ite State.settings]

@[simp] theorem State.payGroups_settings (s : State) (a1 : Extent) (a2 : Frame) (a3 : Nat) (a4 : BitVec 64) (a5 :
    LineOut) :
    (@State.payGroups s a1 a2 a3 a4 a5).settings = s.settings := by
  simp [State.payGroups, apply_ite State.settings]

@[simp] theorem mergeLoadLine_settings (x : Extent) (fr : Frame) (m : MergeEntry) (env : ReadEnv) (acc : Gathered)
    (i : Nat) : (mergeLoadLine x fr m env acc i).2.2.settings = acc.2.2.settings := by
  simp [mergeLoadLine]

@[simp] theorem State.mergeLoad_settings (s : State) (a1 : Extent) (a2 : MergeEntry) (a3 : ReadEnv) :
    (@State.mergeLoad s a1 a2 a3).2.settings = s.settings := by
  unfold State.mergeLoad
  split
  · rfl
  · dsimp only
    split
    · simp
    · split
      · simp
      · simp only []
        rw [foldl_settings _ (by simp), foldl_settings3 _ (by simp)]
        simp

@[simp] theorem State.mergeStore_settings (s : State) (a1 : Extent) (a2 : MergeEntry) :
    (@State.mergeStore s a1 a2).settings = s.settings := by
  simp [State.mergeStore, apply_ite State.settings]

@[simp] theorem State.flushEntry_settings (s : State) (a1 : MergeEntry) (a2 : ReadEnv) :
    (@State.flushEntry s a1 a2).settings = s.settings := by
  simp only [State.flushEntry]; (repeat' split) <;> simp_all

@[simp] theorem State.mergeRoom_settings (s : State) (a1 a2 : Nat) (a3 : ReadEnv) :
    (@State.mergeRoom s a1 a2 a3).settings = s.settings := by
  simp only [State.mergeRoom]; (repeat' split) <;> simp_all

@[simp] theorem State.mergeEntry_settings (s : State) (a1 a2 : Nat) (a3 : ReadEnv) :
    (@State.mergeEntry s a1 a2 a3).2.settings = s.settings := by
  unfold State.mergeEntry; (repeat' split) <;> simp

@[simp] theorem State.mergeBytes_settings (s : State) (a1 a2 : Nat) (a3 : BitVec 64) (a4 : Cell) (a5 : ReadEnv) :
    (@State.mergeBytes s a1 a2 a3 a4 a5).settings = s.settings := by
  simp only [State.mergeBytes]; (repeat' split) <;> simp_all

@[simp] theorem State.flushFrame_settings (s : State) (a1 : Nat) (a2 : ReadEnv) :
    (@State.flushFrame s a1 a2).settings = s.settings := by
  simp [State.flushFrame]

@[simp] theorem State.imageRead_settings (s : State) (a1 : Nat) (a2 : Frame) (a3 : ReadEnv) :
    (@State.imageRead s a1 a2 a3).2.settings = s.settings := by
  unfold State.imageRead; refine foldl_settings2 _ ?_ _ _; intros; dsimp only; (repeat' split) <;> simp

@[simp] theorem State.writeBackNow_settings (s : State) (a1 : Nat) (a2 : ReadEnv) :
    (@State.writeBackNow s a1 a2).settings = s.settings := by
  simp only [State.writeBackNow]; (repeat' split) <;> simp_all

@[simp] theorem State.takeFrame_settings (s : State) (a1 a2 : Nat) (a3 : Option (Nat × Nat)) (a4 : ReadEnv) :
    (@State.takeFrame s a1 a2 a3 a4).2.settings = s.settings := by
  simp only [State.takeFrame]; (repeat' split) <;> simp_all

@[simp] theorem State.startFill_settings (s : State) (a1 : Nat) (a2 : Extent) (a3 a4 a5 : Nat) (a6 : ReadEnv) :
    (@State.startFill s a1 a2 a3 a4 a5 a6).2.settings = s.settings := by
  simp only [State.startFill]; (repeat' split) <;> simp_all

@[simp] theorem State.stage_settings (s : State) (a1 : Nat) (a2 : Extent) (a3 a4 : Nat) (a5 : ReadEnv) :
    (@State.stage s a1 a2 a3 a4 a5).2.settings = s.settings := by
  simp only [State.stage]; (repeat' split) <;> simp_all

@[simp] theorem State.fetch_settings (s : State) (a1 : Nat) (a2 : Extent) (a3 a4 : Nat) (a5 : ReadEnv) :
    (@State.fetch s a1 a2 a3 a4 a5).2.settings = s.settings := by
  simp only [State.fetch]; (repeat' split) <;> simp_all

@[simp] theorem State.mergeReady_settings (s : State) (a1 : Extent) (a2 a3 : Nat) (a4 : ReadEnv) :
    (@State.mergeReady s a1 a2 a3 a4).settings = s.settings := by
  simp only [State.mergeReady]; (repeat' split) <;> simp_all

@[simp] theorem State.planeLine_settings (s : State) (a1 : Extent) (a2 a3 : Nat) (a4 : ReadEnv) :
    (@State.planeLine s a1 a2 a3 a4).2.settings = s.settings := by
  simp only [State.planeLine]; (repeat' split) <;> simp_all

@[simp] theorem State.viewFrame_settings (s : State) (a1 : Nat) (a2 : Extent) (a3 a4 a5 a6 : Nat) (a7 : ReadEnv) :
    (@State.viewFrame s a1 a2 a3 a4 a5 a6 a7).2.settings = s.settings := by
  simp only [State.viewFrame]; (repeat' split) <;> simp_all

@[simp] theorem State.afterBad_settings (s : State) (a1 a2 : Nat) (a3 : LineOut) :
    (@State.afterBad s a1 a2 a3).2.settings = s.settings := by
  unfold State.afterBad; (repeat' split) <;> simp

@[simp] theorem State.fxrPart_settings (s : State) (a1 : Nat) (a2 : Extent) (a3 a4 a5 : Nat) (a6 : ReadEnv) :
    (@State.fxrPart s a1 a2 a3 a4 a5 a6).2.2.settings = s.settings := by
  simp only [State.fxrPart]; (repeat' split) <;> simp_all

@[simp] theorem State.readFxr_settings (s : State) (a1 : Nat) (a2 : Extent) (a3 a4 a5 : Nat) (a6 : ReadEnv) :
    (@State.readFxr s a1 a2 a3 a4 a5 a6).2.settings = s.settings := by
  simp only [State.readFxr]; (repeat' split) <;> simp_all

@[simp] theorem State.readExp_settings (s : State) (a1 : Extent) (a2 a3 : Nat) (a4 : ReadEnv) :
    (@State.readExp s a1 a2 a3 a4).2.settings = s.settings := by
  simp only [State.readExp]; (repeat' split) <;> simp_all

@[simp] theorem State.tagFails_settings (s : State) (a1 : Nat) (a2 : ReadEnv) (a3 : Bool) :
    (@State.tagFails s a1 a2 a3).2.settings = s.settings := by
  unfold State.tagFails; (repeat' split) <;> simp

@[simp] theorem State.checkTag_settings (s : State) (a1 : Nat) (a2 : Extent) (a3 a4 a5 : Nat) (a6 : Line) (a7 :
    ReadEnv) :
    (@State.checkTag s a1 a2 a3 a4 a5 a6 a7).2.settings = s.settings := by
  simp only [State.checkTag]; (repeat' split) <;> simp_all

@[simp] theorem State.readLogical_settings (s : State) (a1 : Nat) (a2 : Extent) (a3 a4 a5 : Nat) (a6 : ReadEnv) :
    (@State.readLogical s a1 a2 a3 a4 a5 a6).2.settings = s.settings := by
  simp only [State.readLogical]; (repeat' split) <;> simp_all

@[simp] theorem State.setCopied_settings (s : State) (a1 : Nat) (a2 : List Nat) :
    (@State.setCopied s a1 a2).settings = s.settings := by
  simp [State.setCopied]

@[simp] theorem State.copyCell_settings (s : State) (a1 a2 : Nat) (a3 : Cell) :
    (@State.copyCell s a1 a2 a3).settings = s.settings := by
  simp [State.copyCell]

@[simp] theorem State.moveLine_settings (s : State) (a1 a2 a3 : Nat) (a4 : ReadEnv) :
    (@State.moveLine s a1 a2 a3 a4).settings = s.settings := by
  simp only [State.moveLine]; (repeat' split) <;> simp_all

@[simp] theorem State.copyLine_settings (s : State) (a1 a2 a3 : Nat) (a4 : ReadEnv) :
    (@State.copyLine s a1 a2 a3 a4).settings = s.settings := by
  simp only [State.copyLine]; (repeat' split) <;> simp_all

@[simp] theorem State.copyImage_settings (s : State) (a1 : Image) (a2 : Nat) (a3 a4 : List Nat) :
    (@State.copyImage s a1 a2 a3 a4).settings = s.settings := by
  unfold State.copyImage; refine foldl_settings _ ?_ _ _; intros; dsimp only; (repeat' split) <;> simp

@[simp] theorem State.copyShadow_settings (s : State) (a1 : Nat) (a2 : List Nat) (a3 : ReadEnv) :
    (@State.copyShadow s a1 a2 a3).settings = s.settings := by
  simp only [State.copyShadow]; (repeat' split) <;> simp_all

@[simp] theorem State.newShadow_settings (s : State) (a1 : Nat) (a2 : Extent) (a3 a4 a5 a6 : Nat) (a7 : ReadEnv) :
    (@State.newShadow s a1 a2 a3 a4 a5 a6 a7).2.settings = s.settings := by
  simp only [State.newShadow]; (repeat' split) <;> simp_all

@[simp] theorem State.cloneShadow_settings (s : State) (a1 : Nat) (a2 : Extent) (a3 : Nat) (a4 : ReadEnv) :
    (@State.cloneShadow s a1 a2 a3 a4).2.settings = s.settings := by
  simp only [State.cloneShadow]; (repeat' split) <;> simp_all

@[simp] theorem State.writeFrame_settings (s : State) (a1 : Nat) (a2 : Extent) (a3 a4 a5 a6 : Nat) (a7 : ReadEnv) :
    (@State.writeFrame s a1 a2 a3 a4 a5 a6 a7).2.settings = s.settings := by
  unfold State.writeFrame; (repeat' split) <;> simp

@[simp] theorem State.writeThrough_settings (s : State) (a1 : Nat) (a2 : Extent) (a3 a4 : Nat) (a5 : ReadEnv) :
    (@State.writeThrough s a1 a2 a3 a4 a5).settings = s.settings := by
  simp only [State.writeThrough]; (repeat' split) <;> simp_all

@[simp] theorem State.prepareShadow_settings (s : State) (a1 : Extent) (a2 a3 : Nat) (a4 : ReadEnv) :
    (@State.prepareShadow s a1 a2 a3 a4).settings = s.settings := by
  unfold State.prepareShadow; (repeat' split) <;> simp

@[simp] theorem State.putPlane_settings (s : State) (a1 : Nat) (a2 : Extent) (a3 a4 a5 a6 : Nat) (a7 : BitVec 64) (a8 :
    Line) (a9 : ReadEnv) :
    (@State.putPlane s a1 a2 a3 a4 a5 a6 a7 a8 a9).2.settings = s.settings := by
  simp only [State.putPlane]; (repeat' split) <;> simp_all

@[simp] theorem State.framesFor_settings (s : State) (a1 : Nat) (a2 : Extent) (a3 a4 a5 a6 : Nat) (a7 : ReadEnv) :
    (@State.framesFor s a1 a2 a3 a4 a5 a6 a7).2.settings = s.settings := by
  simp [State.framesFor]

@[simp] theorem State.writeFxr_settings (s : State) (a1 : Nat) (a2 : Extent) (a3 a4 a5 a6 : Nat) (a7 : Put) (a8 :
    ReadEnv) :
    (@State.writeFxr s a1 a2 a3 a4 a5 a6 a7 a8).settings = s.settings := by
  simp [State.writeFxr, apply_ite State.settings]

@[simp] theorem State.writePlain_settings (s : State) (a1 : Nat) (a2 : Extent) (a3 a4 a5 a6 : Nat) (a7 : Put) (a8 :
    ReadEnv) :
    (@State.writePlain s a1 a2 a3 a4 a5 a6 a7 a8).settings = s.settings := by
  simp only [State.writePlain]; (repeat' split) <;> simp_all

@[simp] theorem State.writeLogical_settings (s : State) (a1 : Nat) (a2 : Extent) (a3 a4 a5 a6 : Nat) (a7 : Put) (a8 :
    ReadEnv) :
    (@State.writeLogical s a1 a2 a3 a4 a5 a6 a7 a8).2.settings = s.settings := by
  simp only [State.writeLogical]; (repeat' split) <;> simp_all

/-! ### Tiles -/

@[simp] theorem State.readElems_settings (s : State) (a1 : State → Nat → Read × State) (a2 a3 a4 : Nat) (f : Nat → FV)
    (h1 : ∀ b0 b1, (a1 b0 b1).2.settings = b0.settings) :
    (State.readElems s a1 a2 a3 a4 f).2.settings = s.settings := by
  simp only [State.readElems]
  refine foldl_settings2 _ (fun p a => ?_) _ _
  exact h1 _ _

@[simp] theorem State.readPanel_settings (s : State) (a1 : State → Nat → Read × State) (a2 a3 a4 a5 a6 : Nat)
    (f : Nat → FV) (h1 : ∀ b0 b1, (a1 b0 b1).2.settings = b0.settings) :
    (State.readPanel s a1 a2 a3 a4 a5 a6 f).2.settings = s.settings := by
  simp only [State.readPanel]
  refine foldl_settings2 _ (fun p a => ?_) _ _
  exact State.readElems_settings _ _ _ _ _ _ h1

@[simp] theorem State.opUse_settings (s : State) (a1 a2 a3 a4 a5 : Nat) :
    (@State.opUse s a1 a2 a3 a4 a5).settings = s.settings := by
  simp [State.opUse]

@[simp] theorem State.opRead_settings (s : State) (a1 : Option Nat) (a2 : Nat) (a3 : Extent) (a4 a5 a6 : Nat) (a7 :
    ReadEnv) :
    (@State.opRead s a1 a2 a3 a4 a5 a6 a7).2.settings = s.settings := by
  simp only [State.opRead]; (repeat' split) <;> simp_all

@[simp] theorem State.factorLine_settings (a0 : Option Nat) (a1 a2 : Nat) (a3 : ReadEnv) (s : State) (a5 : Nat) :
    (@State.factorLine a0 a1 a2 a3 s a5).2.settings = s.settings := by
  unfold State.factorLine; (repeat' split) <;> simp

@[simp] theorem State.tileBase_settings (a1 : State → Nat → Read × State) (a2 : Nat) (s : State)
    (h1 : ∀ b0 b1, (a1 b0 b1).2.settings = b0.settings) : (State.tileBase a1 a2 s).2.settings = s.settings :=
  State.readPanel_settings _ _ _ _ _ _ _ _ h1

@[simp] theorem State.synthTile_settings (s : State) (a1 : Option Nat) (a2 : CompDesc) (a3 : Nat)
    (a4 : Nat × Nat × Nat) (a5 : ReadEnv) :
    (State.synthTile s a1 a2 a3 a4 a5).2.settings = s.settings := by
  simp only [State.synthTile]
  split <;> simp

@[simp] theorem State.pinTile_settings (s : State) (a1 : Nat) (a2 : Extent) (a3 : Nat) :
    (@State.pinTile s a1 a2 a3).settings = s.settings := by
  unfold State.pinTile; (repeat' split) <;> simp

@[simp] theorem State.keepTile_settings (s : State) (a1 : Nat) (a2 : Extent) (a3 : Nat) (a4 : Nat × Nat × Nat)
    (a5 : List (Lossy Line)) (a6 : Nat) (a7 : Bool) (a8 : ReadEnv) :
    (State.keepTile s a1 a2 a3 a4 a5 a6 a7 a8).settings = s.settings := by
  have h (s' : State) (hs : s'.settings = s.settings) (q : Option (Nat × Nat)) :
      (s'.takeFrame a2.salt a3 q a8).2.settings = s.settings := by simp [hs]
  unfold State.keepTile
  dsimp only
  split
  · simp
  · split <;> simp
  · split
    · simp
    · simp [apply_ite State.settings]

@[simp] theorem State.releaseTiles_settings (s : State) :
    (@State.releaseTiles s).settings = s.settings := by
  simp [State.releaseTiles]

@[simp] theorem State.release_settings (s : State) (a1 : Nat) :
    (@State.release s a1).settings = s.settings := by
  simp [State.release]

@[simp] theorem State.retagTiles_settings (s : State) (a1 a2 a3 : Nat) (a4 : List Nat) :
    (@State.retagTiles s a1 a2 a3 a4).settings = s.settings := by
  simp [State.retagTiles]

@[simp] theorem State.startJobs_settings (a0 : Bool) (a1 : Nat) (s : State) :
    (@State.startJobs a0 a1 s).settings = s.settings := by
  fun_induction State.startJobs <;> simp_all [apply_ite State.settings]

@[simp] theorem State.orphanMisses_settings (s : State) :
    (@State.orphanMisses s).settings = s.settings := by
  simp [State.orphanMisses, apply_ite State.settings]

@[simp] theorem State.runJobs_settings (s : State) :
    (@State.runJobs s).settings = s.settings := by
  simp [State.runJobs]

@[simp] theorem State.newJob_settings (s : State) (a1 : SynthJob) :
    (@State.newJob s a1).2.settings = s.settings := by
  simp [State.newJob]

@[simp] theorem State.readTile_settings (s : State) (a1 : Option Nat) (a2 : Nat) (a3 : Extent) (a4 : Nat × Nat × Nat) (a5 :
    Nat) (a6 : ReadEnv) :
    (@State.readTile s a1 a2 a3 a4 a5 a6).2.settings = s.settings := by
  simp only [State.readTile]; (repeat' split) <;> simp_all

@[simp] theorem State.wantTiles_settings (s : State) (a1 : Nat) (a2 : Count) (a3 : List (Nat × Nat × Nat × Nat × Nat)) :
    (@State.wantTiles s a1 a2 a3).settings = s.settings := by
  unfold State.wantTiles; refine foldl_settings _ ?_ _ _; intros; dsimp only; (repeat' split) <;> simp

@[simp] theorem State.withTiles_settings (s : State) (a1 : Nat) (a2 : Count) (a3 : State → State)
    (h : ∀ u, (a3 u).settings = u.settings) : (State.withTiles s a1 a2 a3).2.settings = s.settings := by
  unfold State.withTiles; dsimp only; split <;> simp [h]

@[simp] theorem State.readAny_settings (s : State) (a1 a2 : Option Nat) (a3 a4 : Nat) (a5 a6 : List (Nat × Nat)) (a7 : Nat)
    (a8 : ReadEnv) :
    (@State.readAny s a1 a2 a3 a4 a5 a6 a7 a8).2.settings = s.settings := by
  unfold State.readAny; (repeat' split) <;> simp

/-! ### Space -/

@[simp] theorem State.proxyFill_settings (s : State) (a1 : Nat) (a2 : Extent) (a3 a4 a5 : Nat) (a6 : ReadEnv) :
    (@State.proxyFill s a1 a2 a3 a4 a5 a6).2.settings = s.settings := by
  simp only [State.proxyFill]; (repeat' split) <;> simp_all

@[simp] theorem State.closeRemote_settings (s : State) (a1 : Nat) (a2 : Extent) :
    (@State.closeRemote s a1 a2).settings = s.settings := by
  simp [State.closeRemote]

@[simp] theorem State.staleWindows_settings (s : State) (a1 : Extent) (a2 : Option Nat) (a3 : Nat) :
    (@State.staleWindows s a1 a2 a3).settings = s.settings := by
  simp [State.staleWindows, apply_ite State.settings]

@[simp] theorem State.dcdEvent_settings (s : State) (a1 a2 a3 : Nat) :
    (@State.dcdEvent s a1 a2 a3).settings = s.settings := by
  simp only [State.dcdEvent]; (repeat' split) <;> simp_all

@[simp] theorem State.offer_settings (s : State) (a1 a2 a3 a4 : Nat) :
    (@State.offer s a1 a2 a3 a4).settings = s.settings := by
  simp [State.offer]

@[simp] theorem State.takeBack_settings (s : State) (a1 a2 a3 a4 : Nat) :
    (@State.takeBack s a1 a2 a3 a4).settings = s.settings := by
  simp [State.takeBack]

@[simp] theorem State.extentEvent_settings (s : State) (a1 a2 a3 : Nat) (a4 : Extent) :
    (@State.extentEvent s a1 a2 a3 a4).settings = s.settings := by
  simp [State.extentEvent]

@[simp] theorem State.keepView_settings (s : State) (a1 a2 : Nat) (a3 : Extent) :
    (@State.keepView s a1 a2 a3).settings = s.settings := by
  unfold State.keepView; (repeat' split) <;> simp

@[simp] theorem State.endViews_settings (s : State) (a1 : Nat) (a2 : Option Nat) :
    (@State.endViews s a1 a2).settings = s.settings := by
  simp only [State.endViews]; (repeat' split) <;> simp_all

@[simp] theorem State.dropShadows_settings (s : State) (a1 a2 : Nat) :
    (@State.dropShadows s a1 a2).settings = s.settings := by
  simp [State.dropShadows]

@[simp] theorem State.revokeReached_settings (s : State) (a1 : Nat) :
    (@State.revokeReached s a1).settings = s.settings := by
  unfold State.revokeReached; (repeat' split) <;> simp

@[simp] theorem State.passTiles_settings (s : State) (a1 : Nat) (a2 : Extent) (a3 : Nat) :
    (@State.passTiles s a1 a2 a3).settings = s.settings := by
  unfold State.passTiles; (repeat' split) <;> simp

@[simp] theorem State.dropExtent_settings (s : State) (a1 : Nat) :
    (@State.dropExtent s a1).settings = s.settings := by
  simp only [State.dropExtent]; (repeat' split) <;> simp_all

@[simp] theorem State.reap_settings (s : State) :
    (@State.reap s).settings = s.settings := by
  simp [State.reap]

@[simp] theorem State.revokeLost_settings (s : State) (a1 : Nat) :
    (@State.revokeLost s a1).settings = s.settings := by
  unfold State.revokeLost; (repeat' split) <;> simp

@[simp] theorem State.loseLines_settings (s : State) (a1 : Nat) (a2 : List Nat) (a3 a4 : Nat) :
    (@State.loseLines s a1 a2 a3 a4).settings = s.settings := by
  unfold State.loseLines; (repeat' split) <;> simp

@[simp] theorem State.moveWaits_settings (s : State) (a1 a2 : Nat) :
    (@State.moveWaits s a1 a2).settings = s.settings := by
  simp [State.moveWaits]

@[simp] theorem State.vacate_settings (s : State) (a1 : Nat) :
    (@State.vacate s a1).settings = s.settings := by
  simp only [State.vacate]; (repeat' split) <;> simp_all

@[simp] theorem State.takeFrames_settings (s : State) (a1 a2 : Nat) :
    (@State.takeFrames s a1 a2).settings = s.settings := by
  simp [State.takeFrames]

@[simp] theorem State.retireChannel_settings (s : State) (a1 a2 : Nat) :
    (@State.retireChannel s a1 a2).settings = s.settings := by
  simp [State.retireChannel, apply_ite State.settings]

@[simp] theorem State.recordChannel_settings (s : State) (a1 : Nat) :
    (@State.recordChannel s a1).settings = s.settings := by
  simp [State.recordChannel]

@[simp] theorem State.channelLost_settings (s : State) (a1 : Nat) :
    (@State.channelLost s a1).settings = s.settings := by
  simp [State.channelLost, apply_ite State.settings]

@[simp] theorem State.testEvacuating_settings (s : State) (a1 : List (Nat × Nat)) :
    (@State.testEvacuating s a1).settings = s.settings := by
  simp [State.testEvacuating, apply_ite State.settings]

@[simp] theorem State.sramCount_settings (s : State) (a1 : ParityFault) :
    (@State.sramCount s a1).settings = s.settings := by
  simp [State.sramCount, apply_ite State.settings]

@[simp] theorem State.parityMark_settings (s : State) (a1 a2 : Nat) :
    (@State.parityMark s a1 a2).settings = s.settings := by
  unfold State.parityMark; (repeat' split) <;> simp

@[simp] theorem State.parityMerge_settings (s : State) (a1 a2 : Nat) (a3 : ReadEnv) :
    (@State.parityMerge s a1 a2 a3).settings = s.settings := by
  unfold State.parityMerge; repeat' first
    | (simp [apply_ite State.settings]; done)
    | (simp_all [apply_ite State.settings]; done)
    | split
    | refine (foldl_settings _ (fun _ _ => ?_) _ _).trans ?_
    | refine (foldl_settings2 _ (fun _ _ => ?_) _ _).trans ?_
    | refine (foldl_settings3 _ (fun _ _ => ?_) _ _).trans ?_
    | refine (foldl_settings4 _ (fun _ _ => ?_) _ _).trans ?_
    | (simp only [apply_ite State.settings]) | simp

@[simp] theorem State.faultAllot_settings (s : State) (a1 : Nat) :
    (@State.faultAllot s a1).settings = s.settings := by
  simp [State.faultAllot]

@[simp] theorem State.reloadSlot_settings (s : State) (a1 : Nat) :
    (@State.reloadSlot s a1).settings = s.settings := by
  unfold State.reloadSlot; (repeat' split) <;> simp

@[simp] theorem State.dropCheck_settings (s : State) (a1 : Nat) :
    (@State.dropCheck s a1).settings = s.settings := by
  simp [State.dropCheck]

@[simp] theorem State.parityFault_settings (s : State) (a1 : ParityFault) (a2 : ReadEnv) :
    (@State.parityFault s a1 a2).settings = s.settings := by
  simp only [State.parityFault]; (repeat' split) <;> simp_all

@[simp] theorem State.meetEnv_settings (s : State) (a1 : Count) (a2 : ReadEnv) :
    (@State.meetEnv s a1 a2).settings = (s.start a1).settings := by
  simp [State.meetEnv]

end Sys2Proof.Machine
end

