-- ==== Sys2Proof/Laws/Requests.lean ====
section
/-! SUPPORT. Frame lemmas of host requests and the end of commands: none changes a setting. -/

namespace Sys2Proof.Machine

open Sys2Proof

/-! ### HostPath -/

@[simp] theorem State.countLoad_settings (s : State) (a1 : HostReq) :
    (@State.countLoad s a1).settings = s.settings := by
  simp [State.countLoad, apply_ite State.settings]

@[simp] theorem State.respond_settings (s : State) (a1 : HostReq) (a2 : Out) :
    (@State.respond s a1 a2).settings = s.settings := by
  simp [State.respond]

@[simp] theorem State.readDone_settings (s : State) (a1 : HostReq) (a2 : Bool) (a3 : Line) :
    (@State.readDone s a1 a2 a3).settings = s.settings := by
  simp [State.readDone]

@[simp] theorem State.writeDone_settings (s : State) (a1 : HostReq) :
    (@State.writeDone s a1).settings = s.settings := by
  simp [State.writeDone]

@[simp] theorem State.failReq_settings (s : State) (a1 : HostReq) (a2 : Nat) (a3 a4 : Bool) :
    (@State.failReq s a1 a2 a3 a4).settings = s.settings := by
  simp [State.failReq, apply_ite State.settings]

@[simp] theorem State.waitFor_settings (s : State) (a1 : HostReq) (a2 : Wait) (a3 : Nat) :
    (@State.waitFor s a1 a2 a3).settings = s.settings := by
  simp [State.waitFor]

@[simp] theorem State.backInvalidate_settings (s : State) (a1 a2 a3 : Nat) :
    (@State.backInvalidate s a1 a2 a3).settings = s.settings := by
  simp [State.backInvalidate, apply_ite State.settings]

@[simp] theorem State.track_settings (s : State) (a1 a2 : Nat) :
    (@State.track s a1 a2).settings = s.settings := by
  simp [State.track]

@[simp] theorem State.fillAhead_settings (s : State) (a1 : Nat) (a2 : Extent) (a3 a4 : Nat) (a5 : ReadEnv) :
    (@State.fillAhead s a1 a2 a3 a4 a5).settings = s.settings := by
  unfold State.fillAhead; refine foldl_settings _ ?_ _ _; intros; dsimp only; (repeat' split) <;> simp

@[simp] theorem State.readReady_settings (s : State) (a1 : HostReq) (a2 : Extent) (a3 : Nat) (a4 : ReadEnv) :
    (@State.readReady s a1 a2 a3 a4).2.settings = s.settings := by
  simp only [State.readReady]; (repeat' split) <;> simp_all

@[simp] theorem State.finishRead_settings (s : State) (a1 : HostReq) (a2 : Read) (a3 : ReadEnv) :
    (@State.finishRead s a1 a2 a3).settings = s.settings := by
  unfold State.finishRead; (repeat' split) <;> simp

@[simp] theorem State.countMissWait_settings (s : State) :
    (@State.countMissWait s).settings = s.settings := by
  simp [State.countMissWait]

@[simp] theorem State.booked_settings (s : State) (a1 : Option (List (Nat × Option Reservation × Count))) :
    (@State.booked s a1).2.settings = s.settings := by
  unfold State.booked; (repeat' split) <;> simp

@[simp] theorem State.bookTile_settings (s : State) (a1 : HostReq) (a2 : Extent) :
    (@State.bookTile s a1 a2).2.settings = s.settings := by
  simp [State.bookTile]

@[simp] theorem State.tileAhead_settings (s : State) (a1 : HostReq) (a2 : Extent) (a3 : Nat × Nat × Nat) (a4 : Bool) (a5
    : Nat) :
    (@State.tileAhead s a1 a2 a3 a4 a5).settings = s.settings := by
  unfold State.tileAhead; (repeat' split) <;> simp

@[simp] theorem State.missTile_settings (s : State) (a1 : HostReq) (a2 : Extent) (a3 : Nat) (a4 : Nat × Nat × Nat) :
    (@State.missTile s a1 a2 a3 a4).settings = s.settings := by
  simp only [State.missTile]; (repeat' split) <;> simp_all

@[simp] theorem State.serveTile_settings (s : State) (a1 : HostReq) (a2 : Extent) (a3 : ReadEnv) :
    (@State.serveTile s a1 a2 a3).settings = s.settings := by
  simp only [State.serveTile]; (repeat' split) <;> simp_all

@[simp] theorem State.waitFilter_settings (s : State) (a1 : HostReq) :
    (@State.waitFilter s a1).settings = s.settings := by
  simp only [State.waitFilter]; (repeat' split) <;> simp_all

@[simp] theorem State.serveRead_settings (s : State) (a1 : HostReq) (a2 : Extent) (a3 : ReadEnv) :
    (@State.serveRead s a1 a2 a3).settings = s.settings := by
  simp only [State.serveRead]; (repeat' split) <;> simp_all

@[simp] theorem State.mirrorLine_settings (s : State) (a1 a2 a3 a4 : Nat) (a5 : Bool) (a6 : Line) :
    (@State.mirrorLine s a1 a2 a3 a4 a5 a6).settings = s.settings := by
  simp [State.mirrorLine]

@[simp] theorem State.performStore_settings (s : State) (a1 : HostReq) (a2 : Extent) (a3 : ReadEnv) :
    (@State.performStore s a1 a2 a3).2.settings = s.settings := by
  simp only [State.performStore]; (repeat' split) <;> simp_all

@[simp] theorem State.spoil_settings (s : State) (a1 a2 : Nat) :
    (@State.spoil s a1 a2).settings = s.settings := by
  simp [State.spoil]

@[simp] theorem State.storeFails_settings (s : State) (a1 : HostReq) (a2 : Extent) :
    (@State.storeFails s a1 a2).settings = s.settings := by
  unfold State.storeFails; (repeat' split) <;> simp

@[simp] theorem State.storeEnds_settings (s : State) (a1 : HostReq) (a2 : Extent) (a3 : Bool) :
    (@State.storeEnds s a1 a2 a3).settings = s.settings := by
  simp [State.storeEnds, apply_ite State.settings]

@[simp] theorem State.serveWrite_settings (s : State) (a1 : HostReq) (a2 : Extent) (a3 : ReadEnv) :
    (@State.serveWrite s a1 a2 a3).settings = s.settings := by
  simp only [State.serveWrite]; (repeat' split) <;> simp_all

@[simp] theorem State.holdBack_settings (s : State) (a1 : HostReq) (a2 : Extent) :
    (@State.holdBack s a1 a2).settings = s.settings := by
  simp [State.holdBack, apply_ite State.settings]

@[simp] theorem State.serve_settings (s : State) (a1 : HostReq) (a2 : ReadEnv) :
    (@State.serve s a1 a2).settings = s.settings := by
  simp only [State.serve]; (repeat' split) <;> simp_all

@[simp] theorem State.orderDrain_settings (a0 : ReadEnv) (a1 : Nat) (s : State) :
    (State.orderDrain a0 a1 s).settings = s.settings := by
  induction a1 generalizing s with
  | zero => rfl
  | succ k ih => unfold State.orderDrain; dsimp only; split <;> simp [ih]

@[simp] theorem State.drainOrder_settings (s : State) (a1 : ReadEnv) :
    (@State.drainOrder s a1).settings = s.settings := by
  simp [State.drainOrder]

@[simp] theorem State.wake_settings (s : State) (a1 : Wait) (a2 : Nat) (a3 : ReadEnv) :
    (@State.wake s a1 a2 a3).settings = s.settings := by
  simp [State.wake]

@[simp] theorem State.backPressure_settings (s : State) (a1 : HostReq) :
    (@State.backPressure s a1).settings = s.settings := by
  simp [State.backPressure]

@[simp] theorem State.decide3_settings (s : State) (a1 : HostReq) (a2 : Extent) (a3 : ReadEnv) :
    (@State.decide3 s a1 a2 a3).settings = s.settings := by
  simp [State.decide3, apply_ite State.settings]

@[simp] theorem State.stage3_settings (s : State) (a1 : HostReq) (a2 : Extent) (a3 : ReadEnv) :
    (@State.stage3 s a1 a2 a3).settings = s.settings := by
  simp [State.stage3, apply_ite State.settings]

@[simp] theorem State.tie_settings (s : State) (a1 : Tie) :
    (@State.tie s a1).settings = s.settings := by
  simp [State.tie]

@[simp] theorem State.arrive_settings (s : State) (a1 : HostReq) (a2 : Extent) (a3 : ReadEnv) :
    (@State.arrive s a1 a2 a3).settings = s.settings := by
  simp [State.arrive, apply_ite State.settings]

@[simp] theorem State.releaseHosts_settings (a0 : Nat) (s : State) :
    (State.releaseHosts a0 s).settings = s.settings := by
  induction a0 generalizing s with
  | zero => rfl
  | succ k ih =>
    unfold State.releaseHosts
    split
    · split
      · rfl
      · rw [ih]; split <;> simp
    · rfl

@[simp] theorem State.startEnv_settings (s : State) (a1 : Count) (a2 : ReadEnv) :
    (@State.startEnv s a1 a2).settings = (s.start a1).settings := by
  simp [State.startEnv]

theorem State.drainOrder_unheld (s : State) (env : ReadEnv) (h : ∀ r ∈ s.waiting, r.wait ≠ Wait.order) :
    s.drainOrder env = s := by
  unfold State.drainOrder
  cases hk : s.waiting.length with
  | zero => rfl
  | succ k =>
    have hf : (s.waiting.filter fun (r : HostReq) => r.wait == Wait.order && !(s.blocked r)) = [] := by
      rw [List.filter_eq_nil_iff]
      intro r hr
      simp [h r hr]
    unfold State.orderDrain
    simp [hf, State.nextReqOf]

theorem State.meetEnv_quiet (s : State) (t : Count) (env : ReadEnv) (h : quietEnv env) : s.meetEnv t env = s.start t := by
  obtain ⟨h1, h2, h3⟩ := h
  simp [State.meetEnv, State.linkCheck, State.testEvacuating, h1, h2, h3]

/-- A command that meets no error, while no request is held back, begins as any other. -/
theorem State.startEnv_quiet (s : State) (t : Count) (env : ReadEnv) (h : quietEnv env) (u : s.unheld) :
    s.startEnv t env = s.start t := by
  have hw : (s.start t).waiting = s.waiting := by simp only [State.start, State.advance]; split <;> rfl
  have ht : (s.start t).ties = s.ties := by simp only [State.start, State.advance]; split <;> rfl
  unfold State.startEnv
  rw [State.meetEnv_quiet s t env h]
  simp only [ht, u.1, List.length_nil]
  unfold State.releaseHosts
  exact State.drainOrder_unheld _ _ (by rw [hw]; exact u.2)

@[simp] theorem State.newReq_settings (s : State) :
    (@State.newReq s).2.settings = s.settings := by
  simp [State.newReq]

@[simp] theorem State.enter_settings (s : State) (a1 : HostReq) (a2 : Nat) (a3 : Extent → Nat) (a4 : ReadEnv) :
    (@State.enter s a1 a2 a3 a4).settings = s.settings := by
  simp only [State.enter]; (repeat' split) <;> simp_all

@[simp] theorem State.cxlMem_settings (s : State) (a1 a2 : Nat) (a3 : Nat → Nat → HostReq) (a4 : ReadEnv) :
    (@State.cxlMem s a1 a2 a3 a4).settings = s.settings := by
  simp only [State.cxlMem]; (repeat' split) <;> simp_all

@[simp] theorem State.partialWrite_settings (s : State) (a1 : HostReq) :
    (@State.partialWrite s a1).settings = s.settings := by
  simp [State.partialWrite]

@[simp] theorem State.peerLine_settings (s : State) (a1 a2 a3 a4 : Nat) (a5 : BitVec 16) (a6 : Count) (a7 : Line)
    (a8 : Bool) (a9 : ReadEnv) :
    (@State.peerLine s a1 a2 a3 a4 a5 a6 a7 a8 a9).settings = s.settings := by
  simp only [State.peerLine]; (repeat' split) <;> simp_all

@[simp] theorem State.gateDrain_settings (a0 : ReadEnv) (a1 a2 : Nat) (s : State) :
    (State.gateDrain a0 a1 a2 s).settings = s.settings := by
  induction a2 generalizing s with
  | zero => rfl
  | succ k ih =>
    unfold State.gateDrain
    dsimp only
    split
    · rfl
    · rw [ih]; split <;> simp

@[simp] theorem State.meterDrain_settings (a0 : ReadEnv) (a1 : Nat) (s : State) :
    (@State.meterDrain a0 a1 s).settings = s.settings := by
  induction a1 generalizing s a0 <;> simp only [State.meterDrain] <;> repeat' first
    | (simp [apply_ite State.settings]; done)
    | (simp_all [apply_ite State.settings]; done)
    | split
    | refine (foldl_settings _ (fun _ _ => ?_) _ _).trans ?_
    | refine (foldl_settings2 _ (fun _ _ => ?_) _ _).trans ?_
    | refine (foldl_settings3 _ (fun _ _ => ?_) _ _).trans ?_
    | refine (foldl_settings4 _ (fun _ _ => ?_) _ _).trans ?_
    | (simp only [apply_ite State.settings]) | simp

/-! ### Commands -/

@[simp] theorem State.cmdReadOn_settings (s : State) (a1 : Cmd) (a2 : Option Nat) (a3 : Nat) (a4 : ReadEnv) :
    (@State.cmdReadOn s a1 a2 a3 a4).2.settings = s.settings := by
  simp only [State.cmdReadOn]; (repeat' split) <;> simp_all

@[simp] theorem State.cmdRead_settings (s : State) (a1 : Cmd) (a2 : Nat) (a3 : ReadEnv) :
    (@State.cmdRead s a1 a2 a3).2.settings = s.settings := by
  simp only [State.cmdRead]; (repeat' split) <;> simp_all

@[simp] theorem State.wipeFrame_settings (s : State) (a1 : Nat) :
    (@State.wipeFrame s a1).settings = s.settings := by
  simp [State.wipeFrame]

@[simp] theorem State.farWrite_settings (s : State) (a1 : Cmd) (a2 : Nat) (a3 : Extent) (a4 : Nat) (a5 : Put) :
    (@State.farWrite s a1 a2 a3 a4 a5).settings = s.settings := by
  simp [State.farWrite]

@[simp] theorem State.cmdWrite_settings (s : State) (a1 : Cmd) (a2 : Nat) (a3 : Put) (a4 : ReadEnv) :
    (@State.cmdWrite s a1 a2 a3 a4).settings = s.settings := by
  simp only [State.cmdWrite]; (repeat' split) <;> simp_all

@[simp] theorem State.proxyWait_settings (s : State) (a1 : Cmd) (a2 : ReadEnv) :
    (@State.proxyWait s a1 a2).2.settings = s.settings := by
  unfold State.proxyWait; repeat' first
    | (simp [apply_ite State.settings]; done)
    | (simp_all [apply_ite State.settings]; done)
    | split
    | refine (foldl_settings _ (fun _ _ => ?_) _ _).trans ?_
    | refine (foldl_settings2 _ (fun _ _ => ?_) _ _).trans ?_
    | refine (foldl_settings3 _ (fun _ _ => ?_) _ _).trans ?_
    | refine (foldl_settings4 _ (fun _ _ => ?_) _ _).trans ?_
    | (simp only [apply_ite State.settings]) | simp

@[simp] theorem State.releaseCmd_settings (s : State) (a1 : Cmd) :
    (@State.releaseCmd s a1).settings = s.settings := by
  simp [State.releaseCmd, apply_ite State.settings]

@[simp] theorem State.finishOne_settings (s : State) (a1 a2 : Nat) (a3 : Bool) (a4 : BitVec 96) :
    (@State.finishOne s a1 a2 a3 a4).settings = s.settings := by
  simp only [State.finishOne]; (repeat' split) <;> simp_all

@[simp] theorem State.fences_settings (a0 : Nat) (s : State) :
    (@State.fences a0 s).settings = s.settings := by
  induction a0 generalizing s  <;> simp only [State.fences] <;> repeat' first
    | (simp [apply_ite State.settings]; done)
    | (simp_all [apply_ite State.settings]; done)
    | split
    | refine (foldl_settings _ (fun _ _ => ?_) _ _).trans ?_
    | refine (foldl_settings2 _ (fun _ _ => ?_) _ _).trans ?_
    | refine (foldl_settings3 _ (fun _ _ => ?_) _ _).trans ?_
    | refine (foldl_settings4 _ (fun _ _ => ?_) _ _).trans ?_
    | (simp only [apply_ite State.settings]) | simp

@[simp] theorem State.finishCmd_settings (s : State) (a1 a2 : Nat) (a3 : Bool) (a4 : BitVec 96) :
    (@State.finishCmd s a1 a2 a3 a4).settings = s.settings := by
  simp [State.finishCmd]

@[simp] theorem State.masterOff_settings (s : State) (a1 : Nat) :
    (@State.masterOff s a1).settings = s.settings := by
  unfold State.masterOff; (repeat' split) <;> simp

end Sys2Proof.Machine
end

