-- ==== Sys2Proof/Laws/Engines.lean ====
section
/-! SUPPORT. Frame lemmas of the engines and cores: none changes a setting. -/

namespace Sys2Proof.Machine

open Sys2Proof

/-! ### Sprig -/

@[simp] theorem State.preRead_settings (s : State) (a1 : Ask) (a2 a3 : Nat) (a4 : ReadEnv) :
    (@State.preRead s a1 a2 a3 a4).2.settings = s.settings := by
  simp only [State.preRead]; repeat' first
    | (simp [apply_ite State.settings]; done)
    | (simp_all [apply_ite State.settings]; done)
    | split
    | refine (foldl_settings _ (fun _ _ => ?_) _ _).trans ?_
    | refine (foldl_settings2 _ (fun _ _ => ?_) _ _).trans ?_
    | refine (foldl_settings3 _ (fun _ _ => ?_) _ _).trans ?_
    | refine (foldl_settings4 _ (fun _ _ => ?_) _ _).trans ?_
    | (simp only [apply_ite State.settings]) | simp

@[simp] theorem State.checkMem_settings (s : State) (a1 : Ask) (a2 : ReadEnv) :
    (@State.checkMem s a1 a2).2.settings = s.settings := by
  simp [State.checkMem]

@[simp] theorem State.checkRecipe_settings (s : State) (a1 : Ask) (a2 : ReadEnv) :
    (@State.checkRecipe s a1 a2).2.settings = s.settings := by
  simp only [State.checkRecipe]; (repeat' split) <;> simp_all

@[simp] theorem State.checkReduce_settings (s : State) (a1 : Ask) (a2 : ReadEnv) :
    (@State.checkReduce s a1 a2).2.settings = s.settings := by
  simp only [State.checkReduce]; (repeat' split) <;> simp_all

@[simp] theorem State.checkRows_settings (s : State) (a1 : Ask) (a2 : ReadEnv) :
    (@State.checkRows s a1 a2).2.settings = s.settings := by
  simp [State.checkRows]

@[simp] theorem State.readRun_settings (s : State) (a1 : Cmd) (a2 a3 a4 : Nat) (a5 : ReadEnv) :
    (@State.readRun s a1 a2 a3 a4 a5).2.2.2.settings = s.settings := by
  simp [State.readRun]

@[simp] theorem State.writeRun_settings (s : State) (a1 : Cmd) (a2 a3 : Nat) (a4 : List (Option Nat)) (a5 :
    ReadEnv) :
    (@State.writeRun s a1 a2 a3 a4 a5).settings = s.settings := by
  simp [State.writeRun]

@[simp] theorem State.noteMet_settings (s : State) (a1 : Nat) (a2 a3 a4 : Bool) :
    (@State.noteMet s a1 a2 a3 a4).settings = s.settings := by
  simp [State.noteMet]

@[simp] theorem State.arrival_settings (s : State) (a1 : Bool) (a2 : Nat) :
    (@State.arrival s a1 a2).2.settings = s.settings := by
  simp only [State.arrival]; (repeat' split) <;> simp_all

@[simp] theorem State.readRuns_settings (s : State) (a1 : Cmd) (a2 : List Nat) (a3 a4 : Nat) (a5 : ReadEnv) :
    (@State.readRuns s a1 a2 a3 a4 a5).2.2.2.settings = s.settings := by
  simp [State.readRuns]

@[simp] theorem State.sheafOutput_settings (s : State) (a1 : Cmd) (a2 : Nat) (a3 : List (Sparse (Option (Bool ×
    Nat)))) (a4 : Option Stream) (a5 : Nat) (a6 : ReadEnv) :
    (@State.sheafOutput s a1 a2 a3 a4 a5 a6).settings = s.settings := by
  unfold State.sheafOutput; (repeat' split) <;> simp

@[simp] theorem State.doSheaf_settings (s : State) (c : Cmd) (h : Nat) (env : ReadEnv) :
    (s.doSheaf c h env).settings = s.settings := by
  have hi (n : Nat) (acc : List (List InElem) × Bool × Bool × State) (v : Option Stream) :
      (sheafInput c h n env acc v).2.2.2.settings = acc.2.2.2.settings := by
    unfold sheafInput; split <;> simp
  unfold State.doSheaf
  simp only []
  split
  · rfl
  · simp [hi]

@[simp] theorem State.doReduce_settings (s : State) (a1 : Cmd) (a2 : Nat) (a3 : ReadEnv) :
    (@State.doReduce s a1 a2 a3).settings = s.settings := by
  simp only [State.doReduce]; (repeat' split) <;> simp_all

@[simp] theorem State.readIndices_settings (s : State) (a1 : Cmd) (a2 a3 a4 : Nat) (a5 : ReadEnv) :
    (@State.readIndices s a1 a2 a3 a4 a5).2.2.2.settings = s.settings := by
  simp [State.readIndices]

@[simp] theorem State.noteRange_settings (s : State) (a1 a2 : Nat) :
    (@State.noteRange s a1 a2).settings = s.settings := by
  simp [State.noteRange]

@[simp] theorem State.doGather_settings (s : State) (a1 : Cmd) (a2 : Nat) (a3 : ReadEnv) :
    (@State.doGather s a1 a2 a3).settings = s.settings := by
  simp only [State.doGather]; (repeat' split) <;> simp_all

@[simp] theorem State.scatterSource_settings (s : State) (a1 : Cmd) (a2 : Nat) (a3 : ReadEnv) :
    (@State.scatterSource s a1 a2 a3).settings = s.settings := by
  simp only [State.scatterSource]; (repeat' split) <;> simp_all

@[simp] theorem State.scatterTarget_settings (s : State) (a1 : Cmd) (a2 : Nat) (a3 : ReadEnv) :
    (@State.scatterTarget s a1 a2 a3).settings = s.settings := by
  simp [State.scatterTarget]

@[simp] theorem State.doSprig_settings (s : State) (a1 a2 : Nat) (a3 : ReadEnv) :
    (@State.doSprig s a1 a2 a3).settings = s.settings := by
  unfold State.doSprig; (repeat' split) <;> simp

@[simp] theorem State.endSprig_settings (s : State) (a1 : Cmd) :
    (@State.endSprig s a1).settings = s.settings := by
  unfold State.endSprig; (repeat' split) <;> simp

@[simp] theorem State.retireCore_settings (s : State) (a1 : Nat) :
    (@State.retireCore s a1).settings = s.settings := by
  simp [State.retireCore, apply_ite State.settings]

@[simp] theorem State.coreError_settings (s : State) (a1 : Nat) :
    (@State.coreError s a1).settings = s.settings := by
  simp [State.coreError, apply_ite State.settings]

@[simp] theorem State.runBatch_settings (s : State) (a1 : Cmd) (a2 : Nat) (a3 : ReadEnv) :
    (@State.runBatch s a1 a2 a3).settings = s.settings := by
  simp [State.runBatch, apply_ite State.settings]

/-! ### Matrix -/

@[simp] theorem State.checkMatmul_settings (s : State) (a1 : Ask) (a2 : ReadEnv) :
    (@State.checkMatmul s a1 a2).2.settings = s.settings := by
  simp [State.checkMatmul]

@[simp] theorem State.count_settings (s : State) (a1 a2 : Nat) :
    (@State.count s a1 a2).settings = s.settings := by
  simp [State.count]

@[simp] theorem State.countJob_settings (s : State) (a1 : Nat) :
    (@State.countJob s a1).settings = s.settings := by
  simp [State.countJob]

@[simp] theorem State.doTile_settings (s : State) (a1 : Cmd) (a2 : Nat) (a3 : Option Nat) (a4 : ReadEnv) :
    (@State.doTile s a1 a2 a3 a4).settings = s.settings := by
  simp only [State.doTile]; (repeat' split) <;> simp_all

@[simp] theorem State.checkSynth_settings (s : State) (a1 : Ask) (a2 : ReadEnv) :
    (@State.checkSynth s a1 a2).2.settings = s.settings := by
  simp [State.checkSynth]

@[simp] theorem State.poisonTile_settings (s : State) (a1 a2 : Nat) (a3 : Bool) :
    (@State.poisonTile s a1 a2 a3).settings = s.settings := by
  simp [State.poisonTile]

@[simp] theorem State.tileDone_settings (s : State) (a1 a2 a3 : Nat) :
    (@State.tileDone s a1 a2 a3).settings = s.settings := by
  simp [State.tileDone]

@[simp] theorem State.startTiles_settings (s : State) (a1 : Cmd) (a2 a3 : Nat) (a4 : Bool) :
    (@State.startTiles s a1 a2 a3 a4).settings = s.settings := by
  unfold State.startTiles; repeat' first
    | (simp [apply_ite State.settings]; done)
    | (simp_all [apply_ite State.settings]; done)
    | split
    | refine (foldl_settings _ (fun _ _ => ?_) _ _).trans ?_
    | refine (foldl_settings2 _ (fun _ _ => ?_) _ _).trans ?_
    | refine (foldl_settings3 _ (fun _ _ => ?_) _ _).trans ?_
    | refine (foldl_settings4 _ (fun _ _ => ?_) _ _).trans ?_
    | (simp only [apply_ite State.settings]) | simp

@[simp] theorem State.giveTile_settings (s : State) (a1 : List (Lossy Line)) (a2 : Nat) (a3 : HostReq) (a4 : ReadEnv) :
    (@State.giveTile s a1 a2 a3 a4).settings = s.settings := by
  simp [State.giveTile]

@[simp] theorem State.tileFor_settings (s : State) (a1 a2 : Nat) (a3 : List (Lossy Line)) (a4 a5 : Bool) :
    (@State.tileFor s a1 a2 a3 a4 a5).settings = s.settings := by
  simp only [State.tileFor]; (repeat' split) <;> simp_all

@[simp] theorem State.finishJob_settings (s : State) (a1 : Nat) (a2 : ReadEnv) :
    (@State.finishJob s a1 a2).settings = s.settings := by
  simp only [State.finishJob]; (repeat' split) <;> simp_all

@[simp] theorem State.runTiles_settings (a0 : Nat) (a1 : ReadEnv) (a2 : Nat) (s : State) :
    (State.runTiles a0 a1 a2 s).settings = s.settings := by
  induction a2 generalizing s with
  | zero => rfl
  | succ k ih => unfold State.runTiles; split <;> simp [ih]; split <;> simp

@[simp] theorem State.endMatrix_settings (s : State) (a1 : Cmd) :
    (@State.endMatrix s a1).settings = s.settings := by
  simp [State.endMatrix, apply_ite State.settings]

@[simp] theorem State.dropJobs_settings (s : State) :
    (@State.dropJobs s).settings = s.settings := by
  simp [State.dropJobs]

@[simp] theorem State.retireEngine_settings (s : State) (a1 : Nat) :
    (@State.retireEngine s a1).settings = s.settings := by
  simp [State.retireEngine, apply_ite State.settings]

@[simp] theorem State.engineError_settings (s : State) (a1 : Nat) (a2 : Bool) :
    (State.engineError s a1 a2).settings = s.settings := by
  simp [State.engineError, apply_ite State.settings]

@[simp] theorem State.restartJob_settings (s : State) (a1 a2 : Nat) :
    (@State.restartJob s a1 a2).settings = s.settings := by
  simp [State.restartJob]

@[simp] theorem State.tileEngine_settings (a0 a1 : Nat) (a2 : List Nat) (a3 : Bool) (s : State) :
    (State.tileEngine a0 a1 a2 a3 s).2.2.settings = s.settings := by
  induction a0 generalizing s a1 a2 a3 with
  | zero => rfl
  | succ k ih =>
    unfold State.tileEngine
    dsimp only
    split
    · rfl
    · split <;> simp [ih]

@[simp] theorem State.doTiles_settings (s : State) (a1 : Cmd) (a2 : ReadEnv) :
    (@State.doTiles s a1 a2).settings = s.settings := by
  simp [State.doTiles, apply_ite State.settings]

/-! ### Tier -/

@[simp] theorem State.checkTier_settings (s : State) (a1 : Ask) (a2 : ReadEnv) :
    (@State.checkTier s a1 a2).2.settings = s.settings := by
  simp [State.checkTier]

@[simp] theorem State.changed_settings (s : State) (a1 : Nat) :
    (@State.changed s a1).settings = s.settings := by
  simp [State.changed]

@[simp] theorem State.fillPage_settings (s : State) (a1 a2 : Nat) (a3 : Extent) (a4 a5 a6 : Nat) (a7 : Bool) (a8 :
    ReadEnv) :
    (@State.fillPage s a1 a2 a3 a4 a5 a6 a7 a8).settings = s.settings := by
  simp only [State.fillPage]; (repeat' split) <;> simp_all

@[simp] theorem State.tierPage_settings (s : State) (a1 : Cmd) (a2 : Nat) (a3 : Extent) (a4 : Nat) (a5 : ReadEnv) :
    (@State.tierPage s a1 a2 a3 a4 a5).settings = s.settings := by
  simp only [State.tierPage]; (repeat' split) <;> simp_all

@[simp] theorem State.tierTile_settings (s : State) (a1 : Cmd) (a2 : Nat) (a3 : Extent) (a4 : Nat) :
    (@State.tierTile s a1 a2 a3 a4).settings = s.settings := by
  simp only [State.tierTile]; (repeat' split) <;> simp_all

@[simp] theorem State.endTier_settings (s : State) (a1 : Cmd) :
    (@State.endTier s a1).settings = s.settings := by
  simp [State.endTier]

@[simp] theorem State.beginTier_settings (s : State) (a1 : Cmd) (a2 : ReadEnv) :
    (@State.beginTier s a1 a2).settings = s.settings := by
  simp only [State.beginTier]; (repeat' split) <;> simp_all

@[simp] theorem State.doTier_settings (s : State) (a1 : Cmd) (a2 : ReadEnv) :
    (@State.doTier s a1 a2).settings = s.settings := by
  simp only [State.doTier]; (repeat' split) <;> simp_all

end Sys2Proof.Machine
end

