-- ==== Sys2Proof/Laws/Extents.lean ====
section
/-! SUPPORT. Frame lemmas of extents, versions, fills and snapshots: none changes a setting. -/

namespace Sys2Proof.Machine

open Sys2Proof

/-! ### Extents -/

@[simp] theorem State.checkGrant_settings (s : State) (a1 : Ask) (a2 : ReadEnv) :
    (@State.checkGrant s a1 a2).2.settings = s.settings := by
  simp [State.checkGrant]

@[simp] theorem State.pinPages_settings (s : State) (a1 : Nat) (a2 : Extent) (a3 : ReadEnv) :
    (State.pinPages s a1 a2 a3).settings = s.settings := by
  unfold State.pinPages
  split
  · rfl
  · refine foldl_settings _ (fun s p => ?_) _ _
    dsimp only
    split
    · rfl
    · split <;> simp

@[simp] theorem State.newExtent_settings (s : State) (a1 : Cmd) :
    (@State.newExtent s a1).2.2.settings = s.settings := by
  simp [State.newExtent]

@[simp] theorem State.beginGrant_settings (s : State) (a1 : Cmd) (a2 : ReadEnv) :
    (@State.beginGrant s a1 a2).settings = s.settings := by
  simp only [State.beginGrant]; (repeat' split) <;> simp_all

@[simp] theorem State.checkRevoke_settings (s : State) (a1 : Ask) (a2 : ReadEnv) :
    (@State.checkRevoke s a1 a2).2.settings = s.settings := by
  simp [State.checkRevoke]

@[simp] theorem State.admitRevoke_settings (s : State) (a1 : Cmd) :
    (@State.admitRevoke s a1).settings = s.settings := by
  simp [State.admitRevoke]

@[simp] theorem State.beginRevoke_settings (s : State) (a1 : Cmd) (a2 : ReadEnv) :
    (@State.beginRevoke s a1 a2).settings = s.settings := by
  simp only [State.beginRevoke]; (repeat' split) <;> simp_all

@[simp] theorem State.checkResize_settings (s : State) (a1 : Ask) (a2 : ReadEnv) :
    (@State.checkResize s a1 a2).2.settings = s.settings := by
  simp [State.checkResize]

@[simp] theorem State.admitResize_settings (s : State) (a1 : Cmd) :
    (@State.admitResize s a1).settings = s.settings := by
  simp [State.admitResize]

@[simp] theorem State.placeFrame_settings (s : State) (a1 : Nat) (a2 : Extent) (a3 : Frame) (a4 : Nat) (a5 : ReadEnv) :
    (@State.placeFrame s a1 a2 a3 a4 a5).settings = s.settings := by
  simp only [State.placeFrame]; (repeat' split) <;> simp_all

@[simp] theorem State.relayImage_settings (s : State) (a1 : Extent) (a2 : Nat) (a3 : Image) :
    (@State.relayImage s a1 a2 a3).settings = s.settings := by
  simp only [State.relayImage]; (repeat' split) <;> simp_all

@[simp] theorem State.applySize_settings (s : State) (a1 a2 : Nat) (a3 : ReadEnv) :
    (@State.applySize s a1 a2 a3).settings = s.settings := by
  unfold State.applySize; repeat' first
    | (simp [apply_ite State.settings]; done)
    | (simp_all [apply_ite State.settings]; done)
    | split
    | refine (foldl_settings _ (fun _ _ => ?_) _ _).trans ?_
    | refine (foldl_settings2 _ (fun _ _ => ?_) _ _).trans ?_
    | refine (foldl_settings3 _ (fun _ _ => ?_) _ _).trans ?_
    | refine (foldl_settings4 _ (fun _ _ => ?_) _ _).trans ?_
    | (simp only [apply_ite State.settings]) | simp

@[simp] theorem State.sizeEvents_settings (s : State) (a1 a2 : Nat) :
    (@State.sizeEvents s a1 a2).settings = s.settings := by
  unfold State.sizeEvents; (repeat' split) <;> simp

@[simp] theorem State.beginResize_settings (s : State) (a1 : Cmd) (a2 : ReadEnv) :
    (@State.beginResize s a1 a2).settings = s.settings := by
  simp only [State.beginResize]; (repeat' split) <;> simp_all

@[simp] theorem State.endResize_settings (s : State) (a1 : Cmd) (a2 : ReadEnv) :
    (@State.endResize s a1 a2).settings = s.settings := by
  simp only [State.endResize]; (repeat' split) <;> simp_all

@[simp] theorem State.dropMember_settings (s : State) (e m : Nat) (x : Extent) :
    (s.dropMember e m x).settings = s.settings := by
  unfold State.dropMember
  exact foldl_settings _ (by simp) _ _

@[simp] theorem State.endRevoke_settings (s : State) (c : Cmd) (e : Nat) : (s.endRevoke c e).settings = s.settings := by
  unfold State.endRevoke
  split
  · simp
  · split <;> simp

@[simp] theorem State.endMembership_settings (s : State) (c : Cmd) (e m : Nat) :
    (s.endMembership c e m).settings = s.settings := by
  unfold State.endMembership
  split
  · simp
  · split <;> simp

@[simp] theorem State.checkQuery_settings (s : State) (a1 : Ask) (a2 : ReadEnv) :
    (@State.checkQuery s a1 a2).2.settings = s.settings := by
  simp [State.checkQuery]

@[simp] theorem State.beginQuery_settings (s : State) (a1 : Cmd) (a2 : ReadEnv) :
    (@State.beginQuery s a1 a2).settings = s.settings := by
  simp only [State.beginQuery]; (repeat' split) <;> simp_all

/-! ### Versions -/

@[simp] theorem State.checkOpen_settings (s : State) (a1 : Ask) (a2 : ReadEnv) :
    (@State.checkOpen s a1 a2).2.settings = s.settings := by
  simp [State.checkOpen]

@[simp] theorem State.moveView_settings (s : State) (a1 : Cmd) (a2 : Nat) (a3 : Extent) (a4 : Nat) :
    (@State.moveView s a1 a2 a3 a4).settings = s.settings := by
  simp [State.moveView, apply_ite State.settings]

@[simp] theorem State.beginOpen_settings (s : State) (a1 : Cmd) (a2 : ReadEnv) :
    (@State.beginOpen s a1 a2).settings = s.settings := by
  simp only [State.beginOpen]; (repeat' split) <;> simp_all

@[simp] theorem State.checkPublish_settings (s : State) (a1 : Ask) (a2 : ReadEnv) :
    (@State.checkPublish s a1 a2).2.settings = s.settings := by
  simp [State.checkPublish]

@[simp] theorem State.admitPublish_settings (s : State) (a1 : Cmd) (a2 : Want) :
    (@State.admitPublish s a1 a2).settings = s.settings := by
  simp [State.admitPublish]

@[simp] theorem State.publishNothing_settings (s : State) (a1 : Cmd) (a2 : Extent) :
    (@State.publishNothing s a1 a2).settings = s.settings := by
  simp [State.publishNothing]

@[simp] theorem State.pageCells_settings (s : State) (a1 : Nat) (a2 : Frame) (a3 : ReadEnv) :
    (State.pageCells s a1 a2 a3).2.settings = s.settings := by
  unfold State.pageCells
  dsimp only
  rw [foldl_settings _ (by simp), foldl_settings3 _ ?_]
  rintro p ⟨l, c⟩
  dsimp only
  split <;> simp

@[simp] theorem State.sendShadow_settings (s : State) (a1 : Extent) (a2 a3 a4 : Nat) (a5 : ReadEnv) :
    (@State.sendShadow s a1 a2 a3 a4 a5).settings = s.settings := by
  simp only [State.sendShadow]; (repeat' split) <;> simp_all

@[simp] theorem State.completeSet_settings (s : State) (a1 : List (Nat × Frame)) (a2 : ReadEnv) :
    (@State.completeSet s a1 a2).settings = s.settings := by
  simp [State.completeSet]

@[simp] theorem State.publishHome_settings (s : State) (a1 : Cmd) (a2 : Nat) (a3 : Extent) (a4 : ReadEnv) :
    (@State.publishHome s a1 a2 a3 a4).settings = s.settings := by
  simp only [State.publishHome]; (repeat' split) <;> simp_all

@[simp] theorem State.moveSet_settings (s : State) (a1 a2 a3 a4 a5 : Nat) (a6 : Count) :
    (@State.moveSet s a1 a2 a3 a4 a5 a6).settings = s.settings := by
  simp [State.moveSet]

@[simp] theorem State.cutPublish_settings (s : State) (a1 : Cmd) (a2 : Nat) (a3 : Extent) (a4 : List Nat) (a5 : ReadEnv) :
    (@State.cutPublish s a1 a2 a3 a4 a5).settings = s.settings := by
  simp [State.cutPublish]

@[simp] theorem State.beginPublish_settings (s : State) (a1 : Cmd) (a2 : ReadEnv) :
    (@State.beginPublish s a1 a2).settings = s.settings := by
  simp only [State.beginPublish]; (repeat' split) <;> simp_all

@[simp] theorem State.supersede_settings (s : State) (a1 a2 a3 : Nat) :
    (@State.supersede s a1 a2 a3).settings = s.settings := by
  simp [State.supersede]

@[simp] theorem State.promote_settings (s : State) (a1 : Nat) (a2 : Extent) (a3 : Nat) (a4 : Frame) (a5 : Nat) :
    (@State.promote s a1 a2 a3 a4 a5).settings = s.settings := by
  simp [State.promote, apply_ite State.settings]

@[simp] theorem State.commit_settings (s : State) (a1 : Nat) (a2 : PendPub) (a3 : Bool) :
    (@State.commit s a1 a2 a3).settings = s.settings := by
  simp only [State.commit]; (repeat' split) <;> simp_all

@[simp] theorem State.joinFrame_settings (s : State) (a1 a2 a3 a4 : Nat) :
    (@State.joinFrame s a1 a2 a3 a4).settings = s.settings := by
  unfold State.joinFrame; (repeat' split) <;> simp

@[simp] theorem State.unpublish_settings (s : State) (a1 : Nat) (a2 : PendPub) :
    (@State.unpublish s a1 a2).settings = s.settings := by
  simp only [State.unpublish]; (repeat' split) <;> simp_all

@[simp] theorem State.remoteCommits_settings (s : State) (a1 a2 : Nat) :
    (@State.remoteCommits s a1 a2).settings = s.settings := by
  induction a2 generalizing s a1 <;> simp only [State.remoteCommits] <;> repeat' first
    | (simp [apply_ite State.settings]; done)
    | (simp_all [apply_ite State.settings]; done)
    | split
    | refine (foldl_settings _ (fun _ _ => ?_) _ _).trans ?_
    | refine (foldl_settings2 _ (fun _ _ => ?_) _ _).trans ?_
    | refine (foldl_settings3 _ (fun _ _ => ?_) _ _).trans ?_
    | refine (foldl_settings4 _ (fun _ _ => ?_) _ _).trans ?_
    | (simp only [apply_ite State.settings]) | simp

@[simp] theorem State.sealFrames_settings (s : State) (a1 : Extent) (a2 a3 a4 : Nat) :
    (@State.sealFrames s a1 a2 a3 a4).settings = s.settings := by
  unfold State.sealFrames; (repeat' split) <;> simp

@[simp] theorem State.sealPlaced_settings (s : State) (a1 : Extent) (a2 : List (Nat × Nat)) :
    (State.sealPlaced s a1 a2).settings = s.settings := by
  unfold State.sealPlaced
  refine foldl_settings _ ?_ _ _
  rintro s ⟨p, n⟩
  dsimp only
  split
  · rfl
  · refine foldl_settings _ ?_ _ _
    rintro s ⟨d, q⟩
    dsimp only
    split <;> simp

theorem State.placePages_settings (s : State) (e : Nat) (x : Extent) (l : List InPage) (v : Nat) :
    ∀ r, s.placePages e x l v = some r → r.2.settings = s.settings := by
  unfold State.placePages
  suffices h : ∀ (l : List InPage) (o : Option (List (Nat × Nat) × State)) (r : List (Nat × Nat) × State),
      (∀ u, o = some u → u.2.settings = s.settings) →
      l.foldl (fun (acc : Option (List (Nat × Nat) × State)) i =>
        match acc with
        | none => none
        | some (got, s) =>
          let (t, s) := s.takeFrame x.salt i.page (some (e, i.page)) noEnv
          match t with
          | none => none
          | some (n, entry) =>
            some (got ++ [(i.page, n)], s.setFrame n { Frame.fresh entry e i.page 5 x.ver with
              writer := 64, lines := s.codedCells x i.page i.lines, lens := i.lens, fillVer := v
              copied := List.range 1024 })) o = some r →
      r.2.settings = s.settings by
    exact fun r hr => h l (some ([], s)) r (fun u hu => by cases hu; rfl) hr
  intro l
  induction l with
  | nil => exact fun o t ho ht => ho t ht
  | cons i l ih =>
    intro o t ho ht
    refine ih _ t (fun u hu => ?_) ht
    cases o with
    | none => cases hu
    | some v =>
      dsimp only at hu
      split at hu
      · cases hu
      · cases hu
        simp [ho v rfl]

@[simp] theorem State.remotePublish_settings (s : State) (m : TamMsg) (e : Nat) (x : Extent) (quiet : Bool) :
    (s.remotePublish m e x quiet).settings = s.settings := by
  unfold State.remotePublish
  simp only []
  split
  · split <;> split <;> simp
  · split
    · split <;> split <;> simp
    · next h =>
        simp only [State.remoteCommits_settings, State.modExtent_settings, State.sealPlaced_settings]
        rw [State.placePages_settings _ _ _ _ _ _ h]
        split <;> simp

@[simp] theorem State.settlePublish_settings (s : State) (a1 : Cmd) (a2 : Nat) (a3 : Extent) (a4 : PendPub) :
    (@State.settlePublish s a1 a2 a3 a4).settings = s.settings := by
  simp [State.settlePublish, apply_ite State.settings]

@[simp] theorem State.checkClose_settings (s : State) (a1 : Ask) (a2 : ReadEnv) :
    (@State.checkClose s a1 a2).2.settings = s.settings := by
  simp [State.checkClose]

@[simp] theorem State.beginClose_settings (s : State) (a1 : Cmd) (a2 : ReadEnv) :
    (@State.beginClose s a1 a2).settings = s.settings := by
  simp only [State.beginClose]; (repeat' split) <;> simp_all

/-! ### Fills -/

@[simp] theorem State.reconstructed_settings (s : State) (a1 : Image) :
    (@State.reconstructed s a1).settings = s.settings := by
  simp [State.reconstructed, apply_ite State.settings]

@[simp] theorem State.reclaimRows_settings (s : State) :
    (@State.reclaimRows s).settings = s.settings := by
  simp [State.reclaimRows]

/-! ### Snapshots -/

@[simp] theorem State.checkSnap_settings (s : State) (a1 : Ask) (a2 : ReadEnv) :
    (@State.checkSnap s a1 a2).2.settings = s.settings := by
  simp [State.checkSnap]

@[simp] theorem State.carryUnit_settings (s : State) (a1 : Nat) (a2 : Extent) (a3 a4 a5 : Nat) (a6 : ReadEnv) :
    (@State.carryUnit s a1 a2 a3 a4 a5 a6).2.settings = s.settings := by
  simp [State.carryUnit]

@[simp] theorem State.flushPages_settings (s : State) (a1 a2 a3 : Nat) (a4 : List Nat) (a5 : ReadEnv) :
    (@State.flushPages s a1 a2 a3 a4 a5).settings = s.settings := by
  unfold State.flushPages; refine foldl_settings _ ?_ _ _; intros; dsimp only; (repeat' split) <;> simp

@[simp] theorem State.carryStored_settings (s : State) (e : Nat) (x : Extent) (a v off n : Nat) (scale : Bool) (env
    : ReadEnv) :
    (s.carryStored e x a v off n scale env).2.settings = s.settings := by
  have hl (acc : Carried × State) (i : Nat) : (carryLine e x a v scale env acc i).2.settings = acc.2.settings := by
    unfold carryLine
    simp only []
    split <;> simp
  unfold State.carryStored
  simp [hl]

@[simp] theorem State.snapUnit_settings (s : State) (a1 : Cmd) (a2 a3 : Extent) (a4 : Nat) (a5 : ReadEnv) :
    (@State.snapUnit s a1 a2 a3 a4 a5).2.2.2.settings = s.settings := by
  unfold State.snapUnit; (repeat' split) <;> simp

@[simp] theorem State.doSnapshot_settings (s : State) (c : Cmd) (env : ReadEnv) :
    (s.doSnapshot c env).settings = s.settings := by
  have hs (x y : Extent) (acc : Snapped) (u : Nat) : (snapStep c x y env acc u).2.2.2.settings = acc.2.2.2.settings
      := by
    simp [snapStep]
  unfold State.doSnapshot
  simp only []
  split
  · simp [hs]
  · simp

@[simp] theorem State.dropStaging_settings (s : State) (a1 a2 : Nat) :
    (@State.dropStaging s a1 a2).settings = s.settings := by
  simp [State.dropStaging]

@[simp] theorem State.pruneLocks_settings (s : State) :
    (@State.pruneLocks s).settings = s.settings := by
  simp [State.pruneLocks]

@[simp] theorem State.beginSnapshot_settings (s : State) (a1 : Cmd) (a2 : ReadEnv) :
    (@State.beginSnapshot s a1 a2).settings = s.settings := by
  unfold State.beginSnapshot; repeat' first
    | (simp [apply_ite State.settings]; done)
    | (simp_all [apply_ite State.settings]; done)
    | split
    | refine (foldl_settings _ (fun _ _ => ?_) _ _).trans ?_
    | refine (foldl_settings2 _ (fun _ _ => ?_) _ _).trans ?_
    | refine (foldl_settings3 _ (fun _ _ => ?_) _ _).trans ?_
    | refine (foldl_settings4 _ (fun _ _ => ?_) _ _).trans ?_
    | (simp only [apply_ite State.settings]) | simp

@[simp] theorem State.unlock_settings (s : State) (a1 : Nat) :
    (@State.unlock s a1).settings = s.settings := by
  simp [State.unlock]

@[simp] theorem State.programsSettle_settings (s : State) (a1 : Nat) :
    (@State.programsSettle s a1).settings = s.settings := by
  simp only [State.programsSettle]; (repeat' split) <;> simp_all

@[simp] theorem drainPage_settings (c : Cmd) (e : Nat) (x : Extent) (v : Nat) (env : ReadEnv) (acc : Drained) (p : Nat) :
    (drainPage c e x v env acc p).2.2.settings = acc.2.2.settings := by
  unfold drainPage
  dsimp only
  repeat' split
  all_goals simp [joinProgram, apply_ite State.settings]

@[simp] theorem State.beginDrain_settings (s : State) (a1 : Cmd) (a2 : ReadEnv) :
    (State.beginDrain s a1 a2).settings = s.settings := by
  unfold State.beginDrain
  dsimp only
  split
  · simp
  · split
    · rfl
    · simp [foldl_settings3 _ (drainPage_settings _ _ _ _ _)]

theorem State.settings_dir (s t : State) (h : t.settings = s.settings) :
    ({ t with dir := s.dir } : State).settings = s.settings := by
  simp only [State.settings, Settings.mk.injEq] at *
  simp [h]

@[simp] theorem State.flashUnit_settings (s : State) (a1 : Nat) (a2 : Extent) (a3 a4 : Nat) (a5 : ReadEnv) :
    (State.flashUnit s a1 a2 a3 a4 a5).2.settings = s.settings := by
  simp only [State.flashUnit]
  generalize hr : List.foldl _ _ _ = r
  have h : r.2.settings = s.settings := by rw [← hr, foldl_settings2 _ (by simp)]; rfl
  exact State.settings_dir s r.2 h

@[simp] theorem State.restoreUnit_settings (s : State) (a1 : Cmd) (a2 a3 : Extent) (a4 : Nat) (a5 : ReadEnv) :
    (@State.restoreUnit s a1 a2 a3 a4 a5).settings = s.settings := by
  simp [State.restoreUnit]

@[simp] theorem State.doRestore_settings (s : State) (a1 : Cmd) (a2 : ReadEnv) :
    (@State.doRestore s a1 a2).settings = s.settings := by
  simp only [State.doRestore]; (repeat' split) <;> simp_all

@[simp] theorem State.frameCleaned_settings (s : State) (a1 a2 : Nat) :
    (@State.frameCleaned s a1 a2).settings = s.settings := by
  simp [State.frameCleaned]

@[simp] theorem State.programLands_settings (s : State) (a1 : Program) :
    (@State.programLands s a1).settings = s.settings := by
  unfold State.programLands; (repeat' split) <;> simp

end Sys2Proof.Machine
end

