-- ==== Sys2Proof/Laws/Commands.lean ====
section
/-! SUPPORT. Frame lemmas of resets, control commands and admission: none changes a setting. -/

namespace Sys2Proof.Machine

open Sys2Proof

/-! ### Resets -/

@[simp] theorem State.setShare_settings (s : State) (a1 a2 : Nat) (a3 : Count) (a4 : List Nat) :
    (@State.setShare s a1 a2 a3 a4).2.settings = s.settings := by
  simp [State.setShare]

@[simp] theorem State.releaseShares_settings (s : State) (a1 : Nat) (a2 : Count) (a3 : List Nat) :
    (@State.releaseShares s a1 a2 a3).2.settings = s.settings := by
  simp [State.releaseShares]

@[simp] theorem State.settleShare_settings (s : State) (a1 a2 : Nat) :
    (@State.settleShare s a1 a2).settings = s.settings := by
  simp [State.settleShare]

@[simp] theorem State.closeViews_settings (s : State) (a1 : Nat) :
    (@State.closeViews s a1).settings = s.settings := by
  unfold State.closeViews; repeat' first
    | (simp [apply_ite State.settings]; done)
    | (simp_all [apply_ite State.settings]; done)
    | split
    | refine (foldl_settings _ (fun _ _ => ?_) _ _).trans ?_
    | refine (foldl_settings2 _ (fun _ _ => ?_) _ _).trans ?_
    | refine (foldl_settings3 _ (fun _ _ => ?_) _ _).trans ?_
    | refine (foldl_settings4 _ (fun _ _ => ?_) _ _).trans ?_
    | (simp only [apply_ite State.settings]) | simp

@[simp] theorem State.cancel_settings (s : State) (a1 : Cmd) :
    (@State.cancel s a1).settings = s.settings := by
  simp [State.cancel, apply_ite State.settings]

@[simp] theorem State.abandon_settings (s : State) (a1 : Cmd) :
    (@State.abandon s a1).settings = s.settings := by
  simp [State.abandon, apply_ite State.settings]

@[simp] theorem State.abandonAll_settings (s : State) (a1 : Nat) :
    (@State.abandonAll s a1).settings = s.settings := by
  simp [State.abandonAll, apply_ite State.settings]

@[simp] theorem State.resetAllot_settings (s : State) (a1 a2 : Nat) (a3 : Count) (a4 : Option Nat) :
    (@State.resetAllot s a1 a2 a3 a4).settings = s.settings := by
  simp [State.resetAllot, apply_ite State.settings]

@[simp] theorem State.liftLocks_settings (s : State) :
    (@State.liftLocks s).settings = s.settings := by
  simp [State.liftLocks]

/-! ### Control -/

@[simp] theorem State.checkFence_settings (s : State) (a1 : Ask) (a2 : ReadEnv) :
    (@State.checkFence s a1 a2).2.settings = s.settings := by
  simp [State.checkFence]

@[simp] theorem State.beginFence_settings (s : State) (a1 : Cmd) (a2 : ReadEnv) :
    (@State.beginFence s a1 a2).settings = s.settings := by
  simp [State.beginFence]

@[simp] theorem State.checkWait_settings (s : State) (a1 : Ask) (a2 : ReadEnv) :
    (@State.checkWait s a1 a2).2.settings = s.settings := by
  simp [State.checkWait]

@[simp] theorem State.endWait_settings (s : State) (a1 : Cmd) :
    (@State.endWait s a1).settings = s.settings := by
  simp [State.endWait]

@[simp] theorem State.beginWait_settings (s : State) (a1 : Cmd) (a2 : ReadEnv) :
    (@State.beginWait s a1 a2).settings = s.settings := by
  simp [State.beginWait, apply_ite State.settings]

@[simp] theorem State.checkMark_settings (s : State) (a1 : Ask) (a2 : ReadEnv) :
    (@State.checkMark s a1 a2).2.settings = s.settings := by
  simp [State.checkMark]

@[simp] theorem State.admitMark_settings (s : State) (a1 : Cmd) :
    (@State.admitMark s a1).settings = s.settings := by
  simp [State.admitMark, apply_ite State.settings]

@[simp] theorem State.beginMark_settings (s : State) (a1 : Cmd) (a2 : ReadEnv) :
    (@State.beginMark s a1 a2).settings = s.settings := by
  simp [State.beginMark]

@[simp] theorem State.takeHandle_settings (s : State) (a1 a2 : Nat) :
    (@State.takeHandle s a1 a2).settings = s.settings := by
  simp [State.takeHandle]

@[simp] theorem State.checkKeyLoad_settings (s : State) (a1 : Ask) (a2 : ReadEnv) :
    (@State.checkKeyLoad s a1 a2).2.settings = s.settings := by
  simp [State.checkKeyLoad]

@[simp] theorem State.beginKeyLoad_settings (s : State) (a1 : Cmd) (a2 : ReadEnv) :
    (@State.beginKeyLoad s a1 a2).settings = s.settings := by
  simp [State.beginKeyLoad]

@[simp] theorem State.checkKeyDrop_settings (s : State) (a1 : Ask) (a2 : ReadEnv) :
    (@State.checkKeyDrop s a1 a2).2.settings = s.settings := by
  simp [State.checkKeyDrop]

@[simp] theorem State.eraseSlot_settings (s : State) (a1 : Nat) :
    (@State.eraseSlot s a1).settings = s.settings := by
  simp [State.eraseSlot]

@[simp] theorem State.beginKeyDrop_settings (s : State) (a1 : Cmd) (a2 : ReadEnv) :
    (@State.beginKeyDrop s a1 a2).settings = s.settings := by
  simp [State.beginKeyDrop]

@[simp] theorem State.checkReserve_settings (s : State) (a1 : Ask) (a2 : ReadEnv) :
    (@State.checkReserve s a1 a2).2.settings = s.settings := by
  simp [State.checkReserve]

@[simp] theorem State.admitReserve_settings (s : State) (a1 : Cmd) :
    (@State.admitReserve s a1).settings = s.settings := by
  simp [State.admitReserve]

@[simp] theorem State.checkRelease_settings (s : State) (a1 : Ask) (a2 : ReadEnv) :
    (@State.checkRelease s a1 a2).2.settings = s.settings := by
  simp [State.checkRelease]

@[simp] theorem State.admitRelease_settings (s : State) (a1 : Cmd) :
    (@State.admitRelease s a1).settings = s.settings := by
  simp [State.admitRelease]

@[simp] theorem State.endReserve_settings (s : State) (a1 : Cmd) :
    (@State.endReserve s a1).settings = s.settings := by
  simp [State.endReserve]

@[simp] theorem State.beginReserve_settings (s : State) (a1 : Cmd) (a2 : ReadEnv) :
    (@State.beginReserve s a1 a2).settings = s.settings := by
  simp [State.beginReserve, apply_ite State.settings]

@[simp] theorem State.checkPlanSet_settings (s : State) (a1 : Ask) (a2 : ReadEnv) :
    (@State.checkPlanSet s a1 a2).2.settings = s.settings := by
  simp [State.checkPlanSet]

@[simp] theorem State.setLimits_settings (s : State) (a1 : List Nat) :
    (@State.setLimits s a1).settings = s.settings := by
  simp [State.setLimits, apply_ite State.settings]

@[simp] theorem State.beginPlanSet_settings (s : State) (a1 : Cmd) (a2 : ReadEnv) :
    (@State.beginPlanSet s a1 a2).settings = s.settings := by
  simp [State.beginPlanSet]

@[simp] theorem State.checkPowerSet_settings (s : State) (a1 : Ask) (a2 : ReadEnv) :
    (@State.checkPowerSet s a1 a2).2.settings = s.settings := by
  simp [State.checkPowerSet]

@[simp] theorem State.beginPowerSet_settings (s : State) (a1 : Cmd) (a2 : ReadEnv) :
    (@State.beginPowerSet s a1 a2).settings = s.settings := by
  simp [State.beginPowerSet]

@[simp] theorem State.checkReplan_settings (s : State) (a1 : Ask) (a2 : ReadEnv) :
    (@State.checkReplan s a1 a2).2.settings = s.settings := by
  simp [State.checkReplan]

@[simp] theorem State.beginReplan_settings (s : State) (a1 : Cmd) (a2 : ReadEnv) :
    (@State.beginReplan s a1 a2).settings = s.settings := by
  simp [State.beginReplan]

@[simp] theorem State.checkAltReset_settings (s : State) (a1 : Ask) (a2 : ReadEnv) :
    (@State.checkAltReset s a1 a2).2.settings = s.settings := by
  simp [State.checkAltReset]

@[simp] theorem State.beginAltReset_settings (s : State) (a1 : Cmd) (a2 : ReadEnv) :
    (@State.beginAltReset s a1 a2).settings = s.settings := by
  simp [State.beginAltReset, apply_ite State.settings]

@[simp] theorem State.checkCalendar_settings (s : State) (a1 : Ask) (a2 : ReadEnv) :
    (@State.checkCalendar s a1 a2).2.settings = s.settings := by
  simp [State.checkCalendar]

@[simp] theorem State.beginCalendar_settings (s : State) (a1 : Cmd) (a2 : ReadEnv) :
    (@State.beginCalendar s a1 a2).settings = s.settings := by
  simp [State.beginCalendar]

@[simp] theorem State.checkTestOpen_settings (s : State) (a1 : Ask) (a2 : ReadEnv) :
    (@State.checkTestOpen s a1 a2).2.settings = s.settings := by
  simp [State.checkTestOpen]

@[simp] theorem State.beginTestOpen_settings (s : State) (a1 : Cmd) (a2 : ReadEnv) :
    (@State.beginTestOpen s a1 a2).settings = s.settings := by
  simp [State.beginTestOpen]

@[simp] theorem State.checkReplay_settings (s : State) (a1 : Ask) (a2 : ReadEnv) :
    (@State.checkReplay s a1 a2).2.settings = s.settings := by
  simp [State.checkReplay]

@[simp] theorem State.beginReplay_settings (s : State) (a1 : Cmd) (a2 : ReadEnv) :
    (@State.beginReplay s a1 a2).settings = s.settings := by
  simp [State.beginReplay, apply_ite State.settings]

@[simp] theorem State.checkStage_settings (s : State) (a1 : Ask) (a2 : ReadEnv) :
    (@State.checkStage s a1 a2).2.settings = s.settings := by
  simp only [State.checkStage]; (repeat' split) <;> simp_all

@[simp] theorem State.beginStage_settings (s : State) (a1 : Cmd) (a2 : ReadEnv) :
    (@State.beginStage s a1 a2).settings = s.settings := by
  simp [State.beginStage]

/-! ### Submit -/

@[simp] theorem State.checkOp_settings (s : State) (a1 : Ask) (a2 : ReadEnv) :
    (@State.checkOp s a1 a2).2.settings = s.settings := by
  simp only [State.checkOp]; (repeat' split) <;> simp_all

@[simp] theorem State.admitOp_settings (s : State) (a1 : Cmd) (a2 : Want) :
    (@State.admitOp s a1 a2).settings = s.settings := by
  unfold State.admitOp; (repeat' split) <;> simp

@[simp] theorem State.endWork_settings (s : State) (a1 : Nat) :
    (@State.endWork s a1).settings = s.settings := by
  simp only [State.endWork]; (repeat' split) <;> simp_all

@[simp] theorem State.beginOp_settings (s : State) (a1 : Cmd) (a2 : ReadEnv) :
    (@State.beginOp s a1 a2).settings = s.settings := by
  unfold State.beginOp; (repeat' split) <;> simp

@[simp] theorem State.startCmd_settings (s : State) (a1 : Nat) (a2 : ReadEnv) :
    (@State.startCmd s a1 a2).settings = s.settings := by
  simp only [State.startCmd]; (repeat' split) <;> simp_all

@[simp] theorem State.recordCmd_settings (s : State) (a1 : Ask) (a2 : Nat) (a3 : Count) (a4 : Bool) :
    (@State.recordCmd s a1 a2 a3 a4).settings = s.settings := by
  simp [State.recordCmd, apply_ite State.settings]

@[simp] theorem State.refuseCmd_settings (s : State) (a1 : Ask) (a2 : Nat) (a3 : BitVec 96) (a4 : Count) (a5 :
    Bool) :
    (@State.refuseCmd s a1 a2 a3 a4 a5).settings = s.settings := by
  simp [State.refuseCmd]

@[simp] theorem State.stampWrites_settings (s : State) (a1 : List (Nat × Nat)) (a2 : Count) :
    (State.stampWrites s a1 a2).settings = s.settings := by
  unfold State.stampWrites
  refine foldl_settings _ (fun s x => ?_) _ _
  split <;> simp

@[simp] theorem State.putIn_settings (s : State) (c : Ask) (w : Want) (deadline : Count) (again : Bool)
    (env : ReadEnv) : (s.putIn c w deadline again env).settings = s.settings := by
  have hc (w : Want) := State.colander_settings s c.a (pkClass c.p) (s.isPaced c.p) c.eff deadline w
  unfold State.putIn
  simp only []
  generalize (if (s.tam.pair = 1 ∨ s.tam.pair = 5) ∧ isPairOp (pkOp c.p) = true then
      { w with dem := setNth w.dem 8 (nth w.dem 8 + 16 * 256) } else w) = w'
  have hw := hc w'
  revert hw
  cases s.colander c.a (pkClass c.p) (s.isPaced c.p) c.eff deadline w' <;> intro hw <;> simp only [Admission.state]
      at hw
  · simp [hw]
  · simp only []
    split <;> simp [hw]

@[simp] theorem State.judge_settings (s : State) (a1 : Ask) (a2 : Count) (a3 : Bool) (a4 : ReadEnv) :
    (@State.judge s a1 a2 a3 a4).settings = s.settings := by
  simp only [State.judge]; (repeat' split) <;> simp_all

@[simp] theorem State.under_settings (s : State) (a1 : Governed) (a2 : State → State)
    (h : ∀ u, (a2 u).settings = u.settings) : (State.under s a1 a2).settings = s.settings := by
  simp [State.under, h]

@[simp] theorem State.homeAnswer_settings (s : State) (a1 : Cmd) (a2 : Bool) :
    (State.homeAnswer s a1 a2).settings = s.settings := by
  unfold State.homeAnswer
  dsimp only
  split
  · simp
  · rw [State.under_settings]
    · simp
    · intro u
      split <;> simp

@[simp] theorem State.packet_settings (s : State) (a1 a2 : Nat) (a3 : Packet) (a4 : Count) (a5 a6 : Bool) (a7 :
    Option Count) (a8 : Option Count) (a9 : ReadEnv) :
    (@State.packet s a1 a2 a3 a4 a5 a6 a7 a8 a9).settings = s.settings := by
  simp only [State.packet]; (repeat' split) <;> simp_all

@[simp] theorem State.grant_settings (s : State) (a1 : Tie) : (State.grant s a1).settings = s.settings := by
  unfold State.grant
  split
  · split <;> simp
  · exact State.under_settings _ _ _ fun u => by simp
  · repeat' split
    all_goals simp

@[simp] theorem State.releaseTies_settings (a0 : Nat) (s : State) :
    (@State.releaseTies a0 s).settings = s.settings := by
  fun_induction State.releaseTies <;> simp_all [apply_ite State.settings]

@[simp] theorem State.startTies_settings (s : State) (a1 : Count) (a2 : ReadEnv) :
    (State.startTies s a1 a2).settings = (s.start a1).settings := by
  simp [State.startTies]

/-- A command that meets no error, while no request is held back, begins as any other. -/
theorem State.startTies_quiet (s : State) (t : Count) (env : ReadEnv) (h : quietEnv env) (u : s.unheld) :
    s.startTies t env = s.start t := by
  have ht : (s.start t).ties = s.ties := by simp only [State.start, State.advance]; split <;> rfl
  unfold State.startTies
  rw [State.startEnv_quiet s t env h u]
  simp only [ht, u.1, List.length_nil]
  unfold State.releaseTies
  rfl

@[simp] theorem State.fetched_settings (s : State) (a1 : Nat) (a2 : Packet) (a3 : ReadEnv) :
    (@State.fetched s a1 a2 a3).settings = s.settings := by
  simp [State.fetched, apply_ite State.settings]

@[simp] theorem State.deliver_settings (s : State) (a1 : Nat) (a2 : List Packet) (a3 : ReadEnv) :
    (@State.deliver s a1 a2 a3).settings = s.settings := by
  simp [State.deliver, apply_ite State.settings]

@[simp] theorem State.barfin_settings (s : State) (a1 a2 a3 : Nat) (a4 : Packet) (a5 : ReadEnv) :
    (State.barfin s a1 a2 a3 a4 a5).settings = (s.start a1).settings := by
  simp [State.barfin, apply_ite State.settings]

@[simp] theorem State.launch_settings (s : State) (a1 : Nat) (a2 : ReadEnv) :
    (@State.launch s a1 a2).settings = s.settings := by
  simp [State.launch, apply_ite State.settings]

@[simp] theorem State.plotWork_settings (s : State) (a1 a2 : Nat) (a3 : ReadEnv) :
    (@State.plotWork s a1 a2 a3).settings = s.settings := by
  simp only [State.plotWork]; (repeat' split) <;> simp_all

@[simp] theorem State.stationWork_settings (s : State) (a1 : Cmd) (a2 : Nat) (a3 : ReadEnv) :
    (@State.stationWork s a1 a2 a3).settings = s.settings := by
  simp [State.stationWork, apply_ite State.settings]

@[simp] theorem State.report_settings (s : State) (a1 a2 : Nat) :
    (@State.report s a1 a2).settings = s.settings := by
  simp only [State.report]; (repeat' split) <;> simp_all

@[simp] theorem State.stationRun_settings (s : State) (a1 : Cmd) (a2 : Nat) (a3 : ReadEnv) :
    (@State.stationRun s a1 a2 a3).settings = s.settings := by
  simp [State.stationRun, apply_ite State.settings]

@[simp] theorem State.injectRecord_settings (s : State) (r : LogRec) (shift : Nat) (c : Count) (env : ReadEnv) :
    (s.injectRecord r shift c env).settings = s.settings := by
  unfold State.injectRecord
  split <;> simp

@[simp] theorem State.replayEnds_settings (s : State) : s.replayEnds.settings = s.settings := by
  simp [State.replayEnds]

end Sys2Proof.Machine
end

