-- ==== Sys2Proof/Laws/Access.lean ====
section
/-! SUPPORT. Frame lemmas of queues, logs, the endpoint and its mailboxes: none changes a setting. -/

namespace Sys2Proof.Machine

open Sys2Proof

/-! ### Bar -/

@[simp] theorem State.config_settings (s : State) (a1 : Nat) (a2 : State → State) (h2 : ∀ b0, (a2 b0).settings =
    (b0).settings) :
    (@State.config s a1 a2).settings = s.settings := by
  simp only [State.config]; (repeat' split) <;> simp_all

@[simp] theorem State.viaBar_settings (s : State) (a1 a2 : Nat) (a3 : State → State) (h3 : ∀ b0, (a3 b0).settings =
    (b0).settings) :
    (@State.viaBar s a1 a2 a3).settings = s.settings := by
  simp only [State.viaBar]; (repeat' split) <;> simp_all

/-! ### QueueRows -/

@[simp] theorem State.takeBackEntry_settings (s : State) (a1 : Nat) (a2 : Completion) (a3 : Count) (a4 : Bool) :
    (@State.takeBackEntry s a1 a2 a3 a4).settings = s.settings := by
  simp [State.takeBackEntry]

@[simp] theorem State.passHead_settings (s : State) (a1 a2 : Nat) :
    (@State.passHead s a1 a2).settings = s.settings := by
  simp [State.passHead]

@[simp] theorem State.ring_settings (s : State) (a1 a2 : Nat) (a3 : Option Nat) (a4 : Option Nat) :
    (@State.ring s a1 a2 a3 a4).settings = s.settings := by
  simp only [State.ring]; (repeat' split) <;> simp_all

@[simp] theorem State.doorbell_settings (s : State) (a1 a2 a3 : Nat) (a4 : Reg64) :
    (@State.doorbell s a1 a2 a3 a4).settings = s.settings := by
  simp [State.doorbell, apply_ite State.settings]

@[simp] theorem State.enableQueue_settings (s : State) (a1 : Nat) :
    (@State.enableQueue s a1).settings = s.settings := by
  simp [State.enableQueue, apply_ite State.settings]

@[simp] theorem State.setEnable_settings (s : State) (a1 : Nat) (a2 a3 : Bool) :
    (@State.setEnable s a1 a2 a3).settings = s.settings := by
  simp [State.setEnable, apply_ite State.settings]

@[simp] theorem State.restart_settings (s : State) (a1 : Nat) :
    (@State.restart s a1).settings = s.settings := by
  simp [State.restart, apply_ite State.settings]

@[simp] theorem State.queCtrl_settings (s : State) (a1 : Nat) (a2 : Reg32) :
    (@State.queCtrl s a1 a2).settings = s.settings := by
  simp [State.queCtrl, apply_ite State.settings]

@[simp] theorem State.queVia_settings (s : State) (a1 a2 a3 : Nat) (a4 : State → State) (h4 : ∀ b0, (a4
    b0).settings = (b0).settings) :
    (@State.queVia s a1 a2 a3 a4).settings = s.settings := by
  simp only [State.queVia]; (repeat' split) <;> simp_all

@[simp] theorem State.queOwner_settings (s : State) (a1 : Nat) (a2 : Reg32) :
    (@State.queOwner s a1 a2).settings = s.settings := by
  simp [State.queOwner, apply_ite State.settings]

@[simp] theorem State.evtPos_settings (s : State) (a1 a2 : Nat) (a3 : Reg32) :
    (@State.evtPos s a1 a2 a3).settings = s.settings := by
  simp [State.evtPos, apply_ite State.settings]

@[simp] theorem State.evtCtrl_settings (s : State) (a1 : Nat) (a2 : Reg32) :
    (@State.evtCtrl s a1 a2).settings = s.settings := by
  simp [State.evtCtrl, apply_ite State.settings]

@[simp] theorem State.ownVia_settings (s : State) (a1 a2 a3 a4 : Nat) (a5 : State → State) (h5 : ∀ b0, (a5
    b0).settings = (b0).settings) :
    (@State.ownVia s a1 a2 a3 a4 a5).settings = s.settings := by
  simp only [State.ownVia]; (repeat' split) <;> simp_all

/-! ### Determinism -/

@[simp] theorem State.hashCloseAll_settings (s : State) (a1 : Count) :
    (@State.hashCloseAll s a1).settings = s.settings := by
  simp [State.hashCloseAll]

@[simp] theorem State.logCopy_settings (s : State) (a1 : Reg32) :
    (@State.logCopy s a1).settings = s.settings := by
  simp only [State.logCopy]; (repeat' split) <;> simp_all

@[simp] theorem State.copyLogLine_settings (s : State) (a1 a2 : Nat) :
    (@State.copyLogLine s a1 a2).settings = s.settings := by
  unfold State.copyLogLine; (repeat' split) <;> simp

/-! ### Endpoint -/

@[simp] theorem State.leaveRest_settings (s : State) :
    (@State.leaveRest s).settings = s.settings := by
  simp [State.leaveRest, apply_ite State.settings]

@[simp] theorem State.resetFunction_settings (s : State) (a1 a2 : Nat) :
    (@State.resetFunction s a1 a2).settings = s.settings := by
  simp only [State.resetFunction]; (repeat' split) <;> simp_all

@[simp] theorem State.linkDown_settings (s : State) (a1 : Nat) :
    (@State.linkDown s a1).settings = s.settings := by
  simp [State.linkDown]

@[simp] theorem State.holdDown_settings (s : State) (a1 : Nat) :
    (@State.holdDown s a1).settings = s.settings := by
  simp [State.holdDown]

@[simp] theorem State.linkPoor_settings (s : State) (a1 a2 a3 : Nat) :
    (@State.linkPoor s a1 a2 a3).settings = s.settings := by
  simp [State.linkPoor, apply_ite State.settings]

@[simp] theorem State.linkUp_settings (s : State) (a1 a2 a3 : Nat) :
    (@State.linkUp s a1 a2 a3).settings = s.settings := by
  simp [State.linkUp, apply_ite State.settings]

@[simp] theorem State.ldBar_settings (s : State) (a1 : Nat) (a2 : State → State) (h2 : ∀ b0, (a2 b0).settings =
    (b0).settings) :
    (@State.ldBar s a1 a2).settings = s.settings := by
  simp only [State.ldBar]; (repeat' split) <;> simp_all

@[simp] theorem State.masterLost_settings (s : State) (a1 : Nat) :
    (@State.masterLost s a1).settings = s.settings := by
  simp [State.masterLost, apply_ite State.settings]

@[simp] theorem State.sendPending_settings (s : State) (a1 : Nat) :
    (@State.sendPending s a1).settings = s.settings := by
  unfold State.sendPending; repeat' first
    | (simp [apply_ite State.settings]; done)
    | (simp_all [apply_ite State.settings]; done)
    | split
    | refine (foldl_settings _ (fun _ _ => ?_) _ _).trans ?_
    | refine (foldl_settings2 _ (fun _ _ => ?_) _ _).trans ?_
    | refine (foldl_settings3 _ (fun _ _ => ?_) _ _).trans ?_
    | refine (foldl_settings4 _ (fun _ _ => ?_) _ _).trans ?_
    | (simp only [apply_ite State.settings]) | simp

@[simp] theorem State.evtResume_settings (a0 a1 : Nat) (s : State) :
    (@State.evtResume a0 a1 s).settings = s.settings := by
  induction a1 generalizing s a0 <;> simp_all [State.evtResume, apply_ite State.settings]

@[simp] theorem State.masterBack_settings (s : State) (a1 : Nat) :
    (@State.masterBack s a1).settings = s.settings := by
  simp only [State.masterBack]; (repeat' split) <;> simp_all

@[simp] theorem State.flushAll_settings (s : State) (a1 : ReadEnv) :
    (@State.flushAll s a1).settings = s.settings := by
  simp [State.flushAll]

@[simp] theorem State.exitPause_settings (s : State) (a1 : List (Nat × Nat × Bool)) (a2 : Nat) :
    (@State.exitPause s a1 a2).settings = s.settings := by
  simp [State.exitPause, apply_ite State.settings]

@[simp] theorem State.unmask_settings (s : State) (a1 a2 : Nat) :
    (@State.unmask s a1 a2).settings = s.settings := by
  simp [State.unmask]

/-! ### Mailbox -/

@[simp] theorem State.mailbox_settings (s : State) (a1 a2 : Nat) (a3 : Nat → Nat → State → State) (h3 : ∀ b0 b1 b2,
    (a3 b0 b1 b2).settings = (b2).settings) :
    (@State.mailbox s a1 a2 a3).settings = s.settings := by
  simp only [State.mailbox]; (repeat' split) <;> simp_all

@[simp] theorem State.capacityBox_settings (s : State) (a1 a2 : Nat) (a3 : Nat → State → State) (h3 : ∀ b0 b1, (a3
    b0 b1).settings = (b1).settings) :
    (@State.capacityBox s a1 a2 a3).settings = s.settings := by
  unfold State.capacityBox; repeat' first
    | (simp [apply_ite State.settings]; done)
    | (simp_all [apply_ite State.settings]; done)
    | split
    | refine (foldl_settings _ (fun _ _ => ?_) _ _).trans ?_
    | refine (foldl_settings2 _ (fun _ _ => ?_) _ _).trans ?_
    | refine (foldl_settings3 _ (fun _ _ => ?_) _ _).trans ?_
    | refine (foldl_settings4 _ (fun _ _ => ?_) _ _).trans ?_
    | (simp only [apply_ite State.settings]) | simp

@[simp] theorem State.fmApi_settings (s : State) (a1 : Nat) (a2 : State → State) (h2 : ∀ b0, (a2 b0).settings =
    (b0).settings) :
    (@State.fmApi s a1 a2).settings = s.settings := by
  simp only [State.fmApi]; (repeat' split) <;> simp_all

end Sys2Proof.Machine
end

