-- ==== Sys2Proof/Laws/Units.lean ====
section
/-! SUPPORT. Frame lemmas of the clock, channels, integrity and the links: none changes a setting. -/

namespace Sys2Proof.Machine

open Sys2Proof

/-! ### Dram -/

@[simp] theorem State.issueOwed_settings (s : State) (a1 : Nat) :
    (@State.issueOwed s a1).settings = s.settings := by
  simp [State.issueOwed]

@[simp] theorem State.evacuated_settings (s : State) (a1 : Nat) :
    (@State.evacuated s a1).settings = s.settings := by
  simp [State.evacuated]

/-! ### Clock -/

@[simp] theorem State.syncCheck_settings (s : State) (a1 : Count) (a2 : Nat) :
    (@State.syncCheck s a1 a2).settings = s.settings := by
  simp [State.syncCheck, apply_ite State.settings]

@[simp] theorem State.ccCtrl_settings (s : State) (a1 : Reg32) :
    (@State.ccCtrl s a1).settings = s.settings := by
  simp [State.ccCtrl]

/-! ### Integrity -/

@[simp] theorem State.doWipe_settings (s : State) (a1 : Nat) :
    (@State.doWipe s a1).settings = s.settings := by
  simp [State.doWipe]

@[simp] theorem State.hardTest_settings (s : State) (a1 a2 : Nat) (a3 : List Nat) (a4 : List LineFault) :
    (@State.hardTest s a1 a2 a3 a4).settings = s.settings := by
  simp [State.hardTest, apply_ite State.settings]

@[simp] theorem State.scrubLine_settings (s : State) (a1 a2 : Nat) (a3 : ReadEnv) :
    (@State.scrubLine s a1 a2 a3).settings = s.settings := by
  simp only [State.scrubLine]; (repeat' split) <;> simp_all

@[simp] theorem State.scrubBlocks_settings (s : State) (a1 : Nat) (a2 : ReadEnv) :
    (@State.scrubBlocks s a1 a2).settings = s.settings := by
  unfold State.scrubBlocks; repeat' first
    | (simp [apply_ite State.settings]; done)
    | (simp_all [apply_ite State.settings]; done)
    | split
    | refine (foldl_settings _ (fun _ _ => ?_) _ _).trans ?_
    | refine (foldl_settings2 _ (fun _ _ => ?_) _ _).trans ?_
    | refine (foldl_settings3 _ (fun _ _ => ?_) _ _).trans ?_
    | refine (foldl_settings4 _ (fun _ _ => ?_) _ _).trans ?_
    | (simp only [apply_ite State.settings]) | simp

@[simp] theorem State.scrubFrame_settings (s : State) (a1 : Nat) (a2 : ReadEnv) :
    (@State.scrubFrame s a1 a2).settings = s.settings := by
  unfold State.scrubFrame; repeat' first
    | (simp [apply_ite State.settings]; done)
    | (simp_all [apply_ite State.settings]; done)
    | split
    | refine (foldl_settings _ (fun _ _ => ?_) _ _).trans ?_
    | refine (foldl_settings2 _ (fun _ _ => ?_) _ _).trans ?_
    | refine (foldl_settings3 _ (fun _ _ => ?_) _ _).trans ?_
    | refine (foldl_settings4 _ (fun _ _ => ?_) _ _).trans ?_
    | (simp only [apply_ite State.settings]) | simp

@[simp] theorem State.startPass_settings (s : State) :
    (@State.startPass s).settings = s.settings := by
  simp [State.startPass]

@[simp] theorem State.passLate_settings (s : State) :
    (@State.passLate s).settings = s.settings := by
  simp [State.passLate, apply_ite State.settings]

@[simp] theorem State.endPass_settings (s : State) :
    (@State.endPass s).settings = s.settings := by
  simp only [State.endPass]; (repeat' split) <;> simp_all

/-! ### Tamian -/

@[simp] theorem State.portPlan_settings (s : State) :
    (@State.portPlan s).settings = s.settings := by
  simp [State.portPlan, apply_ite State.settings]

@[simp] theorem State.helloFails_settings (s : State) (a1 a2 : Nat) :
    (@State.helloFails s a1 a2).settings = s.settings := by
  simp [State.helloFails]

@[simp] theorem State.retirePort_settings (s : State) (a1 : Nat) :
    (@State.retirePort s a1).settings = s.settings := by
  simp [State.retirePort]

@[simp] theorem State.forward_settings (s : State) (a1 : TamMsg) :
    (@State.forward s a1).settings = s.settings := by
  simp [State.forward, apply_ite State.settings]

@[simp] theorem State.receive_settings (s : State) (a1 : TamMsg) (a2 : State → State) (h2 : ∀ b0, (a2 b0).settings
    = (b0).settings) :
    (@State.receive s a1 a2).settings = s.settings := by
  simp only [State.receive]; (repeat' split) <;> simp_all

@[simp] theorem State.servePage_settings (s : State) (a1 : TamMsg) (a2 : Nat) (a3 : Extent) (a4 : Nat) (a5 :
    ReadEnv) :
    (@State.servePage s a1 a2 a3 a4 a5).settings = s.settings := by
  simp only [State.servePage]; (repeat' split) <;> simp_all

@[simp] theorem State.serveLine_settings (s : State) (a1 : TamMsg) (a2 a3 : Nat) (a4 : ReadEnv) :
    (@State.serveLine s a1 a2 a3 a4).settings = s.settings := by
  simp [State.serveLine]

@[simp] theorem State.homeRevokes_settings (s : State) (a1 : Nat) (a2 : Extent) :
    (@State.homeRevokes s a1 a2).settings = s.settings := by
  simp [State.homeRevokes, apply_ite State.settings]

@[simp] theorem State.sealPage_settings (s : State) (a1 a2 a3 : Nat) :
    (State.sealPage s a1 a2 a3).settings = s.settings := by
  unfold State.sealPage
  split
  · rfl
  · refine foldl_settings _ ?_ _ _
    rintro s ⟨d, q⟩
    dsimp only
    split <;> simp

@[simp] theorem State.storePage_settings (s : State) (a1 : Nat) (a2 : Frame) (a3 : TamMsg) :
    (@State.storePage s a1 a2 a3).settings = s.settings := by
  simp [State.storePage]

@[simp] theorem State.storeFill_settings (s : State) (a1 : Nat) (a2 : TamMsg) (a3 : ReadEnv) :
    (@State.storeFill s a1 a2 a3).settings = s.settings := by
  unfold State.storeFill; (repeat' split) <;> simp

@[simp] theorem State.failFill_settings (s : State) (a1 a2 a3 : Nat) :
    (@State.failFill s a1 a2 a3).settings = s.settings := by
  simp only [State.failFill]; (repeat' split) <;> simp_all

@[simp] theorem State.answerFar_settings (s : State) (a1 : TamMsg) (a2 : HostReq) :
    (@State.answerFar s a1 a2).settings = s.settings := by
  unfold State.answerFar; (repeat' split) <;> simp

@[simp] theorem State.pageAnswer_settings (s : State) (a1 : TamWait) (a2 : TamMsg) :
    (@State.pageAnswer s a1 a2).settings = s.settings := by
  simp only [State.pageAnswer]; (repeat' split) <;> simp_all

@[simp] theorem State.dropWait_settings (s : State) (a1 : TamWait) :
    (@State.dropWait s a1).settings = s.settings := by
  unfold State.dropWait
  simp only []
  split <;> simp

@[simp] theorem State.routeBit_settings (s : State) (a1 : Nat) :
    (@State.routeBit s a1).settings = s.settings := by
  simp [State.routeBit, apply_ite State.settings]

@[simp] theorem State.retagProxy_settings (s : State) (a1 a2 a3 : Nat) (a4 : Option (List Nat)) :
    (@State.retagProxy s a1 a2 a3 a4).settings = s.settings := by
  simp [State.retagProxy, apply_ite State.settings]

@[simp] theorem State.openAnswer_settings (s : State) (a1 : TamWait) (a2 : TamMsg) :
    (@State.openAnswer s a1 a2).settings = s.settings := by
  unfold State.openAnswer; (repeat' split) <;> simp

@[simp] theorem State.publishDone_settings (s : State) (a1 : Cmd) (a2 : Nat) (a3 : Extent) (a4 : Nat) :
    (@State.publishDone s a1 a2 a3 a4).settings = s.settings := by
  simp [State.publishDone, apply_ite State.settings]

@[simp] theorem State.keepSet_settings (s : State) (a1 a2 : Nat) :
    (@State.keepSet s a1 a2).settings = s.settings := by
  simp [State.keepSet, apply_ite State.settings]

@[simp] theorem State.publishAnswer_settings (s : State) (a1 : TamWait) (a2 : TamMsg) :
    (@State.publishAnswer s a1 a2).settings = s.settings := by
  unfold State.publishAnswer; (repeat' split) <;> simp

@[simp] theorem State.passAnswer_settings (s : State) (a1 : TamWait) (a2 : TamMsg) :
    (@State.passAnswer s a1 a2).settings = s.settings := by
  unfold State.passAnswer; (repeat' split) <;> simp

/-! ### Pairing -/

@[simp] theorem State.mirrored_settings (s : State) (a1 : TamMsg) :
    (@State.mirrored s a1).2.settings = s.settings := by
  unfold State.mirrored; (repeat' split) <;> simp

@[simp] theorem State.releaseFar_settings (s : State) :
    (@State.releaseFar s).settings = s.settings := by
  simp [State.releaseFar]

@[simp] theorem State.mirrorDone_settings (s : State) (a1 : Nat) (a2 : Bool) :
    (@State.mirrorDone s a1 a2).settings = s.settings := by
  unfold State.mirrorDone; repeat' first
    | (simp [apply_ite State.settings]; done)
    | (simp_all [apply_ite State.settings]; done)
    | split
    | refine (foldl_settings _ (fun _ _ => ?_) _ _).trans ?_
    | refine (foldl_settings2 _ (fun _ _ => ?_) _ _).trans ?_
    | refine (foldl_settings3 _ (fun _ _ => ?_) _ _).trans ?_
    | refine (foldl_settings4 _ (fun _ _ => ?_) _ _).trans ?_
    | (simp only [apply_ite State.settings]) | simp

@[simp] theorem State.pairNonce_settings (s : State) (a1 : Packet) (a2 : List Nat) (a3 : BitVec 256) :
    (@State.pairNonce s a1 a2 a3).settings = s.settings := by
  simp [State.pairNonce, apply_ite State.settings]

@[simp] theorem State.pairReply_settings (s : State) (a1 : TamMsg) (a2 : List Nat) (a3 : BitVec 256) :
    (@State.pairReply s a1 a2 a3).settings = s.settings := by
  simp [State.pairReply]

@[simp] theorem State.pairCheck_settings (s : State) (a1 : Ask) (a2 : List Line) :
    (@State.pairCheck s a1 a2).2.settings = s.settings := by
  unfold State.pairCheck; (repeat' split) <;> simp

@[simp] theorem State.pairApply_settings (s : State) (a1 : TamMsg) (a2 : Packet) (a3 : List Line) :
    (@State.pairApply s a1 a2 a3).settings = s.settings := by
  simp only [State.pairApply]; (repeat' split) <;> simp_all

@[simp] theorem State.pairAnswer_settings (s : State) (a1 : TamWait) (a2 : TamMsg) :
    (@State.pairAnswer s a1 a2).settings = s.settings := by
  simp only [State.pairAnswer]; (repeat' split) <;> simp_all

@[simp] theorem State.pairRates_settings (s : State) (a1 : List Nat) :
    (@State.pairRates s a1).settings = s.settings := by
  simp [State.pairRates, apply_ite State.settings]

@[simp] theorem State.sendTables_settings (s : State) :
    (@State.sendTables s).settings = s.settings := by
  simp [State.sendTables]

@[simp] theorem State.leadAnswer_settings (s : State) (a1 a2 : Nat) (a3 : TamMsg) :
    (@State.leadAnswer s a1 a2 a3).settings = s.settings := by
  unfold State.leadAnswer; (repeat' split) <;> simp

@[simp] theorem State.beat_settings (s : State) :
    (@State.beat s).settings = s.settings := by
  simp [State.beat]

@[simp] theorem State.toPair_settings (s : State) (a1 : Nat) :
    (@State.toPair s a1).settings = s.settings := by
  simp [State.toPair]

@[simp] theorem State.resilvered_settings (s : State) :
    (@State.resilvered s).settings = s.settings := by
  simp [State.resilvered, apply_ite State.settings]

@[simp] theorem State.pairAlone_settings (s : State) :
    (@State.pairAlone s).settings = s.settings := by
  unfold State.pairAlone; repeat' first
    | (simp [apply_ite State.settings]; done)
    | (simp_all [apply_ite State.settings]; done)
    | split
    | refine (foldl_settings _ (fun _ _ => ?_) _ _).trans ?_
    | refine (foldl_settings2 _ (fun _ _ => ?_) _ _).trans ?_
    | refine (foldl_settings3 _ (fun _ _ => ?_) _ _).trans ?_
    | refine (foldl_settings4 _ (fun _ _ => ?_) _ _).trans ?_
    | (simp only [apply_ite State.settings]) | simp

@[simp] theorem State.solo_settings (s : State) :
    (@State.solo s).settings = s.settings := by
  simp [State.solo]

@[simp] theorem State.fencePart_settings (s : State) :
    (@State.fencePart s).settings = s.settings := by
  simp [State.fencePart]

@[simp] theorem State.tamPair_settings (s : State) (a1 : Reg32) :
    (@State.tamPair s a1).settings = s.settings := by
  simp [State.tamPair, apply_ite State.settings]

@[simp] theorem State.sendResilver_settings (s : State) (a1 : Nat) :
    (@State.sendResilver s a1).settings = s.settings := by
  simp only [State.sendResilver]; (repeat' split) <;> simp_all

@[simp] theorem State.storeResilver_settings (s : State) (a1 : TamMsg) :
    (@State.storeResilver s a1).settings = s.settings := by
  simp only [State.storeResilver]; (repeat' split) <;> simp_all

end Sys2Proof.Machine
end

