-- ==== Sys2Proof/Laws/Part.lean ====
section
/-! SUPPORT. Frame lemmas of security, power and start-up: none changes a setting. -/

namespace Sys2Proof.Machine

open Sys2Proof

/-! ### Security -/

@[simp] theorem State.spdm_settings (s : State) (a1 a2 : Nat) (a3 : Nat → State → State) (h3 : ∀ b0 b1, (a3 b0
    b1).settings = (b1).settings) :
    (@State.spdm s a1 a2 a3).settings = s.settings := by
  simp only [State.spdm]; (repeat' split) <;> simp_all

@[simp] theorem State.signed_settings (s : State) (a1 : Nat) (a2 : Bytes) (a3 : List Nat) (a4 : Bytes) :
    (@State.signed s a1 a2 a3 a4).settings = s.settings := by
  simp [State.signed]

@[simp] theorem State.commitRecord_settings (s : State) (a1 : Bytes) :
    (@State.commitRecord s a1).settings = s.settings := by
  simp [State.commitRecord, apply_ite State.settings]

@[simp] theorem State.cfgCtrl_settings (s : State) (a1 : Reg32) :
    (@State.cfgCtrl s a1).settings = s.settings := by
  simp [State.cfgCtrl, apply_ite State.settings]

@[simp] theorem State.slotError_settings (s : State) :
    (@State.slotError s).settings = s.settings := by
  simp [State.slotError]

@[simp] theorem State.slotMask_settings (s : State) (a1 : Reg64) :
    (@State.slotMask s a1).settings = s.settings := by
  simp [State.slotMask, apply_ite State.settings]

@[simp] theorem State.slotCtrl_settings (s : State) (a1 : Reg32) :
    (@State.slotCtrl s a1).settings = s.settings := by
  simp [State.slotCtrl, apply_ite State.settings]

/-! ### Shutdown -/

@[simp] theorem State.halfPrograms_settings (s : State) :
    (@State.halfPrograms s).settings = s.settings := by
  simp [State.halfPrograms, apply_ite State.settings]

@[simp] theorem State.summary_settings (s : State) :
    (@State.summary s).settings = s.settings := by
  simp [State.summary]

@[simp] theorem State.closeRows_settings (s : State) :
    (@State.closeRows s).settings = s.settings := by
  simp [State.closeRows]

@[simp] theorem State.shutdown_settings (s : State) (a1 : Bool) :
    (@State.shutdown s a1).settings = s.settings := by
  simp [State.shutdown, apply_ite State.settings]

@[simp] theorem State.voltage_settings (s : State) (a1 : Nat) :
    (@State.voltage s a1).settings = s.settings := by
  simp [State.voltage]

/-! ### Power -/

@[simp] theorem State.setpoints_settings (s : State) (a1 : List Nat) (a2 : Domain → Nat → Nat) :
    (@State.setpoints s a1 a2).settings = s.settings := by
  simp [State.setpoints]

@[simp] theorem State.levelTo_settings (s : State) (a1 : Nat) :
    (@State.levelTo s a1).settings = s.settings := by
  simp [State.levelTo, apply_ite State.settings]

@[simp] theorem State.thermalStep_settings (s : State) :
    (@State.thermalStep s).settings = s.settings := by
  simp [State.thermalStep, apply_ite State.settings]

@[simp] theorem State.takeCuts_settings (s : State) : s.takeCuts.settings = s.settings := by
  unfold State.takeCuts
  split <;> simp

@[simp] theorem State.takePlan_settings (s : State) (p : Plan) : (s.takePlan p).settings = s.settings := by
  unfold State.takePlan
  dsimp only
  split <;> simp

@[simp] theorem State.readJunctions_settings (s : State) (a1 : List Nat) :
    (@State.readJunctions s a1).settings = s.settings := by
  simp [State.readJunctions]

@[simp] theorem State.thermWarnAt_settings (s : State) (a1 : Nat) :
    (@State.thermWarnAt s a1).settings = s.settings := by
  simp [State.thermWarnAt, apply_ite State.settings]

@[simp] theorem State.startReplan_settings (s : State) :
    (@State.startReplan s).settings = s.settings := by
  simp [State.startReplan]

@[simp] theorem State.raiseTo_settings (s : State) (a1 a2 : Nat) :
    (@State.raiseTo s a1 a2).settings = s.settings := by
  simp [State.raiseTo, apply_ite State.settings]

@[simp] theorem State.raiseFree_settings (s : State) (a1 : Nat) :
    (@State.raiseFree s a1).settings = s.settings := by
  simp [State.raiseFree]

@[simp] theorem State.paceOne_settings (s : State) (a1 : Nat) (a2 : BitVec 16) :
    (@State.paceOne s a1 a2).settings = s.settings := by
  simp [State.paceOne, apply_ite State.settings]

@[simp] theorem State.raiseOne_settings (s : State) (a1 a2 a3 : Nat) :
    (@State.raiseOne s a1 a2 a3).settings = s.settings := by
  simp [State.raiseOne, apply_ite State.settings]

@[simp] theorem State.raiseGroup_settings (s : State) (a1 : Nat) :
    (@State.raiseGroup s a1).settings = s.settings := by
  simp [State.raiseGroup, apply_ite State.settings]

/-! ### Startup -/

@[simp] theorem State.trainPorts_settings (s : State) :
    (@State.trainPorts s).settings = s.settings := by
  simp [State.trainPorts]

@[simp] theorem State.loadRecord_settings (s : State) :
    (@State.loadRecord s).settings = s.settings := by
  simp [State.loadRecord, apply_ite State.settings]

@[simp] theorem State.toRecovery_settings (s : State) (a1 : Nat) :
    (@State.toRecovery s a1).settings = s.settings := by
  simp [State.toRecovery]

@[simp] theorem State.takeCandidate_settings (s : State) :
    (@State.takeCandidate s).settings = s.settings := by
  simp [State.takeCandidate, apply_ite State.settings]

@[simp] theorem State.startFirmware_settings (s : State) :
    (@State.startFirmware s).settings = s.settings := by
  simp [State.startFirmware, apply_ite State.settings]

@[simp] theorem State.replayJournal_settings (s : State) :
    (@State.replayJournal s).settings = s.settings := by
  simp [State.replayJournal]

@[simp] theorem State.unwrapKeys_settings (s : State) :
    (@State.unwrapKeys s).settings = s.settings := by
  simp [State.unwrapKeys]

@[simp] theorem State.offerAll_settings (s : State) :
    (@State.offerAll s).settings = s.settings := by
  simp [State.offerAll]

@[simp] theorem State.loadMap_settings (s : State) (a1 : Nat × Nat) :
    (@State.loadMap s a1).settings = s.settings := by
  simp [State.loadMap, apply_ite State.settings]

/-! ### Perturb -/

@[simp] theorem State.trace_settings (s : State) (a1 a2 : Nat) :
    (@State.trace s a1 a2).settings = s.settings := by
  simp [State.trace]

@[simp] theorem State.setting_settings (s : State) (a1 a2 : Nat) (a3 : Bool) (a4 : State → State) (h4 : ∀ b0, (a4
    b0).settings = (b0).settings) :
    (@State.setting s a1 a2 a3 a4).settings = s.settings := by
  simp only [State.setting]; (repeat' split) <;> simp_all

@[simp] theorem State.stagePlan_settings (s : State) :
    (@State.stagePlan s).settings = s.settings := by
  simp [State.stagePlan]

@[simp] theorem State.forceSweep_settings (s : State) (a1 a2 : Nat) :
    (@State.forceSweep s a1 a2).settings = s.settings := by
  simp [State.forceSweep, apply_ite State.settings]

@[simp] theorem State.retrain_settings (s : State) (a1 : Reg32) :
    (@State.retrain s a1).settings = s.settings := by
  simp [State.retrain, apply_ite State.settings]

@[simp] theorem State.inject_settings (s : State) (a1 : Nat) (a2 : Reg32) :
    (@State.inject s a1 a2).settings = s.settings := by
  simp only [State.inject]; (repeat' split) <;> simp_all

@[simp] theorem State.corruptLink_settings (s : State) (a1 : Reg32) :
    (@State.corruptLink s a1).settings = s.settings := by
  simp [State.corruptLink, apply_ite State.settings]

/-! ### Settings -/

@[simp] theorem State.sizeAperture_settings (s : State) (a1 : Nat) :
    (@State.sizeAperture s a1).settings = s.settings := by
  simp [State.sizeAperture]

@[simp] theorem State.bindError_settings (s : State) (a1 : Nat) :
    (@State.bindError s a1).settings = s.settings := by
  simp [State.bindError]

@[simp] theorem State.altBind_settings (s : State) (a1 : Nat) (a2 : Reg32) :
    (@State.altBind s a1 a2).settings = s.settings := by
  simp [State.altBind, apply_ite State.settings]

@[simp] theorem State.altCtrl_settings (s : State) (a1 : Nat) (a2 : Reg32) :
    (@State.altCtrl s a1 a2).settings = s.settings := by
  simp [State.altCtrl, apply_ite State.settings]

@[simp] theorem State.winCommit_settings (s : State) (a1 a2 a3 : Nat) (a4 : Reg64) :
    (@State.winCommit s a1 a2 a3 a4).settings = s.settings := by
  simp only [State.winCommit]; (repeat' split) <;> simp_all

@[simp] theorem State.rebind_settings (s : State) (a1 : Reg32) :
    (@State.rebind s a1).settings = s.settings := by
  simp only [State.rebind]; (repeat' split) <;> simp_all

@[simp] theorem State.recipeError_settings (s : State) :
    (@State.recipeError s).settings = s.settings := by
  simp [State.recipeError]

@[simp] theorem State.budgetError_settings (s : State) :
    (@State.budgetError s).settings = s.settings := by
  simp [State.budgetError]

@[simp] theorem State.classError_settings (s : State) :
    (@State.classError s).settings = s.settings := by
  simp [State.classError]

@[simp] theorem State.colBudget_settings (s : State) (a1 : Nat) (a2 : Reg32) :
    (@State.colBudget s a1 a2).settings = s.settings := by
  simp [State.colBudget, apply_ite State.settings]

/-! ### Readout -/

@[simp] theorem State.readAt_settings (s : State) (a1 a2 a3 a4 a5 : Nat) :
    (@State.readAt s a1 a2 a3 a4 a5).2.settings = s.settings := by
  simp only [State.readAt]; (repeat' split) <;> simp_all

@[simp] theorem State.readEntry_settings (s : State) (a1 a2 a3 a4 a5 : Nat) :
    (@State.readEntry s a1 a2 a3 a4 a5).2.settings = s.settings := by
  simp only [State.readEntry]; (repeat' split) <;> simp_all

@[simp] theorem State.registerRead_settings (s : State) (a1 a2 a3 : Nat) :
    (@State.registerRead s a1 a2 a3).2.settings = s.settings := by
  simp only [State.registerRead]; (repeat' split) <;> simp_all

/-! ### Registers -/

@[simp] theorem State.writeAlt_settings (s : State) (a1 a2 : Nat) (a3 : Reg64) :
    (@State.writeAlt s a1 a2 a3).settings = s.settings := by
  unfold State.writeAlt; (repeat' split) <;> simp

@[simp] theorem State.writeWin_settings (s : State) (a1 a2 a3 : Nat) (a4 : Reg64) :
    (@State.writeWin s a1 a2 a3 a4).settings = s.settings := by
  simp only [State.writeWin]; (repeat' split) <;> simp_all

@[simp] theorem State.queBase_settings (s : State) (a1 : Nat) (a2 : Queue → Queue) :
    (@State.queBase s a1 a2).settings = s.settings := by
  simp [State.queBase]

@[simp] theorem State.writeQue_settings (s : State) (a1 : Nat) (a2 : Reg64) :
    (@State.writeQue s a1 a2).settings = s.settings := by
  unfold State.writeQue; (repeat' split) <;> simp

@[simp] theorem State.warnTest_settings (s : State) (a1 : Nat) :
    (@State.warnTest s a1).settings = s.settings := by
  simp [State.warnTest, apply_ite State.settings]

@[simp] theorem State.withFinish_settings (s : State) (a1 : State → Bool → State) (h1 : ∀ b0 b1, (a1 b0
    b1).settings = (b0).settings) :
    (@State.withFinish s a1).settings = s.settings := by
  simp [State.withFinish, h1]

@[simp] theorem State.writeHint_settings (s : State) (a1 a2 a3 : Nat) (a4 : Reg32) :
    (@State.writeHint s a1 a2 a3 a4).settings = s.settings := by
  simp [State.writeHint, apply_ite State.settings]

@[simp] theorem State.writeGen_settings (s : State) (a1 : Nat) (a2 : Reg32) :
    (@State.writeGen s a1 a2).settings = s.settings := by
  simp [State.writeGen, apply_ite State.settings]

@[simp] theorem State.msixWrite_settings (s : State) (a1 a2 : Nat) (a3 : Reg32) :
    (@State.msixWrite s a1 a2 a3).settings = s.settings := by
  simp [State.msixWrite, apply_ite State.settings]

@[simp] theorem State.configWrite_settings (s : State) (a1 : Nat) (a2 : Reg64) :
    (@State.configWrite s a1 a2).settings = s.settings := by
  unfold State.configWrite
  refine State.config_settings _ _ _ ?_
  intros
  simp only []
  split <;> simp

end Sys2Proof.Machine
end

