-- ==== Sys2Proof/Laws/Meanings.lean ====
section
/-! SUPPORT. The meanings that change no setting, one lemma each: they leave the settings that the command
began with. -/

namespace Sys2Proof.Machine

open Sys2Proof

/-! ### HostPath -/

theorem execLoad_settings (a0 a1 a2 a3 : Nat) (a4 : ReadEnv) (s : State) :
    ∀ t, @execLoad a0 a1 a2 a3 a4 s = .next t → t.settings = (s.start a0).settings := by
  rintro _ ⟨⟩; simp

theorem execStore_settings (a0 a1 a2 a3 : Nat) (a4 : Line) (a5 : BitVec 64) (a6 : Bool) (a7 : ReadEnv) (s : State) :
    ∀ t, @execStore a0 a1 a2 a3 a4 a5 a6 a7 s = .next t → t.settings = (s.start a0).settings := by
  intro t h
  simp only [execStore] at h
  (repeat' split at h) <;> cases h <;> simp

theorem execPeerRead_settings (a0 a1 a2 a3 a4 : Nat) (a5 : BitVec 16) (a6 : ReadEnv) (s : State) :
    ∀ t, @execPeerRead a0 a1 a2 a3 a4 a5 a6 s = .next t → t.settings = (s.start a0).settings := by
  intro t h
  simp only [execPeerRead] at h
  (repeat' split at h) <;> cases h <;> simp

theorem execPeerWrite_settings (a0 a1 a2 a3 a4 : Nat) (a5 : BitVec 16) (a6 : List Line) (a7 : Bool) (a8 : ReadEnv)
    (s : State) :
    ∀ t, @execPeerWrite a0 a1 a2 a3 a4 a5 a6 a7 a8 s = .next t → t.settings = (s.start a0).settings := by
  intro t h
  simp only [execPeerWrite] at h
  (repeat' split at h) <;> cases h <;> simp

theorem execMeterRelease_settings (a0 : Nat) (a1 : ReadEnv) (s : State) :
    ∀ t, @execMeterRelease a0 a1 s = .next t → t.settings = (s.start a0).settings := by
  rintro _ ⟨⟩; simp

theorem execUrgencyRaise_settings (a0 a1 : Nat) (s : State) :
    ∀ t, @execUrgencyRaise a0 a1 s = .next t → t.settings = (s.start a0).settings := by
  intro t h
  simp only [execUrgencyRaise] at h
  (repeat' split at h) <;> cases h <;> simp

/-! ### Commands -/

theorem execPacedRelease_settings (a0 a1 : Nat) (s : State) :
    ∀ t, @execPacedRelease a0 a1 s = .next t → t.settings = (s.start a0).settings := by
  intro t h
  simp only [execPacedRelease] at h
  (repeat' split at h) <;> cases h <;> simp

/-! ### Sprig -/

theorem execSprigBatchAck_settings (a0 a1 a2 : Nat) (a3 : Bool) (a4 : ReadEnv) (s : State) :
    ∀ t, @execSprigBatchAck a0 a1 a2 a3 a4 s = .next t → t.settings = (s.start a0).settings := by
  intro t h
  simp only [execSprigBatchAck] at h
  (repeat' split at h) <;> cases h <;> simp

theorem execSprigCoreTimeout_settings (a0 a1 : Nat) (s : State) :
    ∀ t, @execSprigCoreTimeout a0 a1 s = .next t → t.settings = (s.start a0).settings := by
  intro t h
  simp only [execSprigCoreTimeout] at h
  (repeat' split at h) <;> cases h <;> simp

/-! ### Matrix -/

theorem execSynthJobDone_settings (a0 a1 a2 : Nat) (a3 : Bool) (a4 : ReadEnv) (s : State) :
    ∀ t, @execSynthJobDone a0 a1 a2 a3 a4 s = .next t → t.settings = (s.start a0).settings := by
  intro t h
  unfold execSynthJobDone at h
  generalize hu : s.startEnv a0 a4 = u at h
  have hs : u.settings = (s.start a0).settings := by rw [← hu]; simp
  rw [← hs]
  dsimp only at h
  split at h
  · injection h with h; rw [← h]
  · cases a3
    · injection h with h; rw [← h]; simp
    · injection h with h; rw [← h]; simp

/-! ### Extents -/

theorem execResizeMoveComplete_settings (a0 a1 : Nat) (a2 : ReadEnv) (s : State) :
    ∀ t, @execResizeMoveComplete a0 a1 a2 s = .next t → t.settings = (s.start a0).settings := by
  intro t h
  simp only [execResizeMoveComplete] at h
  (repeat' split at h) <;> cases h <;> simp

theorem execRevokeComplete_settings (a0 a1 : Nat) (s : State) :
    ∀ t, @execRevokeComplete a0 a1 s = .next t → t.settings = (s.start a0).settings := by
  intro t h
  simp only [execRevokeComplete] at h
  split at h
  · cases h; rfl
  · repeat' split at h
    all_goals cases h
    all_goals (repeat' split) <;> simp

/-! ### Versions -/

theorem execBisnpResponse_settings (a0 a1 a2 : Nat) (a3 : List Nat) (s : State) :
    ∀ t, @execBisnpResponse a0 a1 a2 a3 s = .next t → t.settings = (s.start a0).settings := by
  rintro _ ⟨⟩; simp [apply_ite State.settings]

theorem execPublishCommit_settings (a0 a1 : Nat) (s : State) :
    ∀ t, @execPublishCommit a0 a1 s = .next t → t.settings = (s.start a0).settings := by
  intro t h
  simp only [execPublishCommit] at h
  (repeat' split at h) <;> cases h <;> simp

/-! ### Fills -/

theorem execMergeBufferFill_settings (a0 a1 a2 : Nat) (a3 : ReadEnv) (s : State) :
    ∀ t, @execMergeBufferFill a0 a1 a2 a3 s = .next t → t.settings = (s.start a0).settings := by
  intro t h
  simp only [execMergeBufferFill] at h
  (repeat' split at h) <;> cases h <;> simp

theorem execMergeFlushAge_settings (a0 a1 a2 : Nat) (a3 : ReadEnv) (s : State) :
    ∀ t, @execMergeFlushAge a0 a1 a2 a3 s = .next t → t.settings = (s.start a0).settings := by
  intro t h
  simp only [execMergeFlushAge] at h
  (repeat' split at h) <;> cases h <;> simp

theorem execFillComplete_settings (a0 a1 a2 a3 : Nat) (a4 : List Nat) (a5 : ReadEnv) (s : State) :
    ∀ t, @execFillComplete a0 a1 a2 a3 a4 a5 s = .next t → t.settings = (s.start a0).settings := by
  intro t h
  simp only [execFillComplete] at h
  (repeat' split at h) <;> cases h <;> simp

theorem execWriteBack_settings (a0 a1 : Nat) (a2 : ReadEnv) (s : State) :
    ∀ t, @execWriteBack a0 a1 a2 s = .next t → t.settings = (s.start a0).settings := by
  intro t h
  simp only [execWriteBack] at h
  (repeat' split at h) <;> cases h <;> simp

theorem execFlashReadDone_settings (a0 a1 a2 a3 a4 : Nat) (s : State) :
    ∀ t, @execFlashReadDone a0 a1 a2 a3 a4 s = .next t → t.settings = (s.start a0).settings := by
  intro t h
  simp only [execFlashReadDone] at h
  (repeat' split at h) <;> cases h <;> simp

theorem execRebuildImage_settings (a0 a1 : Nat) (s : State) :
    ∀ t, @execRebuildImage a0 a1 s = .next t → t.settings = (s.start a0).settings := by
  intro t h
  simp only [execRebuildImage] at h
  (repeat' split at h) <;> cases h <;> simp

theorem execRelocation_settings (a0 a1 a2 a3 : Nat) (s : State) :
    ∀ t, @execRelocation a0 a1 a2 a3 s = .next t → t.settings = (s.start a0).settings := by
  rintro _ ⟨⟩; simp

theorem execShadowCopy_settings (a0 a1 a2 : Nat) (a3 : ReadEnv) (s : State) :
    ∀ t, @execShadowCopy a0 a1 a2 a3 s = .next t → t.settings = (s.start a0).settings := by
  intro t h
  simp only [execShadowCopy] at h
  (repeat' split at h) <;> cases h <;> simp

/-! ### Snapshots -/

theorem execSnapshotRelease_settings (a0 a1 : Nat) (s : State) :
    ∀ t, @execSnapshotRelease a0 a1 s = .next t → t.settings = (s.start a0).settings := by
  intro t h
  simp only [execSnapshotRelease] at h
  (repeat' split at h) <;> cases h <;> simp

theorem execFlashProgramDone_settings (a0 a1 a2 : Nat) (s : State) :
    ∀ t, @execFlashProgramDone a0 a1 a2 s = .next t → t.settings = (s.start a0).settings := by
  intro t h
  simp only [execFlashProgramDone] at h
  (repeat' split at h) <;> cases h <;> simp

/-! ### Resets -/

theorem execQuiesce_settings (a0 a1 : Nat) (s : State) :
    ∀ t, @execQuiesce a0 a1 s = .next t → t.settings = (s.start a0).settings := by
  intro t h
  simp only [execQuiesce] at h
  (repeat' split at h) <;> cases h <;> simp

/-! ### Control -/

theorem execWaitCountReached_settings (a0 a1 : Nat) (s : State) :
    ∀ t, @execWaitCountReached a0 a1 s = .next t → t.settings = (s.start a0).settings := by
  intro t h
  simp only [execWaitCountReached] at h
  (repeat' split at h) <;> cases h <;> simp

theorem execReservationEffective_settings (a0 a1 a2 : Nat) (s : State) :
    ∀ t, @execReservationEffective a0 a1 a2 s = .next t → t.settings = (s.start a0).settings := by
  rintro _ ⟨⟩; simp

/-! ### Submit -/

theorem execPacketFetch_settings (a0 a1 a2 : Nat) (a3 : List Packet) (a4 : ReadEnv) (s : State) :
    ∀ t, @execPacketFetch a0 a1 a2 a3 a4 s = .next t → t.settings = (s.start a0).settings := by
  rintro _ ⟨⟩; simp

theorem execFetchError_settings (a0 a1 : Nat) (s : State) :
    ∀ t, @execFetchError a0 a1 s = .next t → t.settings = (s.start a0).settings := by
  intro t h
  simp only [execFetchError] at h
  (repeat' split at h) <;> cases h <;> simp

theorem execLaunchCountReached_settings (a0 a1 : Nat) (a2 : ReadEnv) (s : State) :
    ∀ t, @execLaunchCountReached a0 a1 a2 s = .next t → t.settings = (s.start a0).settings := by
  intro t h
  simp only [execLaunchCountReached] at h
  split at h
  · cases h; simp
  · split at h <;> cases h <;> simp

theorem execStationReport_settings (a0 a1 a2 : Nat) (a3 : ReadEnv) (s : State) :
    ∀ t, @execStationReport a0 a1 a2 a3 s = .next t → t.settings = (s.start a0).settings := by
  intro t h
  simp only [execStationReport] at h
  split at h
  · cases h; simp
  · split at h <;> cases h <;> simp

theorem execReplayInject_settings (a0 : Nat) (a1 : ReadEnv) (s : State) :
    ∀ t, @execReplayInject a0 a1 s = .next t → t.settings = (s.start a0).settings := by
  intro t h
  simp only [execReplayInject] at h
  split at h
  · cases h; simp
  · cases h; simp
  · split at h <;> cases h
    · simp
    · split <;> simp

/-! ### Barfin -/

theorem execFill_settings (a0 a1 : Nat) (a2 : Packet) (a3 : ReadEnv) (s : State) :
    ∀ t, @execFill a0 a1 a2 a3 s = .next t → t.settings = (s.start a0).settings := by
  rintro _ ⟨⟩; simp

theorem execCopy_settings (a0 a1 : Nat) (a2 : Packet) (a3 : ReadEnv) (s : State) :
    ∀ t, @execCopy a0 a1 a2 a3 s = .next t → t.settings = (s.start a0).settings := by
  rintro _ ⟨⟩; simp

theorem execCompare_settings (a0 a1 : Nat) (a2 : Packet) (a3 : ReadEnv) (s : State) :
    ∀ t, @execCompare a0 a1 a2 a3 s = .next t → t.settings = (s.start a0).settings := by
  rintro _ ⟨⟩; simp

theorem execReduce_settings (a0 a1 : Nat) (a2 : Packet) (a3 : ReadEnv) (s : State) :
    ∀ t, @execReduce a0 a1 a2 a3 s = .next t → t.settings = (s.start a0).settings := by
  rintro _ ⟨⟩; simp

theorem execScatterAdd_settings (a0 a1 : Nat) (a2 : Packet) (a3 : ReadEnv) (s : State) :
    ∀ t, @execScatterAdd a0 a1 a2 a3 s = .next t → t.settings = (s.start a0).settings := by
  rintro _ ⟨⟩; simp

theorem execGather_settings (a0 a1 : Nat) (a2 : Packet) (a3 : ReadEnv) (s : State) :
    ∀ t, @execGather a0 a1 a2 a3 s = .next t → t.settings = (s.start a0).settings := by
  rintro _ ⟨⟩; simp

theorem execRecipe_settings (a0 a1 : Nat) (a2 : Packet) (a3 : ReadEnv) (s : State) :
    ∀ t, @execRecipe a0 a1 a2 a3 s = .next t → t.settings = (s.start a0).settings := by
  rintro _ ⟨⟩; simp

theorem execMatmul_settings (a0 a1 : Nat) (a2 : Packet) (a3 : ReadEnv) (s : State) :
    ∀ t, @execMatmul a0 a1 a2 a3 s = .next t → t.settings = (s.start a0).settings := by
  rintro _ ⟨⟩; simp

theorem execSynth_settings (a0 a1 : Nat) (a2 : Packet) (a3 : ReadEnv) (s : State) :
    ∀ t, @execSynth a0 a1 a2 a3 s = .next t → t.settings = (s.start a0).settings := by
  rintro _ ⟨⟩; simp

theorem execHint_settings (a0 a1 : Nat) (a2 : Packet) (a3 : ReadEnv) (s : State) :
    ∀ t, @execHint a0 a1 a2 a3 s = .next t → t.settings = (s.start a0).settings := by
  rintro _ ⟨⟩; simp

theorem execPin_settings (a0 a1 : Nat) (a2 : Packet) (a3 : ReadEnv) (s : State) :
    ∀ t, @execPin a0 a1 a2 a3 s = .next t → t.settings = (s.start a0).settings := by
  rintro _ ⟨⟩; simp

theorem execUnpin_settings (a0 a1 : Nat) (a2 : Packet) (a3 : ReadEnv) (s : State) :
    ∀ t, @execUnpin a0 a1 a2 a3 s = .next t → t.settings = (s.start a0).settings := by
  rintro _ ⟨⟩; simp

theorem execPageIn_settings (a0 a1 : Nat) (a2 : Packet) (a3 : ReadEnv) (s : State) :
    ∀ t, @execPageIn a0 a1 a2 a3 s = .next t → t.settings = (s.start a0).settings := by
  rintro _ ⟨⟩; simp

theorem execPageOut_settings (a0 a1 : Nat) (a2 : Packet) (a3 : ReadEnv) (s : State) :
    ∀ t, @execPageOut a0 a1 a2 a3 s = .next t → t.settings = (s.start a0).settings := by
  rintro _ ⟨⟩; simp

theorem execOpen_settings (a0 a1 : Nat) (a2 : Packet) (a3 : ReadEnv) (s : State) :
    ∀ t, @execOpen a0 a1 a2 a3 s = .next t → t.settings = (s.start a0).settings := by
  rintro _ ⟨⟩; simp

theorem execPublish_settings (a0 a1 : Nat) (a2 : Packet) (a3 : ReadEnv) (s : State) :
    ∀ t, @execPublish a0 a1 a2 a3 s = .next t → t.settings = (s.start a0).settings := by
  rintro _ ⟨⟩; simp

theorem execClose_settings (a0 a1 : Nat) (a2 : Packet) (a3 : ReadEnv) (s : State) :
    ∀ t, @execClose a0 a1 a2 a3 s = .next t → t.settings = (s.start a0).settings := by
  rintro _ ⟨⟩; simp

theorem execSnapshot_settings (a0 a1 : Nat) (a2 : Packet) (a3 : ReadEnv) (s : State) :
    ∀ t, @execSnapshot a0 a1 a2 a3 s = .next t → t.settings = (s.start a0).settings := by
  rintro _ ⟨⟩; simp

theorem execDrain_settings (a0 a1 : Nat) (a2 : Packet) (a3 : ReadEnv) (s : State) :
    ∀ t, @execDrain a0 a1 a2 a3 s = .next t → t.settings = (s.start a0).settings := by
  rintro _ ⟨⟩; simp

theorem execRestore_settings (a0 a1 : Nat) (a2 : Packet) (a3 : ReadEnv) (s : State) :
    ∀ t, @execRestore a0 a1 a2 a3 s = .next t → t.settings = (s.start a0).settings := by
  rintro _ ⟨⟩; simp

theorem execGrant_settings (a0 a1 : Nat) (a2 : Packet) (a3 : ReadEnv) (s : State) :
    ∀ t, @execGrant a0 a1 a2 a3 s = .next t → t.settings = (s.start a0).settings := by
  rintro _ ⟨⟩; simp

theorem execRevoke_settings (a0 a1 : Nat) (a2 : Packet) (a3 : ReadEnv) (s : State) :
    ∀ t, @execRevoke a0 a1 a2 a3 s = .next t → t.settings = (s.start a0).settings := by
  rintro _ ⟨⟩; simp

theorem execResize_settings (a0 a1 : Nat) (a2 : Packet) (a3 : ReadEnv) (s : State) :
    ∀ t, @execResize a0 a1 a2 a3 s = .next t → t.settings = (s.start a0).settings := by
  rintro _ ⟨⟩; simp

theorem execQuery_settings (a0 a1 : Nat) (a2 : Packet) (a3 : ReadEnv) (s : State) :
    ∀ t, @execQuery a0 a1 a2 a3 s = .next t → t.settings = (s.start a0).settings := by
  rintro _ ⟨⟩; simp

theorem execReserve_settings (a0 a1 : Nat) (a2 : Packet) (a3 : ReadEnv) (s : State) :
    ∀ t, @execReserve a0 a1 a2 a3 s = .next t → t.settings = (s.start a0).settings := by
  rintro _ ⟨⟩; simp

theorem execRelease_settings (a0 a1 : Nat) (a2 : Packet) (a3 : ReadEnv) (s : State) :
    ∀ t, @execRelease a0 a1 a2 a3 s = .next t → t.settings = (s.start a0).settings := by
  rintro _ ⟨⟩; simp

theorem execFence_settings (a0 a1 : Nat) (a2 : Packet) (a3 : ReadEnv) (s : State) :
    ∀ t, @execFence a0 a1 a2 a3 s = .next t → t.settings = (s.start a0).settings := by
  rintro _ ⟨⟩; simp

theorem execWaitCount_settings (a0 a1 : Nat) (a2 : Packet) (a3 : ReadEnv) (s : State) :
    ∀ t, @execWaitCount a0 a1 a2 a3 s = .next t → t.settings = (s.start a0).settings := by
  rintro _ ⟨⟩; simp

theorem execMark_settings (a0 a1 : Nat) (a2 : Packet) (a3 : ReadEnv) (s : State) :
    ∀ t, @execMark a0 a1 a2 a3 s = .next t → t.settings = (s.start a0).settings := by
  rintro _ ⟨⟩; simp

theorem execKeyLoad_settings (a0 a1 : Nat) (a2 : Packet) (a3 : ReadEnv) (s : State) :
    ∀ t, @execKeyLoad a0 a1 a2 a3 s = .next t → t.settings = (s.start a0).settings := by
  rintro _ ⟨⟩; simp

theorem execKeyDrop_settings (a0 a1 : Nat) (a2 : Packet) (a3 : ReadEnv) (s : State) :
    ∀ t, @execKeyDrop a0 a1 a2 a3 s = .next t → t.settings = (s.start a0).settings := by
  rintro _ ⟨⟩; simp

theorem execPlanSet_settings (a0 a1 : Nat) (a2 : Packet) (a3 : ReadEnv) (s : State) :
    ∀ t, @execPlanSet a0 a1 a2 a3 s = .next t → t.settings = (s.start a0).settings := by
  rintro _ ⟨⟩; simp

theorem execPowerSet_settings (a0 a1 : Nat) (a2 : Packet) (a3 : ReadEnv) (s : State) :
    ∀ t, @execPowerSet a0 a1 a2 a3 s = .next t → t.settings = (s.start a0).settings := by
  rintro _ ⟨⟩; simp

theorem execReplan_settings (a0 a1 : Nat) (a2 : Packet) (a3 : ReadEnv) (s : State) :
    ∀ t, @execReplan a0 a1 a2 a3 s = .next t → t.settings = (s.start a0).settings := by
  rintro _ ⟨⟩; simp

theorem execAltReset_settings (a0 a1 : Nat) (a2 : Packet) (a3 : ReadEnv) (s : State) :
    ∀ t, @execAltReset a0 a1 a2 a3 s = .next t → t.settings = (s.start a0).settings := by
  rintro _ ⟨⟩; simp

theorem execCalendarSet_settings (a0 a1 : Nat) (a2 : Packet) (a3 : ReadEnv) (s : State) :
    ∀ t, @execCalendarSet a0 a1 a2 a3 s = .next t → t.settings = (s.start a0).settings := by
  rintro _ ⟨⟩; simp

theorem execTestOpen_settings (a0 a1 : Nat) (a2 : Packet) (a3 : ReadEnv) (s : State) :
    ∀ t, @execTestOpen a0 a1 a2 a3 s = .next t → t.settings = (s.start a0).settings := by
  rintro _ ⟨⟩; simp

theorem execReplay_settings (a0 a1 : Nat) (a2 : Packet) (a3 : ReadEnv) (s : State) :
    ∀ t, @execReplay a0 a1 a2 a3 s = .next t → t.settings = (s.start a0).settings := by
  rintro _ ⟨⟩; simp

theorem execFwStage_settings (a0 a1 : Nat) (a2 : Packet) (a3 : ReadEnv) (s : State) :
    ∀ t, @execFwStage a0 a1 a2 a3 s = .next t → t.settings = (s.start a0).settings := by
  rintro _ ⟨⟩; simp

/-! ### QueueRows -/

theorem execHeldCompletionWrite_settings (a0 a1 : Nat) (s : State) :
    ∀ t, @execHeldCompletionWrite a0 a1 s = .next t → t.settings = (s.start a0).settings := by
  intro t h
  simp only [execHeldCompletionWrite] at h
  (repeat' split at h) <;> simp only [Host.Outcome.next.injEq, reduceCtorEq] at h <;> subst h <;> simp

theorem execCompletionWriteError_settings (a0 a1 : Nat) (s : State) :
    ∀ t, @execCompletionWriteError a0 a1 s = .next t → t.settings = (s.start a0).settings := by
  intro t h
  simp only [execCompletionWriteError] at h
  (repeat' split at h) <;> cases h <;> simp

theorem execEventWrite_settings (a0 a1 : Nat) (s : State) :
    ∀ t, @execEventWrite a0 a1 s = .next t → t.settings = (s.start a0).settings := by
  rintro _ ⟨⟩; simp

theorem execEventWriteError_settings (a0 a1 : Nat) (s : State) :
    ∀ t, @execEventWriteError a0 a1 s = .next t → t.settings = (s.start a0).settings := by
  intro t h
  simp only [execEventWriteError] at h
  (repeat' split at h) <;> cases h <;> simp

theorem execDoorbell_settings (a0 a1 a2 a3 : Nat) (a4 : Reg64) (s : State) :
    ∀ t, @execDoorbell a0 a1 a2 a3 a4 s = .next t → t.settings = (s.start a0).settings := by
  rintro _ ⟨⟩; simp

theorem execQueEnable_settings (a0 a1 a2 : Nat) (a3 : Reg32) (s : State) :
    ∀ t, @execQueEnable a0 a1 a2 a3 s = .next t → t.settings = (s.start a0).settings := by
  rintro _ ⟨⟩; simp

theorem execQueRestart_settings (a0 a1 a2 : Nat) (a3 : Reg32) (s : State) :
    ∀ t, @execQueRestart a0 a1 a2 a3 s = .next t → t.settings = (s.start a0).settings := by
  rintro _ ⟨⟩; simp

theorem execQueOwner_settings (a0 a1 : Nat) (a2 : Reg32) (s : State) :
    ∀ t, @execQueOwner a0 a1 a2 s = .next t → t.settings = (s.start a0).settings := by
  rintro _ ⟨⟩; simp

theorem execEvtHead_settings (a0 a1 a2 : Nat) (a3 : Reg32) (s : State) :
    ∀ t, @execEvtHead a0 a1 a2 a3 s = .next t → t.settings = (s.start a0).settings := by
  rintro _ ⟨⟩; simp

theorem execEvtEnable_settings (a0 a1 a2 : Nat) (a3 : Reg32) (s : State) :
    ∀ t, @execEvtEnable a0 a1 a2 a3 s = .next t → t.settings = (s.start a0).settings := by
  rintro _ ⟨⟩; simp

/-! ### Determinism -/

theorem execHashWindowClose_settings (a0 a1 : Nat) (s : State) :
    ∀ t, @execHashWindowClose a0 a1 s = .next t → t.settings = (s.start a0).settings := by
  intro t h
  simp only [execHashWindowClose] at h
  (repeat' split at h) <;> cases h <;> simp

theorem execReplayBufferDrain_settings (a0 a1 : Nat) (s : State) :
    ∀ t, @execReplayBufferDrain a0 a1 s = .next t → t.settings = (s.start a0).settings := by
  intro t h
  simp only [execReplayBufferDrain] at h
  (repeat' split at h) <;> cases h <;> simp

theorem execLogCopy_settings (a0 : Nat) (a1 : Reg32) (s : State) :
    ∀ t, @execLogCopy a0 a1 s = .next t → t.settings = (s.start a0).settings := by
  rintro _ ⟨⟩; simp

theorem execLogCopyDone_settings (a0 : Nat) (s : State) :
    ∀ t, @execLogCopyDone a0 s = .next t → t.settings = (s.start a0).settings := by
  intro t h
  simp only [execLogCopyDone] at h
  (repeat' split at h) <;> cases h <;> simp

/-! ### Dram -/

theorem execRefreshDue_settings (a0 a1 : Nat) (a2 : Bool) (s : State) :
    ∀ t, @execRefreshDue a0 a1 a2 s = .next t → t.settings = (s.start a0).settings := by
  intro t h
  simp only [execRefreshDue] at h
  (repeat' split at h) <;> cases h <;> simp

theorem execPullInRefresh_settings (a0 a1 a2 : Nat) (a3 : Bool) (s : State) :
    ∀ t, @execPullInRefresh a0 a1 a2 a3 s = .next t → t.settings = (s.start a0).settings := by
  intro t h
  simp only [execPullInRefresh] at h
  (repeat' split at h) <;> cases h <;> simp

theorem execRetrainingPause_settings (a0 a1 a2 : Nat) (a3 : Bool) (s : State) :
    ∀ t, @execRetrainingPause a0 a1 a2 a3 s = .next t → t.settings = (s.start a0).settings := by
  intro t h
  simp only [execRetrainingPause] at h
  (repeat' split at h) <;> cases h <;> simp

theorem execSweepSlice_settings (a0 a1 a2 : Nat) (s : State) :
    ∀ t, @execSweepSlice a0 a1 a2 s = .next t → t.settings = (s.start a0).settings := by
  intro t h
  simp only [execSweepSlice] at h
  (repeat' split at h) <;> cases h <;> simp

theorem execEvacuationChunkCopy_settings (a0 a1 a2 : Nat) (s : State) :
    ∀ t, @execEvacuationChunkCopy a0 a1 a2 s = .next t → t.settings = (s.start a0).settings := by
  intro t h
  simp only [execEvacuationChunkCopy] at h
  (repeat' split at h) <;> cases h <;> simp

theorem execChunkSwitch_settings (a0 a1 : Nat) (s : State) :
    ∀ t, @execChunkSwitch a0 a1 s = .next t → t.settings = (s.start a0).settings := by
  intro t h
  simp only [execChunkSwitch] at h
  (repeat' split at h) <;> cases h <;> simp

/-! ### Endpoint -/

theorem execLinkUp_settings (a0 a1 a2 a3 : Nat) (s : State) :
    ∀ t, @execLinkUp a0 a1 a2 a3 s = .next t → t.settings = (s.start a0).settings := by
  rintro _ ⟨⟩; simp [apply_ite State.settings]

theorem execLinkTrainingRetry_settings (a0 a1 a2 a3 : Nat) (s : State) :
    ∀ t, @execLinkTrainingRetry a0 a1 a2 a3 s = .next t → t.settings = (s.start a0).settings := by
  rintro _ ⟨⟩; simp [apply_ite State.settings]

theorem execLinkDown_settings (a0 a1 : Nat) (s : State) :
    ∀ t, @execLinkDown a0 a1 s = .next t → t.settings = (s.start a0).settings := by
  rintro _ ⟨⟩; simp [apply_ite State.settings]

theorem execLinkDegraded_settings (a0 a1 a2 a3 : Nat) (s : State) :
    ∀ t, @execLinkDegraded a0 a1 a2 a3 s = .next t → t.settings = (s.start a0).settings := by
  intro t h
  simp only [execLinkDegraded] at h
  (repeat' split at h) <;> cases h <;> simp

theorem execPerstAssert_settings (a0 a1 : Nat) (s : State) :
    ∀ t, @execPerstAssert a0 a1 s = .next t → t.settings = (s.start a0).settings := by
  intro t h
  simp only [execPerstAssert] at h
  (repeat' split at h) <;> cases h <;> simp

theorem execPerstDeassert_settings (a0 a1 : Nat) (s : State) :
    ∀ t, @execPerstDeassert a0 a1 s = .next t → t.settings = (s.start a0).settings := by
  intro t h
  simp only [execPerstDeassert] at h
  (repeat' split at h) <;> cases h <;> simp

theorem execFunctionLevelReset_settings (a0 a1 a2 : Nat) (s : State) :
    ∀ t, @execFunctionLevelReset a0 a1 a2 s = .next t → t.settings = (s.start a0).settings := by
  rintro _ ⟨⟩; simp

theorem execHdmDecoderCommit_settings (a0 a1 a2 a3 : Nat) (a4 : HdmDecoder) (s : State) :
    ∀ t, @execHdmDecoderCommit a0 a1 a2 a3 a4 s = .next t → t.settings = (s.start a0).settings := by
  rintro _ ⟨⟩; simp

theorem execBusMasterClear_settings (a0 a1 a2 : Nat) (s : State) :
    ∀ t, @execBusMasterClear a0 a1 a2 s = .next t → t.settings = (s.start a0).settings := by
  intro t h
  simp only [execBusMasterClear] at h
  (repeat' split at h) <;> cases h <;>
    first
    | rfl
    | (refine (State.config_settings _ _ _ ?_).trans rfl; intros; (repeat' split) <;> simp_all)

theorem execBusMasterSet_settings (a0 a1 a2 : Nat) (s : State) :
    ∀ t, @execBusMasterSet a0 a1 a2 s = .next t → t.settings = (s.start a0).settings := by
  rintro _ ⟨⟩; simp

theorem execD3hotEntry_settings (a0 a1 a2 : Nat) (s : State) :
    ∀ t, @execD3hotEntry a0 a1 a2 s = .next t → t.settings = (s.start a0).settings := by
  intro t h
  simp only [execD3hotEntry] at h
  (repeat' split at h) <;> cases h <;>
    first
    | rfl
    | (refine (State.config_settings _ _ _ ?_).trans rfl; intros; (repeat' split) <;> simp_all)

theorem execD0Entry_settings (a0 a1 a2 : Nat) (s : State) :
    ∀ t, @execD0Entry a0 a1 a2 s = .next t → t.settings = (s.start a0).settings := by
  rintro _ ⟨⟩; simp [apply_ite State.settings]

theorem execPartLowPowerEntry_settings (a0 : Nat) (a1 : ReadEnv) (s : State) :
    ∀ t, @execPartLowPowerEntry a0 a1 s = .next t → t.settings = (s.start a0).settings := by
  intro t h
  simp only [execPartLowPowerEntry] at h
  (repeat' split at h) <;> cases h <;> simp

theorem execLowPowerExitDone_settings (a0 : Nat) (a1 : ExitEnv) (s : State) :
    ∀ t, @execLowPowerExitDone a0 a1 s = .next t → t.settings = (s.start a0).settings := by
  intro t h
  simp only [execLowPowerExitDone] at h
  split at h <;> cases h <;> simp [apply_ite State.settings]

theorem execMemorySpaceEnable_settings (a0 a1 a2 : Nat) (a3 : Bool) (s : State) :
    ∀ t, @execMemorySpaceEnable a0 a1 a2 a3 s = .next t → t.settings = (s.start a0).settings := by
  rintro _ ⟨⟩; simp

theorem execMsixVectorUnmask_settings (a0 a1 a2 a3 : Nat) (s : State) :
    ∀ t, @execMsixVectorUnmask a0 a1 a2 a3 s = .next t → t.settings = (s.start a0).settings := by
  rintro _ ⟨⟩; simp

theorem execIdeKm_settings (a0 a1 a2 a3 : Nat) (a4 : Bool) (s : State) :
    ∀ t, @execIdeKm a0 a1 a2 a3 a4 s = .next t → t.settings = (s.start a0).settings := by
  intro t h
  simp only [execIdeKm] at h
  (repeat' split at h) <;> cases h <;> simp

/-! ### Mailbox -/

theorem execIdentify_settings (a0 a1 a2 : Nat) (s : State) :
    ∀ t, @execIdentify a0 a1 a2 s = .next t → t.settings = (s.start a0).settings := by
  rintro _ ⟨⟩; simp

theorem execGetEventRecords_settings (a0 a1 a2 a3 : Nat) (s : State) :
    ∀ t, @execGetEventRecords a0 a1 a2 a3 s = .next t → t.settings = (s.start a0).settings := by
  rintro _ ⟨⟩
  refine (State.mailbox_settings _ _ _ _ ?_).trans rfl
  intros; (repeat' split) <;> simp

theorem execClearEventRecords_settings (a0 a1 a2 a3 : Nat) (a4 : List Nat) (s : State) :
    ∀ t, @execClearEventRecords a0 a1 a2 a3 a4 s = .next t → t.settings = (s.start a0).settings := by
  rintro _ ⟨⟩
  refine (State.mailbox_settings _ _ _ _ ?_).trans rfl
  intros; (repeat' split) <;> simp

theorem execGetEventInterruptPolicy_settings (a0 a1 a2 : Nat) (s : State) :
    ∀ t, @execGetEventInterruptPolicy a0 a1 a2 s = .next t → t.settings = (s.start a0).settings := by
  rintro _ ⟨⟩; simp

theorem execSetEventInterruptPolicy_settings (a0 a1 a2 a3 a4 : Nat) (s : State) :
    ∀ t, @execSetEventInterruptPolicy a0 a1 a2 a3 a4 s = .next t → t.settings = (s.start a0).settings := by
  rintro _ ⟨⟩; simp [apply_ite State.settings]

theorem execGetTimestamp_settings (a0 a1 a2 : Nat) (s : State) :
    ∀ t, @execGetTimestamp a0 a1 a2 s = .next t → t.settings = (s.start a0).settings := by
  rintro _ ⟨⟩; simp

theorem execGetSupportedLogs_settings (a0 a1 a2 : Nat) (s : State) :
    ∀ t, @execGetSupportedLogs a0 a1 a2 s = .next t → t.settings = (s.start a0).settings := by
  rintro _ ⟨⟩; simp

theorem execGetLog_settings (a0 a1 a2 a3 a4 : Nat) (s : State) :
    ∀ t, @execGetLog a0 a1 a2 a3 a4 s = .next t → t.settings = (s.start a0).settings := by
  rintro _ ⟨⟩; simp [apply_ite State.settings]

theorem execIdentifyMemoryDevice_settings (a0 a1 a2 : Nat) (s : State) :
    ∀ t, @execIdentifyMemoryDevice a0 a1 a2 s = .next t → t.settings = (s.start a0).settings := by
  rintro _ ⟨⟩; simp

theorem execGetDynamicCapacityConfiguration_settings (a0 a1 a2 : Nat) (s : State) :
    ∀ t, @execGetDynamicCapacityConfiguration a0 a1 a2 s = .next t → t.settings = (s.start a0).settings := by
  rintro _ ⟨⟩; simp

theorem execGetDynamicCapacityExtentList_settings (a0 a1 a2 : Nat) (s : State) :
    ∀ t, @execGetDynamicCapacityExtentList a0 a1 a2 s = .next t → t.settings = (s.start a0).settings := by
  rintro _ ⟨⟩; simp

theorem execAddDynamicCapacityResponse_settings (a0 a1 a2 : Nat) (a3 : List DcdExtent) (s : State) :
    ∀ t, @execAddDynamicCapacityResponse a0 a1 a2 a3 s = .next t → t.settings = (s.start a0).settings := by
  rintro _ ⟨⟩; simp [apply_ite State.settings]

theorem execReleaseDynamicCapacity_settings (a0 a1 a2 : Nat) (a3 : List DcdExtent) (s : State) :
    ∀ t, @execReleaseDynamicCapacity a0 a1 a2 a3 s = .next t → t.settings = (s.start a0).settings := by
  rintro _ ⟨⟩; simp [apply_ite State.settings]

theorem execGetLdInfo_settings (a0 a1 : Nat) (s : State) :
    ∀ t, @execGetLdInfo a0 a1 s = .next t → t.settings = (s.start a0).settings := by
  rintro _ ⟨⟩; simp

theorem execGetLdAllocations_settings (a0 a1 : Nat) (s : State) :
    ∀ t, @execGetLdAllocations a0 a1 s = .next t → t.settings = (s.start a0).settings := by
  rintro _ ⟨⟩; simp

theorem execGetQosControl_settings (a0 a1 : Nat) (s : State) :
    ∀ t, @execGetQosControl a0 a1 s = .next t → t.settings = (s.start a0).settings := by
  rintro _ ⟨⟩; simp

theorem execGetQosStatus_settings (a0 a1 a2 : Nat) (s : State) :
    ∀ t, @execGetQosStatus a0 a1 a2 s = .next t → t.settings = (s.start a0).settings := by
  rintro _ ⟨⟩; simp

/-! ### Clock -/

theorem execCountRefLoss_settings (a0 : Nat) (s : State) :
    ∀ t, @execCountRefLoss a0 s = .next t → t.settings = (s.start a0).settings := by
  intro t h
  simp only [execCountRefLoss] at h
  (repeat' split at h) <;> cases h <;> simp

theorem execCountRefReturn_settings (a0 : Nat) (s : State) :
    ∀ t, @execCountRefReturn a0 s = .next t → t.settings = (s.start a0).settings := by
  intro t h
  simp only [execCountRefReturn] at h
  (repeat' split at h) <;> cases h <;> simp

theorem execSyncArm_settings (a0 : Nat) (a1 : Reg32) (s : State) :
    ∀ t, @execSyncArm a0 a1 s = .next t → t.settings = (s.start a0).settings := by
  rintro _ ⟨⟩; simp

theorem execSlewComplete_settings (a0 : Nat) (s : State) :
    ∀ t, @execSlewComplete a0 s = .next t → t.settings = (s.start a0).settings := by
  rintro _ ⟨⟩; simp

/-! ### Integrity -/

theorem execPageWipe_settings (a0 : Nat) (s : State) :
    ∀ t, @execPageWipe a0 s = .next t → t.settings = (s.start a0).settings := by
  rintro _ ⟨⟩; (repeat' split) <;> simp

theorem execBucketLeak_settings (a0 : Nat) (s : State) :
    ∀ t, @execBucketLeak a0 s = .next t → t.settings = (s.start a0).settings := by
  rintro _ ⟨⟩; simp

theorem execScrubPassStart_settings (a0 : Nat) (s : State) :
    ∀ t, @execScrubPassStart a0 s = .next t → t.settings = (s.start a0).settings := by
  intro t h
  simp only [execScrubPassStart] at h
  (repeat' split at h) <;> cases h <;> simp

theorem execScrubFrame_settings (a0 : Nat) (a1 : ReadEnv) (s : State) :
    ∀ t, @execScrubFrame a0 a1 s = .next t → t.settings = (s.start a0).settings := by
  intro t h
  simp only [execScrubFrame] at h
  (repeat' split at h) <;> cases h <;> simp

/-! ### Tamian -/

theorem execHello_settings (a0 a1 a2 : Nat) (a3 a4 : Bool) (a5 : Reg32) (a6 : Nat) (s : State) :
    ∀ t, @execHello a0 a1 a2 a3 a4 a5 a6 s = .next t → t.settings = (s.start a0).settings := by
  intro t h
  simp only [execHello] at h
  (repeat' split at h) <;> simp only [Host.Outcome.next.injEq, reduceCtorEq] at h <;> subst h <;> simp

theorem execTamianLinkDown_settings (a0 a1 a2 : Nat) (s : State) :
    ∀ t, @execTamianLinkDown a0 a1 a2 s = .next t → t.settings = (s.start a0).settings := by
  intro t h
  simp only [execTamianLinkDown] at h
  (repeat' split at h) <;> cases h <;> simp

theorem execTamianTrainingRetry_settings (a0 a1 a2 : Nat) (s : State) :
    ∀ t, @execTamianTrainingRetry a0 a1 a2 s = .next t → t.settings = (s.start a0).settings := by
  intro t h
  simp only [execTamianTrainingRetry] at h
  (repeat' split at h) <;> cases h <;> simp

theorem execFlitReplayRequest_settings (a0 a1 a2 : Nat) (s : State) :
    ∀ t, @execFlitReplayRequest a0 a1 a2 s = .next t → t.settings = (s.start a0).settings := by
  rintro _ ⟨⟩; simp

theorem execReservedMessageType_settings (a0 a1 : Nat) (a2 : TamMsg) (s : State) :
    ∀ t, @execReservedMessageType a0 a1 a2 s = .next t → t.settings = (s.start a0).settings := by
  rintro _ ⟨⟩; simp

theorem execEcho_settings (a0 a1 : Nat) (a2 : TamMsg) (s : State) :
    ∀ t, @execEcho a0 a1 a2 s = .next t → t.settings = (s.start a0).settings := by
  rintro _ ⟨⟩; simp

theorem execEchoReply_settings (a0 a1 : Nat) (a2 : TamMsg) (s : State) :
    ∀ t, @execEchoReply a0 a1 a2 s = .next t → t.settings = (s.start a0).settings := by
  rintro _ ⟨⟩; simp

theorem execRttMeasure_settings (a0 : Nat) (s : State) :
    ∀ t, @execRttMeasure a0 s = .next t → t.settings = (s.start a0).settings := by
  intro t h
  simp only [execRttMeasure] at h
  split at h <;> cases h <;> simp

theorem execPageRead_settings (a0 a1 : Nat) (a2 : TamMsg) (a3 : ReadEnv) (s : State) :
    ∀ t, @execPageRead a0 a1 a2 a3 s = .next t → t.settings = (s.start a0).settings := by
  intro t h
  simp only [execPageRead] at h
  split at h <;> cases h
  · simp
  · refine (State.receive_settings _ _ _ ?_).trans (by simp)
    intros
    (repeat' split) <;> simp

theorem execPageData_settings (a0 a1 : Nat) (a2 : TamMsg) (s : State) :
    ∀ t, @execPageData a0 a1 a2 s = .next t → t.settings = (s.start a0).settings := by
  intro t h
  simp only [execPageData] at h
  (repeat' split at h) <;> cases h <;>
    first
    | rfl
    | (refine (State.receive_settings _ _ _ ?_).trans rfl; intros; (repeat' split) <;> simp_all)

theorem execPageWrite_settings (a0 a1 : Nat) (a2 : TamMsg) (s : State) :
    ∀ t, @execPageWrite a0 a1 a2 s = .next t → t.settings = (s.start a0).settings := by
  intro t h
  simp only [execPageWrite] at h
  (repeat' split at h) <;> cases h <;>
    first
    | rfl
    | (refine (State.receive_settings _ _ _ ?_).trans rfl; intros; (repeat' split) <;> simp_all)

theorem execOpenRemote_settings (a0 a1 : Nat) (a2 : TamMsg) (s : State) :
    ∀ t, @execOpenRemote a0 a1 a2 s = .next t → t.settings = (s.start a0).settings := by
  intro t h
  simp only [execOpenRemote] at h
  (repeat' split at h) <;> cases h <;>
    first
    | rfl
    | (refine (State.receive_settings _ _ _ ?_).trans rfl; intros; (repeat' split) <;> simp_all)

theorem execOpenReply_settings (a0 a1 : Nat) (a2 : TamMsg) (s : State) :
    ∀ t, @execOpenReply a0 a1 a2 s = .next t → t.settings = (s.start a0).settings := by
  intro t h
  simp only [execOpenReply] at h
  (repeat' split at h) <;> cases h <;>
    first
    | rfl
    | (refine (State.receive_settings _ _ _ ?_).trans rfl; intros; (repeat' split) <;> simp_all)

theorem execPublishRemote_settings (a0 a1 : Nat) (a2 : TamMsg) (s : State) :
    ∀ t, @execPublishRemote a0 a1 a2 s = .next t → t.settings = (s.start a0).settings := by
  intro t h
  simp only [execPublishRemote] at h
  (repeat' split at h) <;> cases h <;>
    first
    | rfl
    | (refine (State.receive_settings _ _ _ ?_).trans rfl; intros; (repeat' split) <;> simp_all)

theorem execPublishReply_settings (a0 a1 : Nat) (a2 : TamMsg) (s : State) :
    ∀ t, @execPublishReply a0 a1 a2 s = .next t → t.settings = (s.start a0).settings := by
  intro t h
  simp only [execPublishReply] at h
  (repeat' split at h) <;> cases h <;>
    first
    | rfl
    | (refine (State.receive_settings _ _ _ ?_).trans rfl; intros; (repeat' split) <;> simp_all)

theorem execCloseRemote_settings (a0 a1 : Nat) (a2 : TamMsg) (s : State) :
    ∀ t, @execCloseRemote a0 a1 a2 s = .next t → t.settings = (s.start a0).settings := by
  intro t h
  simp only [execCloseRemote] at h
  (repeat' split at h) <;> cases h <;>
    first
    | rfl
    | (refine (State.receive_settings _ _ _ ?_).trans rfl; intros; (repeat' split) <;> simp_all)

theorem execRevoked_settings (a0 a1 : Nat) (a2 : TamMsg) (s : State) :
    ∀ t, @execRevoked a0 a1 a2 s = .next t → t.settings = (s.start a0).settings := by
  intro t h
  simp only [execRevoked] at h
  (repeat' split at h) <;> cases h <;> simp

theorem execCloseRemoteResend_settings (a0 a1 : Nat) (s : State) :
    ∀ t, @execCloseRemoteResend a0 a1 s = .next t → t.settings = (s.start a0).settings := by
  intro t h
  simp only [execCloseRemoteResend] at h
  (repeat' split at h) <;> cases h <;> simp

theorem execPageWriteDiscard_settings (a0 a1 a2 : Nat) (s : State) :
    ∀ t, @execPageWriteDiscard a0 a1 a2 s = .next t → t.settings = (s.start a0).settings := by
  rintro _ ⟨⟩; simp

/-! ### Pairing -/

theorem execMirror_settings (a0 : Nat) (a1 : TamMsg) (s : State) :
    ∀ t, @execMirror a0 a1 s = .next t → t.settings = (s.start a0).settings := by
  intro t h
  simp only [execMirror] at h
  (repeat' split at h) <;> cases h <;> simp

theorem execMirrorAck_settings (a0 : Nat) (a1 : TamMsg) (s : State) :
    ∀ t, @execMirrorAck a0 a1 s = .next t → t.settings = (s.start a0).settings := by
  rintro _ ⟨⟩; simp [apply_ite State.settings]

theorem execHeartbeatSend_settings (a0 : Nat) (s : State) :
    ∀ t, @execHeartbeatSend a0 s = .next t → t.settings = (s.start a0).settings := by
  rintro _ ⟨⟩; simp [apply_ite State.settings]

theorem execHeartbeat_settings (a0 : Nat) (a1 : TamMsg) (s : State) :
    ∀ t, @execHeartbeat a0 a1 s = .next t → t.settings = (s.start a0).settings := by
  intro t h
  simp only [execHeartbeat] at h
  (repeat' split at h) <;> cases h <;>
    first
    | (simp_all; done)
    | (refine (foldl_settings _ (fun _ _ => ?_) _ _).trans ?_ <;> (repeat' split) <;> simp_all)

theorem execPartnerLoss_settings (a0 : Nat) (s : State) :
    ∀ t, @execPartnerLoss a0 s = .next t → t.settings = (s.start a0).settings := by
  intro t h
  simp only [execPartnerLoss] at h
  (repeat' split at h) <;> cases h <;> simp

theorem execTakeover_settings (a0 : Nat) (a1 : Reg32) (s : State) :
    ∀ t, @execTakeover a0 a1 s = .next t → t.settings = (s.start a0).settings := by
  rintro _ ⟨⟩; simp

theorem execRejoin_settings (a0 : Nat) (a1 : Reg32) (s : State) :
    ∀ t, @execRejoin a0 a1 s = .next t → t.settings = (s.start a0).settings := by
  rintro _ ⟨⟩; simp

theorem execResilverPage_settings (a0 : Nat) (a1 : TamMsg) (s : State) :
    ∀ t, @execResilverPage a0 a1 s = .next t → t.settings = (s.start a0).settings := by
  intro t h
  simp only [execResilverPage] at h
  (repeat' split at h) <;> cases h <;> simp

theorem execTamianRequestTimeout_settings (a0 a1 : Nat) (s : State) :
    ∀ t, @execTamianRequestTimeout a0 a1 s = .next t → t.settings = (s.start a0).settings := by
  intro t h
  simp only [execTamianRequestTimeout] at h
  (repeat' split at h) <;> cases h <;> simp

/-! ### Security -/

theorem execGetCertificate_settings (a0 a1 a2 a3 a4 : Nat) (s : State) :
    ∀ t, @execGetCertificate a0 a1 a2 a3 a4 s = .next t → t.settings = (s.start a0).settings := by
  rintro _ ⟨⟩; simp

theorem execChallenge_settings (a0 a1 a2 : Nat) (a3 : Bytes) (s : State) :
    ∀ t, @execChallenge a0 a1 a2 a3 s = .next t → t.settings = (s.start a0).settings := by
  rintro _ ⟨⟩; simp

theorem execGetMeasurements_settings (a0 a1 a2 : Nat) (a3 : Bytes) (s : State) :
    ∀ t, @execGetMeasurements a0 a1 a2 a3 s = .next t → t.settings = (s.start a0).settings := by
  rintro _ ⟨⟩; simp

theorem execKeyExchange_settings (a0 a1 a2 : Nat) (a3 : Bytes) (s : State) :
    ∀ t, @execKeyExchange a0 a1 a2 a3 s = .next t → t.settings = (s.start a0).settings := by
  rintro _ ⟨⟩; simp

theorem execGetPqChain_settings (a0 a1 a2 a3 a4 : Nat) (s : State) :
    ∀ t, @execGetPqChain a0 a1 a2 a3 a4 s = .next t → t.settings = (s.start a0).settings := by
  rintro _ ⟨⟩; simp

theorem execGetPqSig_settings (a0 a1 a2 a3 : Nat) (s : State) :
    ∀ t, @execGetPqSig a0 a1 a2 a3 s = .next t → t.settings = (s.start a0).settings := by
  rintro _ ⟨⟩
  refine (State.config_settings _ _ _ ?_).trans rfl
  intros; (repeat' split) <;> simp

theorem execKeyDeliver_settings (a0 a1 a2 : Nat) (a3 : Option Nat) (a4 : BitVec 256) (s : State) :
    ∀ t, @execKeyDeliver a0 a1 a2 a3 a4 s = .next t → t.settings = (s.start a0).settings := by
  rintro _ ⟨⟩
  refine (State.spdm_settings _ _ _ _ ?_).trans rfl
  intros; (repeat' split) <;> simp

theorem execKeyForget_settings (a0 a1 a2 : Nat) (a3 : Option Nat) (a4 : Nat) (s : State) :
    ∀ t, @execKeyForget a0 a1 a2 a3 a4 s = .next t → t.settings = (s.start a0).settings := by
  rintro _ ⟨⟩
  refine (State.spdm_settings _ _ _ _ ?_).trans rfl
  intros; (repeat' split) <;> simp

theorem execHandleExpiry_settings (a0 a1 a2 a3 : Nat) (s : State) :
    ∀ t, @execHandleExpiry a0 a1 a2 a3 s = .next t → t.settings = (s.start a0).settings := by
  rintro _ ⟨⟩; simp

theorem execEndSession_settings (a0 a1 a2 a3 : Nat) (s : State) :
    ∀ t, @execEndSession a0 a1 a2 a3 s = .next t → t.settings = (s.start a0).settings := by
  rintro _ ⟨⟩; simp

theorem execCfgCommit_settings (a0 : Nat) (a1 : Reg32) (s : State) :
    ∀ t, @execCfgCommit a0 a1 s = .next t → t.settings = (s.start a0).settings := by
  rintro _ ⟨⟩; simp

theorem execCfgRecord_settings (a0 a1 : Nat) (a2 : Bytes) (a3 : Bool) (s : State) :
    ∀ t, @execCfgRecord a0 a1 a2 a3 s = .next t → t.settings = (s.start a0).settings := by
  intro t h
  simp only [execCfgRecord] at h
  (repeat' split at h) <;> simp only [Host.Outcome.next.injEq, reduceCtorEq] at h <;> subst h <;> simp

theorem execSlotErase_settings (a0 : Nat) (a1 : Reg32) (s : State) :
    ∀ t, @execSlotErase a0 a1 s = .next t → t.settings = (s.start a0).settings := by
  rintro _ ⟨⟩; simp

theorem execKeyEraseFlashDone_settings (a0 : Nat) (s : State) :
    ∀ t, @execKeyEraseFlashDone a0 s = .next t → t.settings = (s.start a0).settings := by
  rintro _ ⟨⟩; simp

/-! ### Shutdown -/

theorem execInputLow_settings (a0 a1 : Nat) (s : State) :
    ∀ t, @execInputLow a0 a1 s = .next t → t.settings = (s.start a0).settings := by
  intro t h
  simp only [execInputLow] at h
  (repeat' split at h) <;> cases h <;> simp

theorem execInputHigh_settings (a0 a1 : Nat) (s : State) :
    ∀ t, @execInputHigh a0 a1 s = .next t → t.settings = (s.start a0).settings := by
  intro t h
  simp only [execInputHigh] at h
  (repeat' split at h) <;> cases h <;> simp

theorem execModRstRelease_settings (a0 : Nat) (s : State) :
    ∀ t, @execModRstRelease a0 s = .next t → t.settings = (s.start a0).settings := by
  rintro _ ⟨⟩; simp

/-! ### Power -/

theorem execPowerGovernorSample_settings (a0 a1 a2 a3 a4 a5 : Nat) (s : State) :
    ∀ t, @execPowerGovernorSample a0 a1 a2 a3 a4 a5 s = .next t → t.settings = (s.start a0).settings := by
  intro t h
  simp only [execPowerGovernorSample] at h
  (repeat' split at h) <;> cases h <;> simp

theorem execPaceSample_settings (a0 : Nat) (a1 : List (BitVec 16)) (s : State) :
    ∀ t, @execPaceSample a0 a1 s = .next t → t.settings = (s.start a0).settings := by
  intro t h
  simp only [execPaceSample] at h
  (repeat' split at h) <;> simp only [Host.Outcome.next.injEq, reduceCtorEq] at h <;> subst h <;> simp

theorem execReplanPeriod_settings (a0 : Nat) (s : State) :
    ∀ t, @execReplanPeriod a0 s = .next t → t.settings = (s.start a0).settings := by
  rintro _ ⟨⟩; simp [apply_ite State.settings]

theorem execReplanMeasureDone_settings (a0 : Nat) (a1 : PlanInput) (a2 : List Nat) (a3 : List Nat) (s : State) :
    ∀ t, @execReplanMeasureDone a0 a1 a2 a3 s = .next t → t.settings = (s.start a0).settings := by
  intro t h
  simp only [execReplanMeasureDone] at h
  (repeat' split at h) <;> simp only [Host.Outcome.next.injEq, reduceCtorEq] at h <;> subst h <;> simp

theorem execHoldupMeasure_settings (a0 a1 : Nat) (s : State) :
    ∀ t, @execHoldupMeasure a0 a1 s = .next t → t.settings = (s.start a0).settings := by
  intro t h
  simp only [execHoldupMeasure] at h
  (repeat' split at h) <;> cases h <;> simp

theorem execPlanEffective_settings (a0 : Nat) (s : State) :
    ∀ t, @execPlanEffective a0 s = .next t → t.settings = (s.start a0).settings := by
  intro t h
  simp only [execPlanEffective] at h
  split at h <;> cases h
  · simp
  · split <;> simp

theorem execLifeRecordSummary_settings (a0 : Nat) (s : State) :
    ∀ t, @execLifeRecordSummary a0 s = .next t → t.settings = (s.start a0).settings := by
  rintro _ ⟨⟩; simp [apply_ite State.settings]

theorem execGetState_settings (a0 : Nat) (s : State) :
    ∀ t, @execGetState a0 s = .next t → t.settings = (s.start a0).settings := by
  rintro _ ⟨⟩; simp

theorem execPowerLevel_settings (a0 a1 : Nat) (s : State) :
    ∀ t, @execPowerLevel a0 a1 s = .next t → t.settings = (s.start a0).settings := by
  intro t h
  simp only [execPowerLevel] at h
  (repeat' split at h) <;> cases h <;> simp

theorem execWake_settings (a0 a1 a2 : Nat) (s : State) :
    ∀ t, @execWake a0 a1 a2 s = .next t → t.settings = (s.start a0).settings := by
  rintro _ ⟨⟩; simp

theorem execPldmSensorRead_settings (a0 a1 : Nat) (s : State) :
    ∀ t, @execPldmSensorRead a0 a1 s = .next t → t.settings = (s.start a0).settings := by
  intro t h
  simp only [execPldmSensorRead] at h
  (repeat' split at h) <;> cases h <;> simp

/-! ### Startup -/

theorem execMainConversionStart_settings (a0 : Nat) (s : State) :
    ∀ t, @execMainConversionStart a0 s = .next t → t.settings = (s.start a0).settings := by
  intro t h
  simp only [execMainConversionStart] at h
  (repeat' split at h) <;> cases h <;> simp

theorem execPwrGood_settings (a0 : Nat) (s : State) :
    ∀ t, @execPwrGood a0 s = .next t → t.settings = (s.start a0).settings := by
  intro t h
  simp only [execPwrGood] at h
  (repeat' split at h) <;> cases h <;> simp

theorem execBootRom_settings (a0 : Nat) (a1 : Bool) (s : State) :
    ∀ t, @execBootRom a0 a1 s = .next t → t.settings = (s.start a0).settings := by
  intro t h
  simp only [execBootRom] at h
  (repeat' split at h) <;> cases h <;> simp

theorem execDramTrainingDone_settings (a0 : Nat) (a1 : List Nat) (a2 : List Nat) (s : State) :
    ∀ t, @execDramTrainingDone a0 a1 a2 s = .next t → t.settings = (s.start a0).settings := by
  intro t h
  simp only [execDramTrainingDone] at h
  (repeat' split at h) <;> cases h <;> simp [apply_ite State.settings]

theorem execRestoreDone_settings (a0 : Nat) (s : State) :
    ∀ t, @execRestoreDone a0 s = .next t → t.settings = (s.start a0).settings := by
  intro t h
  simp only [execRestoreDone] at h
  (repeat' split at h) <;> cases h <;> simp

theorem execReady_settings (a0 : Nat) (a1 : PlanInput) (s : State) :
    ∀ t, @execReady a0 a1 s = .next t → t.settings = (s.start a0).settings := by
  intro t h
  simp only [execReady] at h
  (repeat' split at h) <;> cases h <;> simp

theorem execStartupLate_settings (a0 : Nat) (s : State) :
    ∀ t, @execStartupLate a0 s = .next t → t.settings = (s.start a0).settings := by
  intro t h
  simp only [execStartupLate] at h
  (repeat' split at h) <;> cases h <;> simp

theorem execMapLoading_settings (a0 a1 : Nat) (s : State) :
    ∀ t, @execMapLoading a0 a1 s = .next t → t.settings = (s.start a0).settings := by
  intro t h
  simp only [execMapLoading] at h
  (repeat' split at h) <;> cases h <;> simp

/-! ### Perturb -/

theorem execPrtRetrain_settings (a0 : Nat) (a1 : Reg32) (s : State) :
    ∀ t, @execPrtRetrain a0 a1 s = .next t → t.settings = (s.start a0).settings := by
  rintro _ ⟨⟩; simp

theorem execPrtLink_settings (a0 : Nat) (a1 : Reg32) (s : State) :
    ∀ t, @execPrtLink a0 a1 s = .next t → t.settings = (s.start a0).settings := by
  rintro _ ⟨⟩; simp

/-! ### Settings -/

theorem execAltBind_settings (a0 a1 : Nat) (a2 : Reg32) (s : State) :
    ∀ t, @execAltBind a0 a1 a2 s = .next t → t.settings = (s.start a0).settings := by
  unfold execAltBind; intro t h
  (repeat' split at h) <;> cases h <;> simp

theorem execAltCtrl_settings (a0 a1 : Nat) (a2 : Reg32) (s : State) :
    ∀ t, @execAltCtrl a0 a1 a2 s = .next t → t.settings = (s.start a0).settings := by
  unfold execAltCtrl; intro t h
  (repeat' split at h) <;> cases h <;> simp

theorem execWinCommitCountReached_settings (a0 a1 : Nat) (s : State) :
    ∀ t, @execWinCommitCountReached a0 a1 s = .next t → t.settings = (s.start a0).settings := by
  intro t h
  simp only [execWinCommitCountReached] at h
  (repeat' split at h) <;> cases h <;> simp

theorem execCodExtTable_settings (a0 : Nat) (a1 : Reg32) (s : State) :
    ∀ t, @execCodExtTable a0 a1 s = .next t → t.settings = (s.start a0).settings := by
  rintro _ ⟨⟩; simp

theorem execColBudget_settings (a0 a1 : Nat) (a2 : Reg32) (s : State) :
    ∀ t, @execColBudget a0 a1 a2 s = .next t → t.settings = (s.start a0).settings := by
  unfold execColBudget; intro t h
  (repeat' split at h) <;> cases h <;> simp

end Sys2Proof.Machine
end

