-- ==== Sys2Proof/Laws/Setters.lean ====
section
/-! SUPPORT. The writes of settings: each leaves the queue of commands and the count, and keeps the settings within what
the field tables admit. -/

namespace Sys2Proof.Machine

open Sys2Proof

/-- `b` follows from `a` by writes of settings: the same queue and count, and legal if `a` is. -/
structure Settings.Keeps (a b : Settings) : Prop where
  pending : b.pending = a.pending
  now : b.now = a.now
  legal : a.Legal → b.Legal

theorem Settings.Keeps.refl (a : Settings) : a.Keeps a := ⟨rfl, rfl, id⟩

theorem Settings.Keeps.of_eq {a b : Settings} (h : b = a) : a.Keeps b := h ▸ .refl a

theorem Settings.Keeps.trans {a b c : Settings} (h : a.Keeps b) (g : b.Keeps c) : a.Keeps c :=
  ⟨g.pending.trans h.pending, g.now.trans h.now, fun l => g.legal (h.legal l)⟩

theorem Settings.Keeps.then_eq {a b c : Settings} (h : a.Keeps b) (g : c = b) : a.Keeps c := g ▸ h

/-! ### Fields -/

/-- A masked value has no bit outside its mask. -/
theorem and_mask (v m : BitVec w) : v &&& m &&& ~~~m = 0 := by
  rw [BitVec.and_assoc]; simp

/-- A field that is kept when the written one is out of range stays within its range. -/
theorem kept_within (old v : Reg32) (lo n a b : Nat) (h : a ≤ fld old lo n ∧ fld old lo n ≤ b) :
    a ≤ kept old v lo n a b ∧ kept old v lo n a b ≤ b := by
  unfold kept; split <;> assumption

/-- Entries of an updated sparse array: an old one, or the new value. -/
theorem mem_sput {α : Type} [DecidableEq α] {d v : α} {m : Sparse α} {k : Nat} {e : Nat × α}
    (h : e ∈ sput d m k v) : e ∈ m ∨ e.2 = v := by
  induction m with
  | nil => simp only [sput] at h; split at h <;> simp_all
  | cons x m ih =>
    obtain ⟨i, w⟩ := x
    simp only [sput] at h
    grind

theorem classLegal_write (v : Reg32) (h : fld v 0 2 ≠ 3) : classLegal (v &&& 0x73) := by
  refine ⟨and_mask _ _, ?_⟩
  have : fld (v &&& 0x73) 0 2 = fld v 0 2 := by
    simp only [fld, BitVec.toNat_and, Nat.shiftRight_zero, Nat.and_mod_two_pow]
    exact Nat.and_two_pow_sub_one_eq_mod (v.toNat % 2 ^ 2) 2 |>.trans (by omega)
  rwa [this]


/-! ### One legal field -/

theorem Settings.Legal.with_dirCtrl {x : Settings} (h : x.Legal) {w : Reg32}
    (p : 4 ≤ w.toNat ∧ w.toNat ≤ 32) :
    Settings.Legal { x with dirCtrl := w } := { h with dirCtrl := p }

theorem Settings.Legal.with_dirSel {x : Settings} (h : x.Legal) {w : Reg32}
    (p : w &&& ~~~0x1FFFFF = 0) :
    Settings.Legal { x with dirSel := w } := { h with dirSel := p }

theorem Settings.Legal.with_colCtrl {x : Settings} (h : x.Legal) {w : Reg32}
    (p : 100 ≤ w.toNat ∧ w.toNat ≤ 500) :
    Settings.Legal { x with colCtrl := w } := { h with colCtrl := p }

theorem Settings.Legal.with_cls {x : Settings} (h : x.Legal) {w : Sparse Reg32}
    (p : ∀ e ∈ w, classLegal e.2) :
    Settings.Legal { x with cls := w } := { h with cls := p }

theorem Settings.Legal.with_resSel {x : Settings} (h : x.Legal) {w : Reg32}
    (p : w &&& ~~~0xF3F = 0) :
    Settings.Legal { x with resSel := w } := { h with resSel := p }

theorem Settings.Legal.with_pubCtrl {x : Settings} (h : x.Legal) {w : Reg32}
    (p : w &&& ~~~0xFF01 = 0) :
    Settings.Legal { x with pubCtrl := w } := { h with pubCtrl := p }

theorem Settings.Legal.with_pubSel {x : Settings} (h : x.Legal) {w : Reg32}
    (p : w &&& ~~~0x3FFFFF = 0) :
    Settings.Legal { x with pubSel := w } := { h with pubSel := p }

theorem Settings.Legal.with_codCtrl {x : Settings} (h : x.Legal) {w : Reg32}
    (p : 1 ≤ w.toNat ∧ w.toNat ≤ 1000) :
    Settings.Legal { x with codCtrl := w } := { h with codCtrl := p }

theorem Settings.Legal.with_grantTable {x : Settings} (h : x.Legal) {w : Reg32}
    (p : w &&& ~~~0x3FF = 0) :
    Settings.Legal { x with grantTable := w } := { h with grantTable := p }

theorem Settings.Legal.with_tblSel {x : Settings} (h : x.Legal) {w : Reg32}
    (p : w &&& ~~~0x3FF = 0) :
    Settings.Legal { x with tblSel := w } := { h with tblSel := p }

theorem Settings.Legal.with_codExtSel {x : Settings} (h : x.Legal) {w : Reg32}
    (p : w &&& ~~~0xFFFF = 0) :
    Settings.Legal { x with codExtSel := w } := { h with codExtSel := p }

theorem Settings.Legal.with_mxeCtrl {x : Settings} (h : x.Legal) {w : Reg32}
    (p : w.toNat ≤ 16) :
    Settings.Legal { x with mxeCtrl := w } := { h with mxeCtrl := p }

theorem Settings.Legal.with_engSel {x : Settings} (h : x.Legal) {w : Reg32}
    (p : w.toNat ≤ 35) :
    Settings.Legal { x with engSel := w } := { h with engSel := p }

theorem Settings.Legal.with_compSel {x : Settings} (h : x.Legal) {w : Reg32}
    (p : w &&& ~~~0xFFFF = 0) :
    Settings.Legal { x with compSel := w } := { h with compSel := p }

theorem Settings.Legal.with_coreSel {x : Settings} (h : x.Legal) {w : Reg32}
    (p : w.toNat ≤ 4223) :
    Settings.Legal { x with coreSel := w } := { h with coreSel := p }

theorem Settings.Legal.with_rcpSel {x : Settings} (h : x.Legal) {w : Reg32}
    (p : w &&& ~~~0x3F = 0) :
    Settings.Legal { x with rcpSel := w } := { h with rcpSel := p }

theorem Settings.Legal.with_drmCtrl {x : Settings} (h : x.Legal) {w : Reg32}
    (p : within w 0 4 1 8 ∧ within w 4 4 0 8 ∧ within w 8 8 1 255 ∧ fld w 16 16 = 0) :
    Settings.Legal { x with drmCtrl := w } := { h with drmCtrl := p }

theorem Settings.Legal.with_chSel {x : Settings} (h : x.Legal) {w : Reg32}
    (p : w.toNat ≤ 71) :
    Settings.Legal { x with chSel := w } := { h with chSel := p }

theorem Settings.Legal.with_flsCtrl {x : Settings} (h : x.Legal) {w : Reg32}
    (p : within w 0 10 1 999 ∧ within w 10 3 1 4 ∧ fld w 13 19 = 0) :
    Settings.Legal { x with flsCtrl := w } := { h with flsCtrl := p }

theorem Settings.Legal.with_dieSel {x : Settings} (h : x.Legal) {w : Reg32}
    (p : w &&& ~~~0x1FF = 0) :
    Settings.Legal { x with dieSel := w } := { h with dieSel := p }

theorem Settings.Legal.with_intCtrl {x : Settings} (h : x.Legal) {w : Reg32}
    (p : within w 0 16 1 65535 ∧ within w 16 12 1 3600 ∧ fld w 28 4 = 0) :
    Settings.Legal { x with intCtrl := w } := { h with intCtrl := p }

theorem Settings.Legal.with_scrub {x : Settings} (h : x.Legal) {w : Reg32}
    (p : 1 ≤ w.toNat ∧ w.toNat ≤ 168) :
    Settings.Legal { x with scrub := w } := { h with scrub := p }

theorem Settings.Legal.with_bucketSel {x : Settings} (h : x.Legal) {w : Reg32}
    (p : w.toNat ≤ 71) :
    Settings.Legal { x with bucketSel := w } := { h with bucketSel := p }

theorem Settings.Legal.with_fltCtrl {x : Settings} (h : x.Legal) {w : Reg32}
    (p : w &&& ~~~3 = 0) :
    Settings.Legal { x with fltCtrl := w } := { h with fltCtrl := p }

theorem Settings.Legal.with_detCtrl {x : Settings} (h : x.Legal) {w : Reg32}
    (p : within w 8 6 16 40 ∧ fld w 5 3 = 0 ∧ fld w 14 18 = 0) :
    Settings.Legal { x with detCtrl := w } := { h with detCtrl := p }

theorem Settings.Legal.with_epCtrl {x : Settings} (h : x.Legal) {w : Reg32}
    (p : w &&& ~~~1 = 0) :
    Settings.Legal { x with epCtrl := w } := { h with epCtrl := p }

theorem Settings.Legal.with_portSel {x : Settings} (h : x.Legal) {w : Reg32}
    (p : w &&& ~~~7 = 0) :
    Settings.Legal { x with portSel := w } := { h with portSel := p }

theorem Settings.Legal.with_ldSel {x : Settings} (h : x.Legal) {w : Reg32}
    (p : w &&& ~~~0xF7 = 0) :
    Settings.Legal { x with ldSel := w } := { h with ldSel := p }

theorem Settings.Legal.with_tamCtrl {x : Settings} (h : x.Legal) {w : Reg32}
    (p : w &&& ~~~0x000F0106 = 0) :
    Settings.Legal { x with tamCtrl := w } := { h with tamCtrl := p }

theorem Settings.Legal.with_tamSel {x : Settings} (h : x.Legal) {w : Reg32}
    (p : w &&& ~~~3 = 0) :
    Settings.Legal { x with tamSel := w } := { h with tamSel := p }

theorem Settings.Legal.with_slotSel {x : Settings} (h : x.Legal) {w : Reg32}
    (p : w &&& ~~~0xFF = 0) :
    Settings.Legal { x with slotSel := w } := { h with slotSel := p }

theorem Settings.Legal.with_pwrCtrl {x : Settings} (h : x.Legal) {w : Reg32}
    (p : within w 8 8 80 105 ∧ within w 16 8 85 108 ∧ fld w 1 7 = 0 ∧ fld w 24 8 = 0) :
    Settings.Legal { x with pwrCtrl := w } := { h with pwrCtrl := p }

theorem Settings.Legal.with_domSel {x : Settings} (h : x.Legal) {w : Reg32}
    (p : w &&& ~~~0x3F = 0) :
    Settings.Legal { x with domSel := w } := { h with domSel := p }

theorem Settings.Legal.with_ageCtrl {x : Settings} (h : x.Legal) {w : Reg32}
    (p : within w 0 8 1 90 ∧ within w 8 8 5 100 ∧ fld w 16 16 = 0) :
    Settings.Legal { x with ageCtrl := w } := { h with ageCtrl := p }

theorem Settings.Legal.with_ageSel {x : Settings} (h : x.Legal) {w : Reg32}
    (p : w &&& ~~~0x3F = 0) :
    Settings.Legal { x with ageSel := w } := { h with ageSel := p }

theorem Settings.Legal.with_symLine {x : Settings} (h : x.Legal) {w : Reg32}
    (p : w &&& ~~~0x7FFFFFFF = 0) :
    Settings.Legal { x with symLine := w } := { h with symLine := p }

theorem Settings.Legal.with_symCtrl {x : Settings} (h : x.Legal) {w : Reg32}
    (p : w &&& ~~~0x7F3F = 0) :
    Settings.Legal { x with symCtrl := w } := { h with symCtrl := p }

/-! ### Selectors -/

theorem State.selectEntry_keeps (s : State) (v : Reg32) : s.settings.Keeps (s.selectEntry v).settings :=
  ⟨rfl, rfl, fun h => h.with_dirSel (and_mask _ _)⟩

theorem State.selectComposite_keeps (s : State) (v : Reg32) : s.settings.Keeps (s.selectComposite v).settings :=
  ⟨rfl, rfl, fun h => h.with_compSel (and_mask _ _)⟩

theorem State.selectDie_keeps (s : State) (v : Reg32) : s.settings.Keeps (s.selectDie v).settings :=
  ⟨rfl, rfl, fun h => h.with_dieSel (and_mask _ _)⟩

theorem State.selectPort_keeps (s : State) (v : Reg32) : s.settings.Keeps (s.selectPort v).settings :=
  ⟨rfl, rfl, fun h => h.with_portSel (and_mask _ _)⟩

theorem State.selectLd_keeps (s : State) (v : Reg32) : s.settings.Keeps (s.selectLd v).settings :=
  ⟨rfl, rfl, fun h => h.with_ldSel (and_mask _ _)⟩

theorem State.selectTam_keeps (s : State) (v : Reg32) : s.settings.Keeps (s.selectTam v).settings :=
  ⟨rfl, rfl, fun h => h.with_tamSel (and_mask _ _)⟩

theorem State.selectSlot_keeps (s : State) (v : Reg32) : s.settings.Keeps (s.selectSlot v).settings :=
  ⟨rfl, rfl, fun h => h.with_slotSel (and_mask _ _)⟩

theorem State.selectPower_keeps (s : State) (v : Reg32) : s.settings.Keeps (s.selectPower v).settings :=
  ⟨rfl, rfl, fun h => h.with_domSel (and_mask _ _)⟩

theorem State.selectAge_keeps (s : State) (v : Reg32) : s.settings.Keeps (s.selectAge v).settings :=
  ⟨rfl, rfl, fun h => h.with_ageSel (and_mask _ _)⟩

theorem State.selectVersion_keeps (s : State) (v : Reg32) : s.settings.Keeps (s.selectVersion v).settings :=
  ⟨rfl, rfl, fun h => h.with_pubSel (and_mask _ _)⟩

theorem State.selectTable_keeps (s : State) (v : Reg32) : s.settings.Keeps (s.selectTable v).settings :=
  ⟨rfl, rfl, fun h => h.with_codExtSel (and_mask _ _)⟩

theorem State.selectReservation_keeps (s : State) (v : Reg32) : s.settings.Keeps (s.selectReservation v).settings :=
  ⟨rfl, rfl, fun h => h.with_resSel (and_mask _ _)⟩

theorem State.selectEngine_keeps (s : State) (v : Reg32) : s.settings.Keeps (s.selectEngine v).settings := by
  simp only [State.selectEngine]
  split
  · exact .refl _
  · exact ⟨rfl, rfl, fun h => h.with_engSel (by simp only [State.settings] at *; omega)⟩

theorem State.selectCore_keeps (s : State) (v : Reg32) : s.settings.Keeps (s.selectCore v).settings := by
  simp only [State.selectCore]
  split
  · exact .refl _
  · exact ⟨rfl, rfl, fun h => h.with_coreSel (by simp only [State.settings] at *; omega)⟩

theorem State.selectChannel_keeps (s : State) (v : Reg32) : s.settings.Keeps (s.selectChannel v).settings := by
  simp only [State.selectChannel]
  split
  · exact .refl _
  · exact ⟨rfl, rfl, fun h => h.with_chSel (by simp only [State.settings] at *; omega)⟩

theorem State.selectBucket_keeps (s : State) (v : Reg32) : s.settings.Keeps (s.selectBucket v).settings := by
  simp only [State.selectBucket]
  split
  · exact .refl _
  · exact ⟨rfl, rfl, fun h => h.with_bucketSel (by simp only [State.settings] at *; omega)⟩

/-! ### Settings with rules of their own -/

theorem State.wrote64_keeps (s : State) (o : Nat) (wo : Bool) (v : Reg64) :
    s.settings.Keeps (s.wrote64 o wo v).settings := ⟨rfl, rfl, fun h => { h with }⟩

theorem State.dirCtrl_keeps (s : State) (v : Reg32) : s.settings.Keeps (s.dirCtrl v).settings := by
  simp only [State.dirCtrl]
  repeat' split
  · exact .refl _
  · exact .of_eq (by simp)
  · generalize hw : BitVec.ofNat 32 _ = w
    refine ⟨rfl, rfl, fun h => h.with_dirCtrl ?_⟩
    subst hw
    simp only [BitVec.toNat_ofNat]; omega

theorem State.tableCtrl_keeps (s : State) (v : Reg32) : s.settings.Keeps (s.tableCtrl v).settings := by
  simp only [State.tableCtrl]
  repeat' split
  · exact ⟨rfl, rfl, fun h => { h with }⟩
  · exact .then_eq (b := State.settings { s with cod := { s.cod with elem := bitOf v 1 } })
      ⟨rfl, rfl, fun h => { h with }⟩ (by simp)
  · refine .then_eq ?_ (State.digestUpdate_settings _)
    exact ⟨rfl, rfl, fun h => { h with }⟩

theorem State.grantTable_keeps (s : State) (v : Reg32) : s.settings.Keeps (s.grantTable v).settings := by
  simp only [State.grantTable]
  split
  · exact ⟨rfl, rfl, fun h => h.with_grantTable (and_mask _ _)⟩
  · exact .of_eq (by simp)

theorem State.loadRecipe_keeps (s : State) : s.settings.Keeps s.loadRecipe.settings := by
  simp only [State.loadRecipe]
  split
  · exact .of_eq (by simp)
  · refine .then_eq ?_ (State.digestUpdate_settings _)
    exact ⟨rfl, rfl, fun h => { h with }⟩

theorem State.clearRecipe_keeps (s : State) : s.settings.Keeps s.clearRecipe.settings := by
  simp only [State.clearRecipe]
  split
  · exact .of_eq (by simp)
  · refine .then_eq ?_ (State.digestUpdate_settings _)
    exact ⟨rfl, rfl, fun h => { h with }⟩

theorem State.recipeCtrl_keeps (s : State) (v : Reg32) : s.settings.Keeps (s.recipeCtrl v).settings := by
  simp only [State.recipeCtrl]
  repeat' split
  · exact s.loadRecipe_keeps.trans (State.clearRecipe_keeps _)
  · exact s.clearRecipe_keeps
  · exact s.loadRecipe_keeps
  · exact .refl _

theorem State.missEngines_keeps (s : State) (v : Reg32) : s.settings.Keeps (s.missEngines v).settings := by
  simp only [State.missEngines]
  split
  · exact .refl _
  · refine .then_eq ?_ (State.issueLive_settings _ _ _)
    generalize hw : BitVec.ofNat 32 _ = w
    refine ⟨rfl, rfl, fun h => h.with_mxeCtrl ?_⟩
    subst hw
    simp only [BitVec.toNat_ofNat]; omega

theorem State.lsShare_keeps (s : State) (v : Reg32) : s.settings.Keeps (s.lsShare v).settings := by
  simp only [State.lsShare]
  repeat' split
  · exact .refl _
  · exact .of_eq (by simp)
  · refine .then_eq ?_ (State.issueLive_settings _ _ _)
    generalize hw : BitVec.ofNat 32 _ = w
    refine ⟨rfl, rfl, fun h => h.with_colCtrl ?_⟩
    subst hw
    simp only [BitVec.toNat_ofNat]; omega

theorem State.colClass_keeps (s : State) (c : Nat) (v : Reg32) : s.settings.Keeps (s.colClass c v).settings := by
  simp only [State.colClass]
  repeat' split
  · exact .of_eq (by simp)
  · exact .of_eq (by simp)
  · rename_i h3 _
    refine ⟨rfl, rfl, fun h => h.with_cls (fun e he => ?_)⟩
    rcases mem_sput he with he | he
    · exact h.cls e he
    · exact he ▸ classLegal_write v (fun h => h3 (.inl h))

theorem State.gateDelay_keeps (s : State) (l : Nat) (v : Reg32) : s.settings.Keeps (s.gateDelay l v).settings := by
  simp only [State.gateDelay, State.setting]
  split
  · exact ⟨rfl, rfl, fun h => { h with }⟩
  · exact .of_eq (by simp)

theorem State.stageEntry_keeps (s : State) (i : Nat) (v : Reg32) :
    s.settings.Keeps (s.stageEntry i v).settings := by
  simp only [State.stageEntry, State.setting]
  repeat' split
  · exact ⟨rfl, rfl, fun h => { h with }⟩
  · refine .then_eq ?_ (State.stagePlan_settings _)
    exact ⟨rfl, rfl, fun h => { h with }⟩
  · exact .of_eq (by simp)

theorem State.symCtrl_keeps (s : State) (v : Reg32) : s.settings.Keeps (s.symCtrl v).settings := by
  simp only [State.symCtrl, State.setting]
  repeat' split
  · refine .then_eq ?_ (State.inject_settings _ _ _)
    exact ⟨rfl, rfl, fun h => h.with_symCtrl (and_mask _ _)⟩
  · exact .of_eq (by simp)
  · exact ⟨rfl, rfl, fun h => h.with_symCtrl (and_mask _ _)⟩
  · exact .of_eq (by simp)

@[simp] theorem State.corruptLength_settings (s : State) (v : Reg64) : (s.corruptLength v).settings = s.settings := by
  simp only [State.corruptLength, State.setting]
  (repeat' split) <;> simp

theorem State.closeTest_keeps (s : State) : s.settings.Keeps s.closeTest.settings := by
  simp only [State.closeTest]
  split
  · refine .then_eq ?_ (State.stagePlan_settings _)
    exact ⟨rfl, rfl, fun h =>
      { (h.with_symLine (w := 0) (by decide)).with_symCtrl (w := 0) (by decide) with }⟩
  · exact ⟨rfl, rfl, fun h =>
      { (h.with_symLine (w := 0) (by decide)).with_symCtrl (w := 0) (by decide) with }⟩

theorem State.prtCtrl_keeps (s : State) (v : Reg32) : s.settings.Keeps (s.prtCtrl v).settings := by
  simp only [State.prtCtrl]
  split
  · exact s.closeTest_keeps
  · exact .refl _

theorem detWord_legal (old v : Reg32) (h : 16 ≤ fld old 8 6 ∧ fld old 8 6 ≤ 40) :
    within (detWord old v) 8 6 16 40 ∧ fld (detWord old v) 5 3 = 0 ∧ fld (detWord old v) 14 18 = 0 := by
  have hw := kept_within old v 8 6 16 40 h
  simp only [kept] at hw
  simp only [within, detWord, fld, at_, BitVec.toNat_ofNat, Nat.shiftLeft_eq, Nat.shiftRight_eq_div_pow] at *
  omega

theorem State.setDet_keeps (s u : State) (h : u.settings = s.settings) (v : Reg32) (f : Bool) :
    s.settings.Keeps (u.setDet (detWord s.det.ctrl v) f).settings := by
  refine .trans (.of_eq h) ⟨rfl, rfl, fun l => l.with_detCtrl ?_⟩
  have e : u.det.ctrl = s.det.ctrl := congrArg Settings.detCtrl h
  exact detWord_legal _ v (e ▸ l.detCtrl.1)

theorem State.detCtrl_keeps (s : State) (v : Reg32) : s.settings.Keeps (s.detCtrl v).settings := by
  simp only [State.detCtrl]
  repeat' split
  all_goals first
    | refine .then_eq ?_ (State.recordConfig_settings _)
    | refine .then_eq ?_ (State.digestUpdate_settings _)
  all_goals exact s.setDet_keeps _ (by simp) v _

theorem State.tamCtrl_keeps (s : State) (v : Reg32) : s.settings.Keeps (s.tamCtrl v).settings := by
  have k : s.settings.Keeps (State.settings { s with tam := { s.tam with ctrl := v &&& 0x000F0106 } }) :=
    ⟨rfl, rfl, fun h => h.with_tamCtrl (and_mask _ _)⟩
  refine k.then_eq ?_
  simp only [State.tamCtrl]
  split <;> simp [apply_ite State.settings]

theorem State.slotMask_keeps (s : State) (v : Reg64) : s.settings.Keeps (s.slotMask v).settings :=
  .of_eq (by simp only [State.slotMask]; split <;> simp)

/-! ### Resets -/

theorem Settings.reset_legal : State.reset.settings.Legal := by
  constructor <;> first | decide | (intro e he; cases he)


theorem State.wholeReset_keeps (s : State) (c : Nat) : s.settings.Keeps (s.wholeReset c).settings := by
  refine ⟨rfl, rfl, fun _ => ?_⟩
  exact { Settings.reset_legal with }

theorem State.reboot_keeps (s : State) (c : Nat) (held : Option Nat) (f : Bool) :
    s.settings.Keeps (s.reboot c held f).settings := by
  refine .then_eq (.trans (.of_eq (State.shutdown_settings s f)) (State.wholeReset_keeps _ c)) ?_
  simp [State.reboot]

theorem State.trip_keeps (s : State) (f : Bool) : s.settings.Keeps (s.trip f).settings :=
  (s.reboot_keeps 0 (some 0) f).then_eq (by simp [State.trip])

theorem State.mainLost_keeps (s : State) (f : Bool) : s.settings.Keeps (s.mainLost f).settings := by
  refine .then_eq (.trans (.of_eq (State.shutdown_settings s f)) (State.wholeReset_keeps _ 0)) ?_
  simp [State.mainLost]

theorem State.fltReset_keeps (s : State) (v : Reg32) (f : Bool) : s.settings.Keeps (s.fltReset v f).settings := by
  simp only [State.fltReset]
  split
  · exact s.reboot_keeps _ _ _
  · exact .refl _

theorem State.recoveryGo_keeps (s : State) (v : Reg32) (f : Bool) :
    s.settings.Keeps (s.recoveryGo v f).settings := by
  simp only [State.recoveryGo]
  repeat' split
  · exact .refl _
  · exact .refl _
  · exact .trans (.of_eq (by simp)) (State.reboot_keeps _ _ _ _)
  · exact .of_eq (by simp)

/-- What the loss of the auxiliary supply leaves: the queue, and legal settings. The count is lost (R27). -/
theorem State.auxLost_legal (s : State) (f : Bool) :
    (s.auxLost f).settings.pending = s.settings.pending ∧ (s.settings.Legal → (s.auxLost f).settings.Legal) :=
  ⟨(s.mainLost_keeps f).pending, fun h => { (s.mainLost_keeps f).legal h with }⟩

/-! ### The blocks of REGISTER_WRITE -/

theorem State.writeCc_keeps (s : State) (r : Nat) (v : Reg64) : s.settings.Keeps (s.writeCc r v).settings := by
  simp only [State.writeCc]
  split
  · exact ⟨rfl, rfl, fun h => { h with }⟩
  all_goals exact .of_eq (by simp)

theorem State.writeCol_keeps (s : State) (r : Nat) (v : Reg32) : s.settings.Keeps (s.writeCol r v).settings := by
  simp only [State.writeCol]
  repeat' split
  all_goals first
    | exact s.lsShare_keeps v
    | exact s.colClass_keeps _ v
    | exact s.selectReservation_keeps v
    | exact .of_eq (by simp)

theorem State.writeDir_keeps (s : State) (r : Nat) (v : Reg32) : s.settings.Keeps (s.writeDir r v).settings := by
  simp only [State.writeDir]
  split
  · exact s.dirCtrl_keeps v
  · exact .of_eq (by simp)
  · exact s.selectEntry_keeps v
  · exact .refl _

theorem State.writePub_keeps (s : State) (r : Nat) (v : Reg32) : s.settings.Keeps (s.writePub r v).settings := by
  simp only [State.writePub]
  split
  · refine .then_eq ?_ (State.retainTest_settings _)
    exact ⟨rfl, rfl, fun h => h.with_pubCtrl (and_mask _ _)⟩
  · exact .of_eq (by simp)
  · exact s.selectVersion_keeps v
  · exact .refl _

theorem State.writeCod_keeps (s : State) (r : Nat) (v : Reg32) : s.settings.Keeps (s.writeCod r v).settings := by
  simp only [State.writeCod]
  repeat' split
  · generalize hw : BitVec.ofNat 32 _ = w
    refine ⟨rfl, rfl, fun h => h.with_codCtrl ?_⟩
    subst hw
    have := kept_within s.cod.ctrl v 0 16 1 1000 (by
      have := h.codCtrl
      simp only [State.settings, fld, Nat.shiftRight_zero] at *; omega)
    simp only [BitVec.toNat_ofNat]; omega
  · exact .of_eq (by simp)
  · exact s.grantTable_keeps v
  · exact ⟨rfl, rfl, fun h => h.with_tblSel (and_mask _ _)⟩
  · exact s.tableCtrl_keeps v
  · exact ⟨rfl, rfl, fun h => { h with }⟩
  · exact s.selectTable_keeps v
  · exact .of_eq (by simp)
  · exact .refl _

theorem State.writeMxe_keeps (s : State) (r : Nat) (v : Reg64) : s.settings.Keeps (s.writeMxe r v).settings := by
  simp only [State.writeMxe]
  repeat' split
  · exact s.missEngines_keeps _
  · exact .of_eq (by simp)
  · exact s.selectEngine_keeps _
  · exact s.selectComposite_keeps _
  · exact ⟨rfl, rfl, fun h => { h with }⟩
  · exact .refl _

theorem State.writeSpr_keeps (s : State) (r : Nat) (v : Reg64) : s.settings.Keeps (s.writeSpr r v).settings := by
  simp only [State.writeSpr]
  repeat' split
  · exact .of_eq (by simp)
  · exact s.selectCore_keeps _
  · exact ⟨rfl, rfl, fun h => h.with_rcpSel (and_mask _ _)⟩
  · exact s.recipeCtrl_keeps _
  · exact ⟨rfl, rfl, fun h => { h with }⟩
  · exact ⟨rfl, rfl, fun h => { h with }⟩
  · exact .refl _

theorem State.writeDrm_keeps (s : State) (r : Nat) (v : Reg32) : s.settings.Keeps (s.writeDrm r v).settings := by
  simp only [State.writeDrm]
  repeat' split
  · generalize hw : BitVec.ofNat 32 _ = w
    refine ⟨rfl, rfl, fun h => h.with_drmCtrl ?_⟩
    subst hw
    have h1 := kept_within s.drm.ctrl v 0 4 1 8 h.drmCtrl.1
    have h2 := kept_within s.drm.ctrl v 4 4 0 8 h.drmCtrl.2.1
    have h3 := kept_within s.drm.ctrl v 8 8 1 255 h.drmCtrl.2.2.1
    simp only [within, fld, at_, BitVec.toNat_ofNat, Nat.shiftLeft_eq, Nat.shiftRight_eq_div_pow]
    omega
  · exact .of_eq (by simp)
  · exact s.selectChannel_keeps v
  · exact ⟨rfl, rfl, fun h => { h with }⟩
  · exact .refl _

theorem State.writeFls_keeps (s : State) (r : Nat) (v : Reg32) : s.settings.Keeps (s.writeFls r v).settings := by
  simp only [State.writeFls]
  split
  · refine .then_eq ?_ (State.warnTest_settings _ _)
    generalize hw : BitVec.ofNat 32 _ = w
    refine ⟨rfl, rfl, fun h => h.with_flsCtrl ?_⟩
    subst hw
    have h1 := kept_within s.fls.ctrl v 0 10 1 999 h.flsCtrl.1
    have h2 := kept_within s.fls.ctrl v 10 3 1 4 h.flsCtrl.2.1
    simp only [within, fld, at_, BitVec.toNat_ofNat, Nat.shiftLeft_eq, Nat.shiftRight_eq_div_pow]
    omega
  · exact .of_eq (by simp)
  · exact s.selectDie_keeps v
  · exact .refl _

theorem State.writeInt_keeps (s : State) (r : Nat) (v : Reg32) : s.settings.Keeps (s.writeInt r v).settings := by
  simp only [State.writeInt]
  split
  · generalize hw : BitVec.ofNat 32 _ = w
    refine ⟨rfl, rfl, fun h => h.with_intCtrl ?_⟩
    subst hw
    have h1 := kept_within s.int.ctrl v 0 16 1 65535 h.intCtrl.1
    have h2 := kept_within s.int.ctrl v 16 12 1 3600 h.intCtrl.2.1
    simp only [within, fld, at_, BitVec.toNat_ofNat, Nat.shiftLeft_eq, Nat.shiftRight_eq_div_pow]
    omega
  · exact .of_eq (by simp)
  · generalize hw : BitVec.ofNat 32 _ = w
    refine ⟨rfl, rfl, fun h => h.with_scrub ?_⟩
    subst hw
    have := kept_within s.int.scrub v 0 8 1 168 (by
      have := h.scrub
      simp only [State.settings, fld, Nat.shiftRight_zero] at *; omega)
    simp only [BitVec.toNat_ofNat]; omega
  · exact s.selectBucket_keeps v
  · exact .refl _

theorem State.writeFlt_keeps (s : State) (r : Nat) (v : Reg32) : s.settings.Keeps (s.writeFlt r v).settings := by
  simp only [State.writeFlt]
  split
  · exact ⟨rfl, rfl, fun h => h.with_fltCtrl (and_mask _ 3)⟩
  · exact .of_eq (by simp)
  · exact .trans (.of_eq (State.fresh_settings s)) (State.fltReset_keeps _ _ _)
  · exact .refl _

theorem State.writeDet_keeps (s : State) (r : Nat) (v : Reg64) : s.settings.Keeps (s.writeDet r v).settings := by
  simp only [State.writeDet]
  split
  · exact s.detCtrl_keeps _
  · exact .of_eq (by simp)
  · exact ⟨rfl, rfl, fun h => { h with }⟩
  · exact ⟨rfl, rfl, fun h => { h with }⟩
  · exact ⟨rfl, rfl, fun h => { h with }⟩
  · exact ⟨rfl, rfl, fun h => { h with }⟩
  · exact .of_eq (by simp)
  · exact .refl _

theorem State.writeEp_keeps (s : State) (r : Nat) (v : Reg32) : s.settings.Keeps (s.writeEp r v).settings := by
  simp only [State.writeEp]
  split
  · exact ⟨rfl, rfl, fun h => h.with_epCtrl (and_mask _ 1)⟩
  · exact .of_eq (by simp)
  · exact s.selectPort_keeps v
  · exact s.selectLd_keeps v
  · exact .refl _

theorem State.writeTam_keeps (s : State) (r : Nat) (v : Reg64) : s.settings.Keeps (s.writeTam r v).settings := by
  simp only [State.writeTam]
  repeat' split
  · exact s.tamCtrl_keeps _
  · exact .of_eq (by simp)
  · exact .of_eq (by simp)
  · exact s.selectTam_keeps _
  · exact ⟨rfl, rfl, fun h => { h with }⟩
  · exact ⟨rfl, rfl, fun h => { h with }⟩
  · exact .refl _

theorem State.writeSec_keeps (s : State) (r : Nat) (v : Reg64) : s.settings.Keeps (s.writeSec r v).settings := by
  simp only [State.writeSec]
  repeat' split
  · exact ⟨rfl, rfl, fun h => { h with }⟩
  · exact .of_eq (by simp)
  · exact .of_eq (by simp)
  · exact s.selectSlot_keeps _
  · exact s.slotMask_keeps v
  · exact .of_eq (by simp)
  · exact ⟨rfl, rfl, fun h => { h with }⟩
  · exact .trans (.of_eq (State.fresh_settings s)) (State.recoveryGo_keeps _ _ _)
  · exact .refl _

theorem State.writePwr_keeps (s : State) (r : Nat) (v : Reg32) : s.settings.Keeps (s.writePwr r v).settings := by
  simp only [State.writePwr]
  split
  · generalize hw : BitVec.ofNat 32 _ = w
    refine ⟨rfl, rfl, fun h => h.with_pwrCtrl ?_⟩
    subst hw
    have h1 := kept_within s.pwr.ctrl v 8 8 80 105 h.pwrCtrl.1
    have h2 := kept_within s.pwr.ctrl v 16 8 85 108 h.pwrCtrl.2.1
    simp only [within, fld, at_, BitVec.toNat_ofNat, Nat.shiftLeft_eq, Nat.shiftRight_eq_div_pow]
    omega
  · exact .of_eq (by simp)
  · exact s.selectPower_keeps v
  · exact .refl _

theorem State.writeAge_keeps (s : State) (r : Nat) (v : Reg32) : s.settings.Keeps (s.writeAge r v).settings := by
  simp only [State.writeAge]
  split
  · generalize hw : BitVec.ofNat 32 _ = w
    refine ⟨rfl, rfl, fun h => h.with_ageCtrl ?_⟩
    subst hw
    have h1 := kept_within s.pwr.ageCtrl v 0 8 1 90 h.ageCtrl.1
    have h2 := kept_within s.pwr.ageCtrl v 8 8 5 100 h.ageCtrl.2.1
    simp only [within, fld, at_, BitVec.toNat_ofNat, Nat.shiftLeft_eq, Nat.shiftRight_eq_div_pow]
    omega
  · exact .of_eq (by simp)
  · exact s.selectAge_keeps v
  · exact .refl _

theorem State.writePrt_keeps (s : State) (r : Nat) (v : Reg64) : s.settings.Keeps (s.writePrt r v).settings := by
  simp only [State.writePrt]
  repeat' split
  · exact s.prtCtrl_keeps _
  · exact .of_eq (by simp)
  · exact s.gateDelay_keeps _ _
  · exact s.stageEntry_keeps _ _
  · exact .of_eq (by simp)
  · exact ⟨rfl, rfl, fun h => h.with_symLine (and_mask _ _)⟩
  · exact s.symCtrl_keeps _
  · exact .of_eq (by simp)
  · exact .of_eq (by simp)
  · exact .refl _

theorem State.writeUnit_keeps (s : State) (by_ off b r : Nat) (v : Reg64) :
    s.settings.Keeps (s.writeUnit by_ off b r v).settings := by
  unfold State.writeUnit
  dsimp only
  split
  · exact s.writeCc_keeps _ _
  · exact s.writeCol_keeps _ _
  · exact .of_eq (by simp)
  · exact .of_eq (by simp)
  · exact s.writeDir_keeps _ _
  · exact s.writePub_keeps _ _
  · exact s.writeCod_keeps _ _
  · exact s.writeMxe_keeps _ _
  · exact s.writeSpr_keeps _ _
  · exact s.writeDrm_keeps _ _
  · exact s.writeFls_keeps _ _
  · exact s.writeInt_keeps _ _
  · exact s.writeFlt_keeps _ _
  · exact s.writeDet_keeps _ _
  · exact s.writeEp_keeps _ _
  · exact s.writeTam_keeps _ _
  · exact s.writeSec_keeps _ _
  · exact s.writePwr_keeps _ _
  · exact s.writeAge_keeps _ _
  · exact s.writePrt_keeps _ _
  · exact .refl _

theorem State.writeReg_keeps (s : State) (by_ off o : Nat) (v : Reg64) :
    s.settings.Keeps (s.writeReg by_ off o v).settings := by
  simp only [State.writeReg]
  repeat' split
  · exact .of_eq (by simp)
  · exact .of_eq (by simp)
  · exact .of_eq (by simp only [State.writeGen]; split <;> simp)
  · exact s.writeUnit_keeps _ _ _ _ _

theorem State.writeAt_keeps (s : State) (by_ off o width byte n : Nat) (v : Reg64) :
    s.settings.Keeps (s.writeAt by_ off o width byte n v).settings := by
  simp only [State.writeAt]
  split
  · exact s.writeReg_keeps _ _ _ _
  split
  · exact (s.wrote64_keeps _ _ _).trans (State.writeReg_keeps _ _ _ _ _)
  split
  · exact ⟨rfl, rfl, fun h => { h with }⟩
  · exact .trans (b := (s.dropLow o).settings) ⟨rfl, rfl, fun h => { h with }⟩ (State.writeReg_keeps (s.dropLow o) _ _ _ _)

theorem State.barWrite_keeps (s : State) (by_ off width : Nat) (v : Reg64) :
    s.settings.Keeps (s.barWrite by_ off width v).settings := by
  simp only [State.barWrite]
  repeat' split
  all_goals first
    | exact s.writeAt_keeps _ _ _ _ _ _ _
    | (refine .of_eq ?_; simp; done)
    | exact ⟨rfl, rfl, fun h => { h with }⟩

/-! ### Accesses and commands -/

/-- An access through a BAR keeps settings if what it does keeps them. -/
theorem State.viaBar_keeps (s : State) (n off : Nat) (f : State → State)
    (h : ∀ u : State, u.settings.Keeps (f u).settings) : s.settings.Keeps (s.viaBar n off f).settings := by
  simp only [State.viaBar]
  repeat' split
  · exact .of_eq (by simp)
  · exact .of_eq (by simp)
  · exact h s

/-- An access of an allotment's own registers keeps settings if what it does keeps them. -/
theorem State.ownVia_keeps (s : State) (by_ n a b : Nat) (f : State → State)
    (h : ∀ u : State, u.settings.Keeps (f u).settings) : s.settings.Keeps (s.ownVia by_ n a b f).settings := by
  simp only [State.ownVia]
  repeat' split
  all_goals first
    | exact .refl _
    | exact State.viaBar_keeps _ _ _ _ h

/-! ### The commands that set -/

theorem execDirCtrl_keeps (t : Nat) (v : Reg32) (s : State) :
    ∀ u, execDirCtrl t v s = .next u → (s.start t).settings.Keeps u.settings := by
  rintro _ ⟨⟩
  exact State.viaBar_keeps _ _ _ _ fun u => u.dirCtrl_keeps _

theorem execDirEntrySel_keeps (t : Nat) (v : Reg32) (s : State) :
    ∀ u, execDirEntrySel t v s = .next u → (s.start t).settings.Keeps u.settings := by
  rintro _ ⟨⟩
  exact State.viaBar_keeps _ _ _ _ fun u => u.selectEntry_keeps _

theorem execPubSel_keeps (t : Nat) (v : Reg32) (s : State) :
    ∀ u, execPubSel t v s = .next u → (s.start t).settings.Keeps u.settings := by
  rintro _ ⟨⟩
  exact State.viaBar_keeps _ _ _ _ fun u => u.selectVersion_keeps _

theorem execCodExtSel_keeps (t : Nat) (v : Reg32) (s : State) :
    ∀ u, execCodExtSel t v s = .next u → (s.start t).settings.Keeps u.settings := by
  rintro _ ⟨⟩
  exact State.viaBar_keeps _ _ _ _ fun u => u.selectTable_keeps _

theorem execMxeEngSel_keeps (t : Nat) (v : Reg32) (s : State) :
    ∀ u, execMxeEngSel t v s = .next u → (s.start t).settings.Keeps u.settings := by
  rintro _ ⟨⟩
  exact State.viaBar_keeps _ _ _ _ fun u => u.selectEngine_keeps _

theorem execMxeCompSel_keeps (t : Nat) (v : Reg32) (s : State) :
    ∀ u, execMxeCompSel t v s = .next u → (s.start t).settings.Keeps u.settings := by
  rintro _ ⟨⟩
  exact State.viaBar_keeps _ _ _ _ fun u => u.selectComposite_keeps _

theorem execSprCoreSel_keeps (t : Nat) (v : Reg32) (s : State) :
    ∀ u, execSprCoreSel t v s = .next u → (s.start t).settings.Keeps u.settings := by
  rintro _ ⟨⟩
  exact State.viaBar_keeps _ _ _ _ fun u => u.selectCore_keeps _

theorem execColResSel_keeps (t : Nat) (v : Reg32) (s : State) :
    ∀ u, execColResSel t v s = .next u → (s.start t).settings.Keeps u.settings := by
  rintro _ ⟨⟩
  exact State.viaBar_keeps _ _ _ _ fun u => u.selectReservation_keeps _

theorem execDrmChSel_keeps (t : Nat) (v : Reg32) (s : State) :
    ∀ u, execDrmChSel t v s = .next u → (s.start t).settings.Keeps u.settings := by
  rintro _ ⟨⟩
  exact State.viaBar_keeps _ _ _ _ fun u => u.selectChannel_keeps _

theorem execFlsDieSel_keeps (t : Nat) (v : Reg32) (s : State) :
    ∀ u, execFlsDieSel t v s = .next u → (s.start t).settings.Keeps u.settings := by
  rintro _ ⟨⟩
  exact State.viaBar_keeps _ _ _ _ fun u => u.selectDie_keeps _

theorem execIntChSel_keeps (t : Nat) (v : Reg32) (s : State) :
    ∀ u, execIntChSel t v s = .next u → (s.start t).settings.Keeps u.settings := by
  rintro _ ⟨⟩
  exact State.viaBar_keeps _ _ _ _ fun u => u.selectBucket_keeps _

theorem execEpPortSel_keeps (t : Nat) (v : Reg32) (s : State) :
    ∀ u, execEpPortSel t v s = .next u → (s.start t).settings.Keeps u.settings := by
  rintro _ ⟨⟩
  exact State.viaBar_keeps _ _ _ _ fun u => u.selectPort_keeps _

theorem execEpLdSel_keeps (t : Nat) (v : Reg32) (s : State) :
    ∀ u, execEpLdSel t v s = .next u → (s.start t).settings.Keeps u.settings := by
  rintro _ ⟨⟩
  exact State.viaBar_keeps _ _ _ _ fun u => u.selectLd_keeps _

theorem execTamPortSel_keeps (t : Nat) (v : Reg32) (s : State) :
    ∀ u, execTamPortSel t v s = .next u → (s.start t).settings.Keeps u.settings := by
  rintro _ ⟨⟩
  exact State.viaBar_keeps _ _ _ _ fun u => u.selectTam_keeps _

theorem execSecSlotSel_keeps (t : Nat) (v : Reg32) (s : State) :
    ∀ u, execSecSlotSel t v s = .next u → (s.start t).settings.Keeps u.settings := by
  rintro _ ⟨⟩
  exact State.viaBar_keeps _ _ _ _ fun u => u.selectSlot_keeps _

theorem execPwrDomSel_keeps (t : Nat) (v : Reg32) (s : State) :
    ∀ u, execPwrDomSel t v s = .next u → (s.start t).settings.Keeps u.settings := by
  rintro _ ⟨⟩
  exact State.viaBar_keeps _ _ _ _ fun u => u.selectPower_keeps _

theorem execAgeDomSel_keeps (t : Nat) (v : Reg32) (s : State) :
    ∀ u, execAgeDomSel t v s = .next u → (s.start t).settings.Keeps u.settings := by
  rintro _ ⟨⟩
  exact State.viaBar_keeps _ _ _ _ fun u => u.selectAge_keeps _

theorem execTableLoad_keeps (t : Nat) (v : Reg32) (s : State) :
    ∀ u, execTableLoad t v s = .next u → (s.start t).settings.Keeps u.settings := by
  rintro _ ⟨⟩
  exact State.viaBar_keeps _ _ _ _ fun u => u.tableCtrl_keeps _

theorem execCodGrantTable_keeps (t : Nat) (v : Reg32) (s : State) :
    ∀ u, execCodGrantTable t v s = .next u → (s.start t).settings.Keeps u.settings := by
  rintro _ ⟨⟩
  exact State.viaBar_keeps _ _ _ _ fun u => u.grantTable_keeps _

theorem execRecipeLoad_keeps (t : Nat) (v : Reg32) (s : State) :
    ∀ u, execRecipeLoad t v s = .next u → (s.start t).settings.Keeps u.settings := by
  rintro _ ⟨⟩
  exact State.viaBar_keeps _ _ _ _ fun u => u.recipeCtrl_keeps _

theorem execRecipeClear_keeps (t : Nat) (v : Reg32) (s : State) :
    ∀ u, execRecipeClear t v s = .next u → (s.start t).settings.Keeps u.settings := by
  rintro _ ⟨⟩
  exact State.viaBar_keeps _ _ _ _ fun u => u.recipeCtrl_keeps _

theorem execMissEngines_keeps (t : Nat) (v : Reg32) (s : State) :
    ∀ u, execMissEngines t v s = .next u → (s.start t).settings.Keeps u.settings := by
  rintro _ ⟨⟩
  exact State.viaBar_keeps _ _ _ _ fun u => u.missEngines_keeps _

theorem execLsShare_keeps (t : Nat) (v : Reg32) (s : State) :
    ∀ u, execLsShare t v s = .next u → (s.start t).settings.Keeps u.settings := by
  rintro _ ⟨⟩
  exact State.viaBar_keeps _ _ _ _ fun u => u.lsShare_keeps _

theorem execSyncSend_keeps (t : Nat) (v : Reg32) (s : State) :
    ∀ u, execSyncSend t v s = .next u → (s.start t).settings.Keeps u.settings := by
  rintro _ ⟨⟩
  exact State.viaBar_keeps _ _ _ _ fun u => u.tamCtrl_keeps _

theorem execFltReset_keeps (t : Nat) (v : Reg32) (finished : Bool) (s : State) :
    ∀ u, execFltReset t v finished s = .next u → (s.start t).settings.Keeps u.settings := by
  rintro _ ⟨⟩
  exact State.viaBar_keeps _ _ _ _ fun u => u.fltReset_keeps _ _

theorem execSecSlotAssign_keeps (t : Nat) (v : Reg64) (s : State) :
    ∀ u, execSecSlotAssign t v s = .next u → (s.start t).settings.Keeps u.settings := by
  rintro _ ⟨⟩
  exact State.viaBar_keeps _ _ _ _ fun u => (u.wrote64_keeps _ _ _).trans (State.slotMask_keeps _ _)

theorem execRecoveryLoad_keeps (t : Nat) (v : Reg32) (finished : Bool) (s : State) :
    ∀ u, execRecoveryLoad t v finished s = .next u → (s.start t).settings.Keeps u.settings := by
  rintro _ ⟨⟩
  exact State.viaBar_keeps _ _ _ _ fun u => u.recoveryGo_keeps _ _

theorem execDetCtrl_keeps (t : Nat) (v : Reg32) (s : State) :
    ∀ u, execDetCtrl t v s = .next u → (s.start t).settings.Keeps u.settings := by
  rintro _ ⟨⟩
  exact State.viaBar_keeps _ _ _ _ fun u => u.detCtrl_keeps _

theorem execTestClose_keeps (t : Nat) (v : Reg32) (s : State) :
    ∀ u, execTestClose t v s = .next u → (s.start t).settings.Keeps u.settings := by
  rintro _ ⟨⟩
  exact State.viaBar_keeps _ _ _ _ fun u => u.prtCtrl_keeps _

theorem execSymbolInject_keeps (t : Nat) (v : Reg32) (s : State) :
    ∀ u, execSymbolInject t v s = .next u → (s.start t).settings.Keeps u.settings := by
  rintro _ ⟨⟩
  exact State.viaBar_keeps _ _ _ _ fun u => u.symCtrl_keeps _

theorem execPrtCodec_keeps (t : Nat) (v : Reg64) (s : State) :
    ∀ u, execPrtCodec t v s = .next u → (s.start t).settings.Keeps u.settings := by
  rintro _ ⟨⟩
  exact State.viaBar_keeps _ _ _ _ fun u => (u.wrote64_keeps 0x160118 true v).then_eq (by simp)

theorem execColClass_keeps (t c : Nat) (v : Reg32) (s : State) :
    ∀ u, execColClass t c v s = .next u → (s.start t).settings.Keeps u.settings := by
  intro u h
  simp only [execColClass] at h
  split at h <;> cases h
  · exact .refl _
  · exact State.viaBar_keeps _ _ _ _ fun u => u.colClass_keeps _ _

theorem execPrtGateDelay_keeps (t lane : Nat) (v : Reg32) (s : State) :
    ∀ u, execPrtGateDelay t lane v s = .next u → (s.start t).settings.Keeps u.settings := by
  intro u h
  simp only [execPrtGateDelay] at h
  split at h <;> cases h
  · exact .refl _
  · exact State.viaBar_keeps _ _ _ _ fun u => u.gateDelay_keeps _ _

theorem execPrtStage_keeps (t idx : Nat) (v : Reg32) (s : State) :
    ∀ u, execPrtStage t idx v s = .next u → (s.start t).settings.Keeps u.settings := by
  intro u h
  simp only [execPrtStage] at h
  split at h <;> cases h
  · exact .refl _
  · exact State.viaBar_keeps _ _ _ _ fun u => u.stageEntry_keeps _ _

theorem execWinCommit_keeps (t by_ n : Nat) (v : Reg64) (s : State) :
    ∀ u, execWinCommit t by_ n v s = .next u → (s.start t).settings.Keeps u.settings := by
  intro u h
  simp only [execWinCommit] at h
  split at h <;> cases h
  · exact .refl _
  · refine State.ownVia_keeps _ _ _ _ _ _ fun u => ?_
    exact (u.wrote64_keeps (0x48000 + 0x20 * n) true v).then_eq (by simp)

theorem execRegisterWrite_keeps (t by_ off width : Nat) (v : Reg64) (s : State) :
    ∀ u, execRegisterWrite t by_ off width v s = .next u → (s.start t).settings.Keeps u.settings := by
  intro u h
  simp only [execRegisterWrite] at h
  split at h
  · cases h
    exact .of_eq (by split <;> simp)
  split at h <;> cases h
  · exact .refl _
  · exact State.viaBar_keeps _ _ _ _ fun u => u.barWrite_keeps _ _ _ _

theorem execInputDisconnect_keeps (t mv10 : Nat) (finished : Bool) (s : State) :
    ∀ u, execInputDisconnect t mv10 finished s = .next u → (s.start t).settings.Keeps u.settings := by
  rintro _ ⟨⟩
  split
  · exact State.mainLost_keeps _ _
  · exact .refl _

theorem State.hottestActs_keeps (s : State) : s.settings.Keeps s.hottestActs.settings := by
  simp only [State.hottestActs]
  split
  · split
    · exact .of_eq (by simp)
    · exact .refl _
  split
  · exact s.trip_keeps true
  · exact .of_eq (by split <;> simp)

theorem execJunctionSample_keeps (t : Nat) (temps : List Nat) (s : State) :
    ∀ u, execJunctionSample t temps s = .next u → (s.start t).settings.Keeps u.settings := by
  rintro _ ⟨⟩
  split
  · exact .trans (.of_eq (State.readJunctions_settings _ _)) (State.hottestActs_keeps _)
  · exact .refl _

theorem execWatchdogExpiry_keeps (t : Nat) (finished : Bool) (s : State) :
    ∀ u, execWatchdogExpiry t finished s = .next u → (s.start t).settings.Keeps u.settings := by
  rintro _ ⟨⟩
  split
  · exact State.reboot_keeps _ _ _ _
  · exact .refl _

theorem execModRst_keeps (t low : Nat) (finished : Bool) (s : State) :
    ∀ u, execModRst t low finished s = .next u → (s.start t).settings.Keeps u.settings := by
  intro u h
  simp only [execModRst] at h
  repeat' split at h
  all_goals cases h
  · exact .refl _
  · exact .refl _
  · exact (State.reboot_keeps (s.start t) 1 (some 1) finished).then_eq (by simp)
  · exact .of_eq (by simp)

theorem State.storeTable_keeps (s : State) (m : TamMsg) (k : Nat) (l : List Nat) :
    s.settings.Keeps (s.storeTable m k l).settings := by
  simp only [State.storeTable]
  split
  · exact .of_eq (State.setExtent_settings s (nth l 0) (extentOfMessage m l))
  · exact ⟨rfl, rfl, fun h => { h with }⟩
  · exact ⟨rfl, rfl, fun h => { h with }⟩
  · exact .of_eq (by simp)
  · exact ⟨rfl, rfl, fun h => { h with }⟩
  · exact .refl _

theorem execPairOp_keeps (t : Nat) (m : TamMsg) (s : State) :
    ∀ u, execPairOp t m s = .next u → (s.start t).settings.Keeps u.settings := by
  intro u h
  simp only [execPairOp] at h
  repeat' split at h
  all_goals cases h
  all_goals first
    | exact State.storeTable_keeps _ _ _ _
    | exact .refl _
    | (refine .of_eq ?_; simp; done)

/-- What a load of the count or a loss of the auxiliary supply still keeps: the queue, and legal settings. -/
structure Settings.KeepsLegal (a b : Settings) : Prop where
  pending : b.pending = a.pending
  legal : a.Legal → b.Legal

theorem Settings.Keeps.weaken {a b : Settings} (h : a.Keeps b) : a.KeepsLegal b := ⟨h.pending, h.legal⟩

theorem Settings.KeepsLegal.of_eq {a b c : Settings} (e : b = a) (h : b.KeepsLegal c) : a.KeepsLegal c := e ▸ h

theorem Settings.KeepsLegal.then_eq {a b c : Settings} (h : a.KeepsLegal b) (g : c = b) : a.KeepsLegal c := g ▸ h

theorem State.setCount_keeps (s : State) (cc : CcBlk) (old : Governed) :
    s.settings.KeepsLegal (State.settings { s with cc := cc, old := old }) := ⟨rfl, fun h => { h with }⟩

theorem State.syncLoad_keeps (s : State) (agreed : Count) :
    s.settings.KeepsLegal (s.syncLoad agreed).settings := by
  simp only [State.syncLoad]
  split
  · exact (Settings.Keeps.of_eq (by simp)).weaken
  · refine (s.setCount_keeps { s.cc with now := agreed, slew := 0, slewTick := 0 } s.governs).then_eq ?_
    rw [State.record_settings, State.ccBit_settings, State.ccBit_settings]

theorem State.syncEvent_keeps (s : State) (agreed : Count) (n : Nat) :
    s.settings.KeepsLegal (s.syncEvent agreed n).settings := by
  have e (u : State) (c : BitVec 64) : State.settings { u with cc := { u.cc with lastSync := c } } = u.settings := rfl
  simp only [State.syncEvent, e]
  split
  · exact .of_eq (by simp) (State.syncLoad_keeps _ _)
  · exact (Settings.Keeps.of_eq (by simp)).weaken

theorem execTickLoopLock_keeps (t : Nat) (toRef : Bool) (s : State) :
    ∀ u, execTickLoopLock t toRef s = .next u → (s.start t).settings.Keeps u.settings := by
  intro u h
  have k (r : Bool) : (s.start t).settings.Keeps
      (State.settings { s.start t with cc := { (s.start t).cc with running := true, onRef := r } }) :=
    ⟨rfl, rfl, fun h => { h with }⟩
  simp only [execTickLoopLock] at h
  split at h <;> cases h
  · exact .refl _
  split
  · exact (k _).then_eq (by rw [State.ccBit_settings, State.ccBit_settings])
  · exact (k _).then_eq (by rw [State.clockEvent_settings, State.ccBit_settings, State.ccBit_settings,
      State.ccBit_settings, State.ccBit_settings])

theorem execCountSyncEdge_keeps (t : Nat) (falling : Bool) (s : State) :
    ∀ u, execCountSyncEdge t falling s = .next u → (s.start t).settings.KeepsLegal u.settings := by
  intro u h
  simp only [execCountSyncEdge] at h
  split at h <;> cases h
  · exact State.syncEvent_keeps _ _ _
  · exact (Settings.Keeps.refl _).weaken

theorem execSync_keeps (t port : Nat) (m : TamMsg) (s : State) :
    ∀ u, execSync t port m s = .next u → (s.start t).settings.KeepsLegal u.settings := by
  intro u h
  simp only [execSync] at h
  split at h <;> cases h
  · exact State.syncEvent_keeps _ _ _
  · exact (Settings.Keeps.refl _).weaken

theorem execAuxLoss_keeps (t : Nat) (finished : Bool) (s : State) :
    ∀ u, execAuxLoss t finished s = .next u → (s.start t).settings.KeepsLegal u.settings := by
  rintro _ ⟨⟩
  split
  · exact ⟨(State.auxLost_legal _ _).1, (State.auxLost_legal _ _).2⟩
  · exact (Settings.Keeps.refl _).weaken

theorem execShutdownSequence_keeps (t : Nat) (cause : ResetCause) (finished : Bool) (s : State) :
    ∀ u, execShutdownSequence t cause finished s = .next u → (s.start t).settings.KeepsLegal u.settings := by
  intro u h
  simp only [execShutdownSequence] at h
  split at h
  · cases h; exact (Settings.Keeps.refl _).weaken
  split at h <;> cases h
  · exact (Settings.Keeps.refl _).weaken
  · exact (State.reboot_keeps _ _ _ _).weaken
  · exact (State.reboot_keeps _ _ _ _).weaken
  · exact (State.reboot_keeps _ _ _ _).weaken
  · exact (State.trip_keeps _ _).weaken
  · exact (State.mainLost_keeps _ _).weaken
  · exact (State.mainLost_keeps _ _).weaken
  · exact ⟨(State.auxLost_legal _ _).1, (State.auxLost_legal _ _).2⟩

theorem execPowerUp_keeps (addr : BitVec 3) (s : State) :
    ∀ u, execPowerUp addr s = .next u → s.settings.KeepsLegal u.settings := by
  intro u h
  simp only [execPowerUp] at h
  split at h <;> cases h
  · exact ⟨rfl, id⟩
  · exact ⟨rfl, fun h => { h with }⟩

/-- The start of a command keeps the queue and legal settings; only the count moves, and never back (R28). -/
theorem State.start_keeps (s : State) (t : Count) :
    s.settings.KeepsLegal (s.start t).settings ∧ s.cc.now ≤ (s.start t).cc.now := by
  simp only [State.start, State.advance]
  split
  · exact ⟨⟨rfl, fun h => { h with }⟩, Nat.le_max_left _ _⟩
  · exact ⟨⟨rfl, id⟩, Nat.le_refl _⟩

end Sys2Proof.Machine
end

