-- ==== Sys2Proof/Laws/Sparse.lean ====
section
/-! SUPPORT. Sparse arrays: reading what was written, leaving the rest alone, and the canonical form. -/

namespace Sys2Proof.Machine

open Sys2Proof

variable {α : Type}

/-- The canonical form says that keys rise along the list. -/
theorem swf_iff (m : Sparse α) : swf m = true ↔ m.Pairwise fun a b => a.1 < b.1 := by
  induction m with
  | nil => simp [swf]
  | cons a m ih =>
    cases m with
    | nil => simp [swf]
    | cons b m =>
      simp only [swf, Bool.and_eq_true, decide_eq_true_eq, ih, List.pairwise_cons, List.mem_cons]
      grind

/-- Reading the entry that was set. -/
@[simp] theorem sget_sput_self [DecidableEq α] (d v : α) (m : Sparse α) (k : Nat) (h : swf m = true) :
    sget d (sput d m k v) k = v := by
  rw [swf_iff] at h
  induction m with
  | nil => grind [sget, sput]
  | cons a m ih =>
    cases m <;> grind [sget, sput, List.pairwise_cons]

/-- Setting one entry leaves every other. -/
theorem sget_sput_other [DecidableEq α] (d v : α) (m : Sparse α) (k j : Nat) (h : swf m = true) (n : j ≠ k) :
    sget d (sput d m k v) j = sget d m j := by
  rw [swf_iff] at h
  induction m with
  | nil => grind [sget, sput]
  | cons a m ih =>
    cases m <;> grind [sget, sput, List.pairwise_cons]

theorem key_sput [DecidableEq α] {d v : α} {m : Sparse α} {k : Nat} {e : Nat × α} (h : e ∈ sput d m k v) :
    e.1 = k ∨ ∃ x ∈ m, x.1 = e.1 := by
  induction m with
  | nil => grind [sput]
  | cons a m ih => grind [sput]

/-- Setting an entry keeps the canonical form. -/
theorem swf_sput [DecidableEq α] (d v : α) (m : Sparse α) (k : Nat) (h : swf m = true) :
    swf (sput d m k v) = true := by
  rw [swf_iff] at h ⊢
  induction m with
  | nil => grind [sput]
  | cons a m ih =>
    have := @key_sput α _ d v m k
    grind [sput, List.pairwise_cons]

/-- No entry equal to the default is listed. -/
theorem sput_ne_default [DecidableEq α] (d v : α) (m : Sparse α) (k : Nat) (h : ∀ e ∈ m, e.2 ≠ d) :
    ∀ e ∈ sput d m k v, e.2 ≠ d := by
  induction m with
  | nil => grind [sput]
  | cons a m ih => grind [sput]

/-- Finding the entry that was inserted. -/
@[simp] theorem sfind_sins_self (m : Sparse α) (k : Nat) (v : α) : sfind (sins m k v) k = some v := by
  induction m with
  | nil => simp [sins, sfind]
  | cons a m ih => grind [sins, sfind]

/-- Inserting one entry leaves every other. -/
theorem sfind_sins_other (m : Sparse α) (k j : Nat) (v : α) (n : j ≠ k) : sfind (sins m k v) j = sfind m j := by
  induction m with
  | nil => grind [sins, sfind]
  | cons a m ih => grind [sins, sfind]

theorem key_sins {m : Sparse α} {k : Nat} {v : α} {e : Nat × α} (h : e ∈ sins m k v) : e.1 = k ∨ ∃ x ∈ m, x.1 = e.1 := by
  induction m with
  | nil => grind [sins]
  | cons a m ih => grind [sins]

/-- Inserting an entry keeps the canonical form. -/
theorem swf_sins (m : Sparse α) (k : Nat) (v : α) (h : swf m = true) : swf (sins m k v) = true := by
  rw [swf_iff] at h ⊢
  induction m with
  | nil => grind [sins]
  | cons a m ih =>
    have := @key_sins α m k v
    grind [sins, List.pairwise_cons]

theorem mem_sdel {m : Sparse α} {k : Nat} {e : Nat × α} (h : e ∈ sdel m k) : e ∈ m := by
  induction m with
  | nil => grind [sdel]
  | cons a m ih => grind [sdel]

/-- Removing an entry keeps the canonical form. -/
theorem swf_sdel (m : Sparse α) (k : Nat) (h : swf m = true) : swf (sdel m k) = true := by
  rw [swf_iff] at h ⊢
  induction m with
  | nil => grind [sdel]
  | cons a m ih =>
    have := @mem_sdel α m k
    grind [sdel, List.pairwise_cons]

end Sys2Proof.Machine
end

