-- ==== Sys2Proof/Laws/State.lean ====
section
/-! SUPPORT. One lemma for each field that a named update leaves, and for what the start of a command leaves. -/

namespace Sys2Proof.Machine

open Sys2Proof

/-! ### The start of a command (R28, R227) -/

@[simp] theorem State.start_out (s : State) (t : Count) : (s.start t).out = [] := rfl

@[simp] theorem State.start_pending (s : State) (t : Count) : (s.start t).pending = s.pending := by
  simp only [State.start, State.advance]; split <;> rfl

@[simp] theorem State.start_plan (s : State) (t : Count) : (s.start t).plan = s.plan := by
  simp only [State.start, State.advance]; split <;> rfl

@[simp] theorem State.start_dir (s : State) (t : Count) : (s.start t).dir = s.dir := by
  simp only [State.start, State.advance]; split <;> rfl

@[simp] theorem State.start_ext (s : State) (t : Count) : (s.start t).ext = s.ext := by
  simp only [State.start, State.advance]; split <;> rfl

@[simp] theorem State.start_cod (s : State) (t : Count) : (s.start t).cod = s.cod := by
  simp only [State.start, State.advance]; split <;> rfl

@[simp] theorem State.start_mxe (s : State) (t : Count) : (s.start t).mxe = s.mxe := by
  simp only [State.start, State.advance]; split <;> rfl

@[simp] theorem State.start_spr (s : State) (t : Count) : (s.start t).spr = s.spr := by
  simp only [State.start, State.advance]; split <;> rfl

@[simp] theorem State.start_drm (s : State) (t : Count) : (s.start t).drm = s.drm := by
  simp only [State.start, State.advance]; split <;> rfl

@[simp] theorem State.start_fls (s : State) (t : Count) : (s.start t).fls = s.fls := by
  simp only [State.start, State.advance]; split <;> rfl

@[simp] theorem State.start_int (s : State) (t : Count) : (s.start t).int = s.int := by
  simp only [State.start, State.advance]; split <;> rfl

@[simp] theorem State.start_flt (s : State) (t : Count) : (s.start t).flt = s.flt := by
  simp only [State.start, State.advance]; split <;> rfl

@[simp] theorem State.start_det (s : State) (t : Count) : (s.start t).det = s.det := by
  simp only [State.start, State.advance]; split <;> rfl

@[simp] theorem State.start_ep (s : State) (t : Count) : (s.start t).ep = s.ep := by
  simp only [State.start, State.advance]; split <;> rfl

@[simp] theorem State.start_tam (s : State) (t : Count) : (s.start t).tam = s.tam := by
  simp only [State.start, State.advance]; split <;> rfl

@[simp] theorem State.start_sec (s : State) (t : Count) : (s.start t).sec = s.sec := by
  simp only [State.start, State.advance]; split <;> rfl

@[simp] theorem State.start_pwr (s : State) (t : Count) : (s.start t).pwr = s.pwr := by
  simp only [State.start, State.advance]; split <;> rfl

@[simp] theorem State.start_prt (s : State) (t : Count) : (s.start t).prt = s.prt := by
  simp only [State.start, State.advance]; split <;> rfl

@[simp] theorem State.start_gen (s : State) (t : Count) : (s.start t).gen = s.gen := by
  simp only [State.start, State.advance]; split <;> rfl

@[simp] theorem State.start_queues (s : State) (t : Count) : (s.start t).queues = s.queues := by
  simp only [State.start, State.advance]; split <;> rfl

@[simp] theorem State.start_allots (s : State) (t : Count) : (s.start t).allots = s.allots := by
  simp only [State.start, State.advance]; split <;> rfl

@[simp] theorem State.start_cmds (s : State) (t : Count) : (s.start t).cmds = s.cmds := by
  simp only [State.start, State.advance]; split <;> rfl

@[simp] theorem State.start_nextCmd (s : State) (t : Count) : (s.start t).nextCmd = s.nextCmd := by
  simp only [State.start, State.advance]; split <;> rfl

@[simp] theorem State.start_waiting (s : State) (t : Count) : (s.start t).waiting = s.waiting := by
  simp only [State.start, State.advance]; split <;> rfl

@[simp] theorem State.start_nextReq (s : State) (t : Count) : (s.start t).nextReq = s.nextReq := by
  simp only [State.start, State.advance]; split <;> rfl

@[simp] theorem State.start_lowHalf (s : State) (t : Count) : (s.start t).lowHalf = s.lowHalf := by
  simp only [State.start, State.advance]; split <;> rfl

@[simp] theorem State.start_woLow (s : State) (t : Count) : (s.start t).woLow = s.woLow := by
  simp only [State.start, State.advance]; split <;> rfl

@[simp] theorem State.start_ties (s : State) (t : Count) : (s.start t).ties = s.ties := by
  simp only [State.start, State.advance]; split <;> rfl

@[simp] theorem State.start_readHigh (s : State) (t : Count) : (s.start t).readHigh = s.readHigh := by
  simp only [State.start, State.advance]; split <;> rfl

@[simp] theorem State.start_readLog (s : State) (t : Count) : (s.start t).readLog = s.readLog := by
  simp only [State.start, State.advance]; split <;> rfl

@[simp] theorem State.start_free (s : State) (t : Count) : (s.start t).free = s.free := by
  simp only [State.start, State.advance]; split <;> rfl

@[simp] theorem State.start_allot (s : State) (t : Count) (n : Nat) : (s.start t).allot n = s.allot n := by
  simp [State.allot]

@[simp] theorem State.start_queue (s : State) (t : Count) (n : Nat) : (s.start t).queue n = s.queue n := by
  simp [State.queue]

@[simp] theorem State.start_ld (s : State) (t : Count) (n : Nat) : (s.start t).ld n = s.ld n := by
  simp [State.ld]

@[simp] theorem State.start_hport (s : State) (t : Count) (n : Nat) : (s.start t).hport n = s.hport n := by
  simp [State.hport]

@[simp] theorem State.start_tport (s : State) (t : Count) (n : Nat) : (s.start t).tport n = s.tport n := by
  simp [State.tport]

@[simp] theorem State.start_chan (s : State) (t : Count) (n : Nat) : (s.start t).chan n = s.chan n := by
  simp [State.chan]

@[simp] theorem State.start_dom (s : State) (t : Count) (n : Nat) : (s.start t).dom n = s.dom n := by
  simp [State.dom]

@[simp] theorem State.start_extent (s : State) (t : Count) (n : Nat) : (s.start t).extent n = s.extent n := by
  simp [State.extent]

@[simp] theorem State.start_frame (s : State) (t : Count) (n : Nat) : (s.start t).frame n = s.frame n := by
  simp [State.frame]

@[simp] theorem State.start_cmd (s : State) (t : Count) (n : Nat) : (s.start t).cmd n = s.cmd n := by
  simp [State.cmd]

@[simp] theorem State.start_ldOf (s : State) (t : Count) (n : Nat) : (s.start t).ldOf n = s.ldOf n := by
  simp [State.ldOf]

@[simp] theorem State.start_slot (s : State) (t : Count) (n : Nat) : (s.start t).slot n = s.slot n := by
  simp [State.slot]

@[simp] theorem State.start_served (s : State) (t : Count) (k : Nat) : (s.start t).served k = s.served k := by
  simp [State.served]

@[simp] theorem State.start_barOn (s : State) (t : Count) (n : Nat) : (s.start t).barOn n = s.barOn n := by
  simp [State.barOn]

/-! ### Updates -/

@[simp] theorem State.emit_pending (s : State) (o : Out) : (s.emit o).pending = s.pending := rfl

@[simp] theorem State.emit_cc (s : State) (o : Out) : (s.emit o).cc = s.cc := rfl

@[simp] theorem State.emit_plan (s : State) (o : Out) : (s.emit o).plan = s.plan := rfl

@[simp] theorem State.emit_col (s : State) (o : Out) : (s.emit o).col = s.col := rfl

@[simp] theorem State.emit_dir (s : State) (o : Out) : (s.emit o).dir = s.dir := rfl

@[simp] theorem State.emit_ext (s : State) (o : Out) : (s.emit o).ext = s.ext := rfl

@[simp] theorem State.emit_cod (s : State) (o : Out) : (s.emit o).cod = s.cod := rfl

@[simp] theorem State.emit_mxe (s : State) (o : Out) : (s.emit o).mxe = s.mxe := rfl

@[simp] theorem State.emit_spr (s : State) (o : Out) : (s.emit o).spr = s.spr := rfl

@[simp] theorem State.emit_drm (s : State) (o : Out) : (s.emit o).drm = s.drm := rfl

@[simp] theorem State.emit_fls (s : State) (o : Out) : (s.emit o).fls = s.fls := rfl

@[simp] theorem State.emit_int (s : State) (o : Out) : (s.emit o).int = s.int := rfl

@[simp] theorem State.emit_flt (s : State) (o : Out) : (s.emit o).flt = s.flt := rfl

@[simp] theorem State.emit_det (s : State) (o : Out) : (s.emit o).det = s.det := rfl

@[simp] theorem State.emit_ep (s : State) (o : Out) : (s.emit o).ep = s.ep := rfl

@[simp] theorem State.emit_tam (s : State) (o : Out) : (s.emit o).tam = s.tam := rfl

@[simp] theorem State.emit_sec (s : State) (o : Out) : (s.emit o).sec = s.sec := rfl

@[simp] theorem State.emit_pwr (s : State) (o : Out) : (s.emit o).pwr = s.pwr := rfl

@[simp] theorem State.emit_prt (s : State) (o : Out) : (s.emit o).prt = s.prt := rfl

@[simp] theorem State.emit_gen (s : State) (o : Out) : (s.emit o).gen = s.gen := rfl

@[simp] theorem State.emit_queues (s : State) (o : Out) : (s.emit o).queues = s.queues := rfl

@[simp] theorem State.emit_allots (s : State) (o : Out) : (s.emit o).allots = s.allots := rfl

@[simp] theorem State.emit_cmds (s : State) (o : Out) : (s.emit o).cmds = s.cmds := rfl

@[simp] theorem State.emit_nextCmd (s : State) (o : Out) : (s.emit o).nextCmd = s.nextCmd := rfl

@[simp] theorem State.emit_waiting (s : State) (o : Out) : (s.emit o).waiting = s.waiting := rfl

@[simp] theorem State.emit_nextReq (s : State) (o : Out) : (s.emit o).nextReq = s.nextReq := rfl

@[simp] theorem State.emit_lowHalf (s : State) (o : Out) : (s.emit o).lowHalf = s.lowHalf := rfl

@[simp] theorem State.emit_woLow (s : State) (o : Out) : (s.emit o).woLow = s.woLow := rfl

@[simp] theorem State.emit_ties (s : State) (o : Out) : (s.emit o).ties = s.ties := rfl

@[simp] theorem State.emit_old (s : State) (o : Out) : (s.emit o).old = s.old := rfl

@[simp] theorem State.emit_readHigh (s : State) (o : Out) : (s.emit o).readHigh = s.readHigh := rfl

@[simp] theorem State.emit_readLog (s : State) (o : Out) : (s.emit o).readLog = s.readLog := rfl

@[simp] theorem State.emit_free (s : State) (o : Out) : (s.emit o).free = s.free := rfl

@[simp] theorem State.setAllot_pending (s : State) (n : Nat) (a : Allot) : (s.setAllot n a).pending = s.pending := rfl

@[simp] theorem State.setAllot_out (s : State) (n : Nat) (a : Allot) : (s.setAllot n a).out = s.out := rfl

@[simp] theorem State.setAllot_cc (s : State) (n : Nat) (a : Allot) : (s.setAllot n a).cc = s.cc := rfl

@[simp] theorem State.setAllot_plan (s : State) (n : Nat) (a : Allot) : (s.setAllot n a).plan = s.plan := rfl

@[simp] theorem State.setAllot_col (s : State) (n : Nat) (a : Allot) : (s.setAllot n a).col = s.col := rfl

@[simp] theorem State.setAllot_dir (s : State) (n : Nat) (a : Allot) : (s.setAllot n a).dir = s.dir := rfl

@[simp] theorem State.setAllot_ext (s : State) (n : Nat) (a : Allot) : (s.setAllot n a).ext = s.ext := rfl

@[simp] theorem State.setAllot_cod (s : State) (n : Nat) (a : Allot) : (s.setAllot n a).cod = s.cod := rfl

@[simp] theorem State.setAllot_mxe (s : State) (n : Nat) (a : Allot) : (s.setAllot n a).mxe = s.mxe := rfl

@[simp] theorem State.setAllot_spr (s : State) (n : Nat) (a : Allot) : (s.setAllot n a).spr = s.spr := rfl

@[simp] theorem State.setAllot_drm (s : State) (n : Nat) (a : Allot) : (s.setAllot n a).drm = s.drm := rfl

@[simp] theorem State.setAllot_fls (s : State) (n : Nat) (a : Allot) : (s.setAllot n a).fls = s.fls := rfl

@[simp] theorem State.setAllot_int (s : State) (n : Nat) (a : Allot) : (s.setAllot n a).int = s.int := rfl

@[simp] theorem State.setAllot_flt (s : State) (n : Nat) (a : Allot) : (s.setAllot n a).flt = s.flt := rfl

@[simp] theorem State.setAllot_det (s : State) (n : Nat) (a : Allot) : (s.setAllot n a).det = s.det := rfl

@[simp] theorem State.setAllot_ep (s : State) (n : Nat) (a : Allot) : (s.setAllot n a).ep = s.ep := rfl

@[simp] theorem State.setAllot_tam (s : State) (n : Nat) (a : Allot) : (s.setAllot n a).tam = s.tam := rfl

@[simp] theorem State.setAllot_sec (s : State) (n : Nat) (a : Allot) : (s.setAllot n a).sec = s.sec := rfl

@[simp] theorem State.setAllot_pwr (s : State) (n : Nat) (a : Allot) : (s.setAllot n a).pwr = s.pwr := rfl

@[simp] theorem State.setAllot_prt (s : State) (n : Nat) (a : Allot) : (s.setAllot n a).prt = s.prt := rfl

@[simp] theorem State.setAllot_gen (s : State) (n : Nat) (a : Allot) : (s.setAllot n a).gen = s.gen := rfl

@[simp] theorem State.setAllot_queues (s : State) (n : Nat) (a : Allot) : (s.setAllot n a).queues = s.queues := rfl

@[simp] theorem State.setAllot_cmds (s : State) (n : Nat) (a : Allot) : (s.setAllot n a).cmds = s.cmds := rfl

@[simp] theorem State.setAllot_nextCmd (s : State) (n : Nat) (a : Allot) : (s.setAllot n a).nextCmd = s.nextCmd := rfl

@[simp] theorem State.setAllot_waiting (s : State) (n : Nat) (a : Allot) : (s.setAllot n a).waiting = s.waiting := rfl

@[simp] theorem State.setAllot_nextReq (s : State) (n : Nat) (a : Allot) : (s.setAllot n a).nextReq = s.nextReq := rfl

@[simp] theorem State.setAllot_lowHalf (s : State) (n : Nat) (a : Allot) : (s.setAllot n a).lowHalf = s.lowHalf := rfl

@[simp] theorem State.setAllot_woLow (s : State) (n : Nat) (a : Allot) : (s.setAllot n a).woLow = s.woLow := rfl

@[simp] theorem State.setAllot_ties (s : State) (n : Nat) (a : Allot) : (s.setAllot n a).ties = s.ties := rfl

@[simp] theorem State.setAllot_old (s : State) (n : Nat) (a : Allot) : (s.setAllot n a).old = s.old := rfl

@[simp] theorem State.setAllot_readHigh (s : State) (n : Nat) (a : Allot) : (s.setAllot n a).readHigh = s.readHigh := rfl

@[simp] theorem State.setAllot_readLog (s : State) (n : Nat) (a : Allot) : (s.setAllot n a).readLog = s.readLog := rfl

@[simp] theorem State.setAllot_free (s : State) (n : Nat) (a : Allot) : (s.setAllot n a).free = s.free := rfl

@[simp] theorem State.setQueue_pending (s : State) (q : Nat) (v : Queue) : (s.setQueue q v).pending = s.pending := rfl

@[simp] theorem State.setQueue_out (s : State) (q : Nat) (v : Queue) : (s.setQueue q v).out = s.out := rfl

@[simp] theorem State.setQueue_cc (s : State) (q : Nat) (v : Queue) : (s.setQueue q v).cc = s.cc := rfl

@[simp] theorem State.setQueue_plan (s : State) (q : Nat) (v : Queue) : (s.setQueue q v).plan = s.plan := rfl

@[simp] theorem State.setQueue_col (s : State) (q : Nat) (v : Queue) : (s.setQueue q v).col = s.col := rfl

@[simp] theorem State.setQueue_dir (s : State) (q : Nat) (v : Queue) : (s.setQueue q v).dir = s.dir := rfl

@[simp] theorem State.setQueue_ext (s : State) (q : Nat) (v : Queue) : (s.setQueue q v).ext = s.ext := rfl

@[simp] theorem State.setQueue_cod (s : State) (q : Nat) (v : Queue) : (s.setQueue q v).cod = s.cod := rfl

@[simp] theorem State.setQueue_mxe (s : State) (q : Nat) (v : Queue) : (s.setQueue q v).mxe = s.mxe := rfl

@[simp] theorem State.setQueue_spr (s : State) (q : Nat) (v : Queue) : (s.setQueue q v).spr = s.spr := rfl

@[simp] theorem State.setQueue_drm (s : State) (q : Nat) (v : Queue) : (s.setQueue q v).drm = s.drm := rfl

@[simp] theorem State.setQueue_fls (s : State) (q : Nat) (v : Queue) : (s.setQueue q v).fls = s.fls := rfl

@[simp] theorem State.setQueue_int (s : State) (q : Nat) (v : Queue) : (s.setQueue q v).int = s.int := rfl

@[simp] theorem State.setQueue_flt (s : State) (q : Nat) (v : Queue) : (s.setQueue q v).flt = s.flt := rfl

@[simp] theorem State.setQueue_det (s : State) (q : Nat) (v : Queue) : (s.setQueue q v).det = s.det := rfl

@[simp] theorem State.setQueue_ep (s : State) (q : Nat) (v : Queue) : (s.setQueue q v).ep = s.ep := rfl

@[simp] theorem State.setQueue_tam (s : State) (q : Nat) (v : Queue) : (s.setQueue q v).tam = s.tam := rfl

@[simp] theorem State.setQueue_sec (s : State) (q : Nat) (v : Queue) : (s.setQueue q v).sec = s.sec := rfl

@[simp] theorem State.setQueue_pwr (s : State) (q : Nat) (v : Queue) : (s.setQueue q v).pwr = s.pwr := rfl

@[simp] theorem State.setQueue_prt (s : State) (q : Nat) (v : Queue) : (s.setQueue q v).prt = s.prt := rfl

@[simp] theorem State.setQueue_gen (s : State) (q : Nat) (v : Queue) : (s.setQueue q v).gen = s.gen := rfl

@[simp] theorem State.setQueue_allots (s : State) (q : Nat) (v : Queue) : (s.setQueue q v).allots = s.allots := rfl

@[simp] theorem State.setQueue_cmds (s : State) (q : Nat) (v : Queue) : (s.setQueue q v).cmds = s.cmds := rfl

@[simp] theorem State.setQueue_nextCmd (s : State) (q : Nat) (v : Queue) : (s.setQueue q v).nextCmd = s.nextCmd := rfl

@[simp] theorem State.setQueue_waiting (s : State) (q : Nat) (v : Queue) : (s.setQueue q v).waiting = s.waiting := rfl

@[simp] theorem State.setQueue_nextReq (s : State) (q : Nat) (v : Queue) : (s.setQueue q v).nextReq = s.nextReq := rfl

@[simp] theorem State.setQueue_lowHalf (s : State) (q : Nat) (v : Queue) : (s.setQueue q v).lowHalf = s.lowHalf := rfl

@[simp] theorem State.setQueue_woLow (s : State) (q : Nat) (v : Queue) : (s.setQueue q v).woLow = s.woLow := rfl

@[simp] theorem State.setQueue_ties (s : State) (q : Nat) (v : Queue) : (s.setQueue q v).ties = s.ties := rfl

@[simp] theorem State.setQueue_old (s : State) (q : Nat) (v : Queue) : (s.setQueue q v).old = s.old := rfl

@[simp] theorem State.setQueue_readHigh (s : State) (q : Nat) (v : Queue) : (s.setQueue q v).readHigh = s.readHigh := rfl

@[simp] theorem State.setQueue_readLog (s : State) (q : Nat) (v : Queue) : (s.setQueue q v).readLog = s.readLog := rfl

@[simp] theorem State.setQueue_free (s : State) (q : Nat) (v : Queue) : (s.setQueue q v).free = s.free := rfl

@[simp] theorem State.setLd_pending (s : State) (k : Nat) (v : Ld) : (s.setLd k v).pending = s.pending := rfl

@[simp] theorem State.setLd_out (s : State) (k : Nat) (v : Ld) : (s.setLd k v).out = s.out := rfl

@[simp] theorem State.setLd_cc (s : State) (k : Nat) (v : Ld) : (s.setLd k v).cc = s.cc := rfl

@[simp] theorem State.setLd_plan (s : State) (k : Nat) (v : Ld) : (s.setLd k v).plan = s.plan := rfl

@[simp] theorem State.setLd_col (s : State) (k : Nat) (v : Ld) : (s.setLd k v).col = s.col := rfl

@[simp] theorem State.setLd_dir (s : State) (k : Nat) (v : Ld) : (s.setLd k v).dir = s.dir := rfl

@[simp] theorem State.setLd_ext (s : State) (k : Nat) (v : Ld) : (s.setLd k v).ext = s.ext := rfl

@[simp] theorem State.setLd_cod (s : State) (k : Nat) (v : Ld) : (s.setLd k v).cod = s.cod := rfl

@[simp] theorem State.setLd_mxe (s : State) (k : Nat) (v : Ld) : (s.setLd k v).mxe = s.mxe := rfl

@[simp] theorem State.setLd_spr (s : State) (k : Nat) (v : Ld) : (s.setLd k v).spr = s.spr := rfl

@[simp] theorem State.setLd_drm (s : State) (k : Nat) (v : Ld) : (s.setLd k v).drm = s.drm := rfl

@[simp] theorem State.setLd_fls (s : State) (k : Nat) (v : Ld) : (s.setLd k v).fls = s.fls := rfl

@[simp] theorem State.setLd_int (s : State) (k : Nat) (v : Ld) : (s.setLd k v).int = s.int := rfl

@[simp] theorem State.setLd_flt (s : State) (k : Nat) (v : Ld) : (s.setLd k v).flt = s.flt := rfl

@[simp] theorem State.setLd_det (s : State) (k : Nat) (v : Ld) : (s.setLd k v).det = s.det := rfl

@[simp] theorem State.setLd_tam (s : State) (k : Nat) (v : Ld) : (s.setLd k v).tam = s.tam := rfl

@[simp] theorem State.setLd_sec (s : State) (k : Nat) (v : Ld) : (s.setLd k v).sec = s.sec := rfl

@[simp] theorem State.setLd_pwr (s : State) (k : Nat) (v : Ld) : (s.setLd k v).pwr = s.pwr := rfl

@[simp] theorem State.setLd_prt (s : State) (k : Nat) (v : Ld) : (s.setLd k v).prt = s.prt := rfl

@[simp] theorem State.setLd_gen (s : State) (k : Nat) (v : Ld) : (s.setLd k v).gen = s.gen := rfl

@[simp] theorem State.setLd_queues (s : State) (k : Nat) (v : Ld) : (s.setLd k v).queues = s.queues := rfl

@[simp] theorem State.setLd_allots (s : State) (k : Nat) (v : Ld) : (s.setLd k v).allots = s.allots := rfl

@[simp] theorem State.setLd_cmds (s : State) (k : Nat) (v : Ld) : (s.setLd k v).cmds = s.cmds := rfl

@[simp] theorem State.setLd_nextCmd (s : State) (k : Nat) (v : Ld) : (s.setLd k v).nextCmd = s.nextCmd := rfl

@[simp] theorem State.setLd_waiting (s : State) (k : Nat) (v : Ld) : (s.setLd k v).waiting = s.waiting := rfl

@[simp] theorem State.setLd_nextReq (s : State) (k : Nat) (v : Ld) : (s.setLd k v).nextReq = s.nextReq := rfl

@[simp] theorem State.setLd_lowHalf (s : State) (k : Nat) (v : Ld) : (s.setLd k v).lowHalf = s.lowHalf := rfl

@[simp] theorem State.setLd_woLow (s : State) (k : Nat) (v : Ld) : (s.setLd k v).woLow = s.woLow := rfl

@[simp] theorem State.setLd_ties (s : State) (k : Nat) (v : Ld) : (s.setLd k v).ties = s.ties := rfl

@[simp] theorem State.setLd_old (s : State) (k : Nat) (v : Ld) : (s.setLd k v).old = s.old := rfl

@[simp] theorem State.setLd_readHigh (s : State) (k : Nat) (v : Ld) : (s.setLd k v).readHigh = s.readHigh := rfl

@[simp] theorem State.setLd_readLog (s : State) (k : Nat) (v : Ld) : (s.setLd k v).readLog = s.readLog := rfl

@[simp] theorem State.setLd_free (s : State) (k : Nat) (v : Ld) : (s.setLd k v).free = s.free := rfl

@[simp] theorem State.modHport_pending (s : State) (p : Nat) (f : HostPort → HostPort) : (s.modHport p f).pending = s.pending := rfl

@[simp] theorem State.modHport_out (s : State) (p : Nat) (f : HostPort → HostPort) : (s.modHport p f).out = s.out := rfl

@[simp] theorem State.modHport_cc (s : State) (p : Nat) (f : HostPort → HostPort) : (s.modHport p f).cc = s.cc := rfl

@[simp] theorem State.modHport_plan (s : State) (p : Nat) (f : HostPort → HostPort) : (s.modHport p f).plan = s.plan := rfl

@[simp] theorem State.modHport_col (s : State) (p : Nat) (f : HostPort → HostPort) : (s.modHport p f).col = s.col := rfl

@[simp] theorem State.modHport_dir (s : State) (p : Nat) (f : HostPort → HostPort) : (s.modHport p f).dir = s.dir := rfl

@[simp] theorem State.modHport_ext (s : State) (p : Nat) (f : HostPort → HostPort) : (s.modHport p f).ext = s.ext := rfl

@[simp] theorem State.modHport_cod (s : State) (p : Nat) (f : HostPort → HostPort) : (s.modHport p f).cod = s.cod := rfl

@[simp] theorem State.modHport_mxe (s : State) (p : Nat) (f : HostPort → HostPort) : (s.modHport p f).mxe = s.mxe := rfl

@[simp] theorem State.modHport_spr (s : State) (p : Nat) (f : HostPort → HostPort) : (s.modHport p f).spr = s.spr := rfl

@[simp] theorem State.modHport_drm (s : State) (p : Nat) (f : HostPort → HostPort) : (s.modHport p f).drm = s.drm := rfl

@[simp] theorem State.modHport_fls (s : State) (p : Nat) (f : HostPort → HostPort) : (s.modHport p f).fls = s.fls := rfl

@[simp] theorem State.modHport_int (s : State) (p : Nat) (f : HostPort → HostPort) : (s.modHport p f).int = s.int := rfl

@[simp] theorem State.modHport_flt (s : State) (p : Nat) (f : HostPort → HostPort) : (s.modHport p f).flt = s.flt := rfl

@[simp] theorem State.modHport_det (s : State) (p : Nat) (f : HostPort → HostPort) : (s.modHport p f).det = s.det := rfl

@[simp] theorem State.modHport_tam (s : State) (p : Nat) (f : HostPort → HostPort) : (s.modHport p f).tam = s.tam := rfl

@[simp] theorem State.modHport_sec (s : State) (p : Nat) (f : HostPort → HostPort) : (s.modHport p f).sec = s.sec := rfl

@[simp] theorem State.modHport_pwr (s : State) (p : Nat) (f : HostPort → HostPort) : (s.modHport p f).pwr = s.pwr := rfl

@[simp] theorem State.modHport_prt (s : State) (p : Nat) (f : HostPort → HostPort) : (s.modHport p f).prt = s.prt := rfl

@[simp] theorem State.modHport_gen (s : State) (p : Nat) (f : HostPort → HostPort) : (s.modHport p f).gen = s.gen := rfl

@[simp] theorem State.modHport_queues (s : State) (p : Nat) (f : HostPort → HostPort) : (s.modHport p f).queues = s.queues := rfl

@[simp] theorem State.modHport_allots (s : State) (p : Nat) (f : HostPort → HostPort) : (s.modHport p f).allots = s.allots := rfl

@[simp] theorem State.modHport_cmds (s : State) (p : Nat) (f : HostPort → HostPort) : (s.modHport p f).cmds = s.cmds := rfl

@[simp] theorem State.modHport_nextCmd (s : State) (p : Nat) (f : HostPort → HostPort) : (s.modHport p f).nextCmd = s.nextCmd := rfl

@[simp] theorem State.modHport_waiting (s : State) (p : Nat) (f : HostPort → HostPort) : (s.modHport p f).waiting = s.waiting := rfl

@[simp] theorem State.modHport_nextReq (s : State) (p : Nat) (f : HostPort → HostPort) : (s.modHport p f).nextReq = s.nextReq := rfl

@[simp] theorem State.modHport_lowHalf (s : State) (p : Nat) (f : HostPort → HostPort) : (s.modHport p f).lowHalf = s.lowHalf := rfl

@[simp] theorem State.modHport_woLow (s : State) (p : Nat) (f : HostPort → HostPort) : (s.modHport p f).woLow = s.woLow := rfl

@[simp] theorem State.modHport_ties (s : State) (p : Nat) (f : HostPort → HostPort) : (s.modHport p f).ties = s.ties := rfl

@[simp] theorem State.modHport_old (s : State) (p : Nat) (f : HostPort → HostPort) : (s.modHport p f).old = s.old := rfl

@[simp] theorem State.modHport_readHigh (s : State) (p : Nat) (f : HostPort → HostPort) : (s.modHport p f).readHigh = s.readHigh := rfl

@[simp] theorem State.modHport_readLog (s : State) (p : Nat) (f : HostPort → HostPort) : (s.modHport p f).readLog = s.readLog := rfl

@[simp] theorem State.modHport_free (s : State) (p : Nat) (f : HostPort → HostPort) : (s.modHport p f).free = s.free := rfl

@[simp] theorem State.modTport_pending (s : State) (p : Nat) (f : TamPort → TamPort) : (s.modTport p f).pending = s.pending := rfl

@[simp] theorem State.modTport_out (s : State) (p : Nat) (f : TamPort → TamPort) : (s.modTport p f).out = s.out := rfl

@[simp] theorem State.modTport_cc (s : State) (p : Nat) (f : TamPort → TamPort) : (s.modTport p f).cc = s.cc := rfl

@[simp] theorem State.modTport_plan (s : State) (p : Nat) (f : TamPort → TamPort) : (s.modTport p f).plan = s.plan := rfl

@[simp] theorem State.modTport_col (s : State) (p : Nat) (f : TamPort → TamPort) : (s.modTport p f).col = s.col := rfl

@[simp] theorem State.modTport_dir (s : State) (p : Nat) (f : TamPort → TamPort) : (s.modTport p f).dir = s.dir := rfl

@[simp] theorem State.modTport_ext (s : State) (p : Nat) (f : TamPort → TamPort) : (s.modTport p f).ext = s.ext := rfl

@[simp] theorem State.modTport_cod (s : State) (p : Nat) (f : TamPort → TamPort) : (s.modTport p f).cod = s.cod := rfl

@[simp] theorem State.modTport_mxe (s : State) (p : Nat) (f : TamPort → TamPort) : (s.modTport p f).mxe = s.mxe := rfl

@[simp] theorem State.modTport_spr (s : State) (p : Nat) (f : TamPort → TamPort) : (s.modTport p f).spr = s.spr := rfl

@[simp] theorem State.modTport_drm (s : State) (p : Nat) (f : TamPort → TamPort) : (s.modTport p f).drm = s.drm := rfl

@[simp] theorem State.modTport_fls (s : State) (p : Nat) (f : TamPort → TamPort) : (s.modTport p f).fls = s.fls := rfl

@[simp] theorem State.modTport_int (s : State) (p : Nat) (f : TamPort → TamPort) : (s.modTport p f).int = s.int := rfl

@[simp] theorem State.modTport_flt (s : State) (p : Nat) (f : TamPort → TamPort) : (s.modTport p f).flt = s.flt := rfl

@[simp] theorem State.modTport_det (s : State) (p : Nat) (f : TamPort → TamPort) : (s.modTport p f).det = s.det := rfl

@[simp] theorem State.modTport_ep (s : State) (p : Nat) (f : TamPort → TamPort) : (s.modTport p f).ep = s.ep := rfl

@[simp] theorem State.modTport_sec (s : State) (p : Nat) (f : TamPort → TamPort) : (s.modTport p f).sec = s.sec := rfl

@[simp] theorem State.modTport_pwr (s : State) (p : Nat) (f : TamPort → TamPort) : (s.modTport p f).pwr = s.pwr := rfl

@[simp] theorem State.modTport_prt (s : State) (p : Nat) (f : TamPort → TamPort) : (s.modTport p f).prt = s.prt := rfl

@[simp] theorem State.modTport_gen (s : State) (p : Nat) (f : TamPort → TamPort) : (s.modTport p f).gen = s.gen := rfl

@[simp] theorem State.modTport_queues (s : State) (p : Nat) (f : TamPort → TamPort) : (s.modTport p f).queues = s.queues := rfl

@[simp] theorem State.modTport_allots (s : State) (p : Nat) (f : TamPort → TamPort) : (s.modTport p f).allots = s.allots := rfl

@[simp] theorem State.modTport_cmds (s : State) (p : Nat) (f : TamPort → TamPort) : (s.modTport p f).cmds = s.cmds := rfl

@[simp] theorem State.modTport_nextCmd (s : State) (p : Nat) (f : TamPort → TamPort) : (s.modTport p f).nextCmd = s.nextCmd := rfl

@[simp] theorem State.modTport_waiting (s : State) (p : Nat) (f : TamPort → TamPort) : (s.modTport p f).waiting = s.waiting := rfl

@[simp] theorem State.modTport_nextReq (s : State) (p : Nat) (f : TamPort → TamPort) : (s.modTport p f).nextReq = s.nextReq := rfl

@[simp] theorem State.modTport_lowHalf (s : State) (p : Nat) (f : TamPort → TamPort) : (s.modTport p f).lowHalf = s.lowHalf := rfl

@[simp] theorem State.modTport_woLow (s : State) (p : Nat) (f : TamPort → TamPort) : (s.modTport p f).woLow = s.woLow := rfl

@[simp] theorem State.modTport_ties (s : State) (p : Nat) (f : TamPort → TamPort) : (s.modTport p f).ties = s.ties := rfl

@[simp] theorem State.modTport_old (s : State) (p : Nat) (f : TamPort → TamPort) : (s.modTport p f).old = s.old := rfl

@[simp] theorem State.modTport_readHigh (s : State) (p : Nat) (f : TamPort → TamPort) : (s.modTport p f).readHigh = s.readHigh := rfl

@[simp] theorem State.modTport_readLog (s : State) (p : Nat) (f : TamPort → TamPort) : (s.modTport p f).readLog = s.readLog := rfl

@[simp] theorem State.modTport_free (s : State) (p : Nat) (f : TamPort → TamPort) : (s.modTport p f).free = s.free := rfl

@[simp] theorem State.modChan_pending (s : State) (c : Nat) (f : Chan → Chan) : (s.modChan c f).pending = s.pending := rfl

@[simp] theorem State.modChan_out (s : State) (c : Nat) (f : Chan → Chan) : (s.modChan c f).out = s.out := rfl

@[simp] theorem State.modChan_cc (s : State) (c : Nat) (f : Chan → Chan) : (s.modChan c f).cc = s.cc := rfl

@[simp] theorem State.modChan_plan (s : State) (c : Nat) (f : Chan → Chan) : (s.modChan c f).plan = s.plan := rfl

@[simp] theorem State.modChan_col (s : State) (c : Nat) (f : Chan → Chan) : (s.modChan c f).col = s.col := rfl

@[simp] theorem State.modChan_dir (s : State) (c : Nat) (f : Chan → Chan) : (s.modChan c f).dir = s.dir := rfl

@[simp] theorem State.modChan_ext (s : State) (c : Nat) (f : Chan → Chan) : (s.modChan c f).ext = s.ext := rfl

@[simp] theorem State.modChan_cod (s : State) (c : Nat) (f : Chan → Chan) : (s.modChan c f).cod = s.cod := rfl

@[simp] theorem State.modChan_mxe (s : State) (c : Nat) (f : Chan → Chan) : (s.modChan c f).mxe = s.mxe := rfl

@[simp] theorem State.modChan_spr (s : State) (c : Nat) (f : Chan → Chan) : (s.modChan c f).spr = s.spr := rfl

@[simp] theorem State.modChan_fls (s : State) (c : Nat) (f : Chan → Chan) : (s.modChan c f).fls = s.fls := rfl

@[simp] theorem State.modChan_int (s : State) (c : Nat) (f : Chan → Chan) : (s.modChan c f).int = s.int := rfl

@[simp] theorem State.modChan_flt (s : State) (c : Nat) (f : Chan → Chan) : (s.modChan c f).flt = s.flt := rfl

@[simp] theorem State.modChan_det (s : State) (c : Nat) (f : Chan → Chan) : (s.modChan c f).det = s.det := rfl

@[simp] theorem State.modChan_ep (s : State) (c : Nat) (f : Chan → Chan) : (s.modChan c f).ep = s.ep := rfl

@[simp] theorem State.modChan_tam (s : State) (c : Nat) (f : Chan → Chan) : (s.modChan c f).tam = s.tam := rfl

@[simp] theorem State.modChan_sec (s : State) (c : Nat) (f : Chan → Chan) : (s.modChan c f).sec = s.sec := rfl

@[simp] theorem State.modChan_pwr (s : State) (c : Nat) (f : Chan → Chan) : (s.modChan c f).pwr = s.pwr := rfl

@[simp] theorem State.modChan_prt (s : State) (c : Nat) (f : Chan → Chan) : (s.modChan c f).prt = s.prt := rfl

@[simp] theorem State.modChan_gen (s : State) (c : Nat) (f : Chan → Chan) : (s.modChan c f).gen = s.gen := rfl

@[simp] theorem State.modChan_queues (s : State) (c : Nat) (f : Chan → Chan) : (s.modChan c f).queues = s.queues := rfl

@[simp] theorem State.modChan_allots (s : State) (c : Nat) (f : Chan → Chan) : (s.modChan c f).allots = s.allots := rfl

@[simp] theorem State.modChan_cmds (s : State) (c : Nat) (f : Chan → Chan) : (s.modChan c f).cmds = s.cmds := rfl

@[simp] theorem State.modChan_nextCmd (s : State) (c : Nat) (f : Chan → Chan) : (s.modChan c f).nextCmd = s.nextCmd := rfl

@[simp] theorem State.modChan_waiting (s : State) (c : Nat) (f : Chan → Chan) : (s.modChan c f).waiting = s.waiting := rfl

@[simp] theorem State.modChan_nextReq (s : State) (c : Nat) (f : Chan → Chan) : (s.modChan c f).nextReq = s.nextReq := rfl

@[simp] theorem State.modChan_lowHalf (s : State) (c : Nat) (f : Chan → Chan) : (s.modChan c f).lowHalf = s.lowHalf := rfl

@[simp] theorem State.modChan_woLow (s : State) (c : Nat) (f : Chan → Chan) : (s.modChan c f).woLow = s.woLow := rfl

@[simp] theorem State.modChan_ties (s : State) (c : Nat) (f : Chan → Chan) : (s.modChan c f).ties = s.ties := rfl

@[simp] theorem State.modChan_old (s : State) (c : Nat) (f : Chan → Chan) : (s.modChan c f).old = s.old := rfl

@[simp] theorem State.modChan_readHigh (s : State) (c : Nat) (f : Chan → Chan) : (s.modChan c f).readHigh = s.readHigh := rfl

@[simp] theorem State.modChan_readLog (s : State) (c : Nat) (f : Chan → Chan) : (s.modChan c f).readLog = s.readLog := rfl

@[simp] theorem State.modChan_free (s : State) (c : Nat) (f : Chan → Chan) : (s.modChan c f).free = s.free := rfl

@[simp] theorem State.modDom_pending (s : State) (d : Nat) (f : Domain → Domain) : (s.modDom d f).pending = s.pending := rfl

@[simp] theorem State.modDom_out (s : State) (d : Nat) (f : Domain → Domain) : (s.modDom d f).out = s.out := rfl

@[simp] theorem State.modDom_cc (s : State) (d : Nat) (f : Domain → Domain) : (s.modDom d f).cc = s.cc := rfl

@[simp] theorem State.modDom_plan (s : State) (d : Nat) (f : Domain → Domain) : (s.modDom d f).plan = s.plan := rfl

@[simp] theorem State.modDom_col (s : State) (d : Nat) (f : Domain → Domain) : (s.modDom d f).col = s.col := rfl

@[simp] theorem State.modDom_dir (s : State) (d : Nat) (f : Domain → Domain) : (s.modDom d f).dir = s.dir := rfl

@[simp] theorem State.modDom_ext (s : State) (d : Nat) (f : Domain → Domain) : (s.modDom d f).ext = s.ext := rfl

@[simp] theorem State.modDom_cod (s : State) (d : Nat) (f : Domain → Domain) : (s.modDom d f).cod = s.cod := rfl

@[simp] theorem State.modDom_mxe (s : State) (d : Nat) (f : Domain → Domain) : (s.modDom d f).mxe = s.mxe := rfl

@[simp] theorem State.modDom_spr (s : State) (d : Nat) (f : Domain → Domain) : (s.modDom d f).spr = s.spr := rfl

@[simp] theorem State.modDom_drm (s : State) (d : Nat) (f : Domain → Domain) : (s.modDom d f).drm = s.drm := rfl

@[simp] theorem State.modDom_fls (s : State) (d : Nat) (f : Domain → Domain) : (s.modDom d f).fls = s.fls := rfl

@[simp] theorem State.modDom_int (s : State) (d : Nat) (f : Domain → Domain) : (s.modDom d f).int = s.int := rfl

@[simp] theorem State.modDom_flt (s : State) (d : Nat) (f : Domain → Domain) : (s.modDom d f).flt = s.flt := rfl

@[simp] theorem State.modDom_det (s : State) (d : Nat) (f : Domain → Domain) : (s.modDom d f).det = s.det := rfl

@[simp] theorem State.modDom_ep (s : State) (d : Nat) (f : Domain → Domain) : (s.modDom d f).ep = s.ep := rfl

@[simp] theorem State.modDom_tam (s : State) (d : Nat) (f : Domain → Domain) : (s.modDom d f).tam = s.tam := rfl

@[simp] theorem State.modDom_sec (s : State) (d : Nat) (f : Domain → Domain) : (s.modDom d f).sec = s.sec := rfl

@[simp] theorem State.modDom_prt (s : State) (d : Nat) (f : Domain → Domain) : (s.modDom d f).prt = s.prt := rfl

@[simp] theorem State.modDom_gen (s : State) (d : Nat) (f : Domain → Domain) : (s.modDom d f).gen = s.gen := rfl

@[simp] theorem State.modDom_queues (s : State) (d : Nat) (f : Domain → Domain) : (s.modDom d f).queues = s.queues := rfl

@[simp] theorem State.modDom_allots (s : State) (d : Nat) (f : Domain → Domain) : (s.modDom d f).allots = s.allots := rfl

@[simp] theorem State.modDom_cmds (s : State) (d : Nat) (f : Domain → Domain) : (s.modDom d f).cmds = s.cmds := rfl

@[simp] theorem State.modDom_nextCmd (s : State) (d : Nat) (f : Domain → Domain) : (s.modDom d f).nextCmd = s.nextCmd := rfl

@[simp] theorem State.modDom_waiting (s : State) (d : Nat) (f : Domain → Domain) : (s.modDom d f).waiting = s.waiting := rfl

@[simp] theorem State.modDom_nextReq (s : State) (d : Nat) (f : Domain → Domain) : (s.modDom d f).nextReq = s.nextReq := rfl

@[simp] theorem State.modDom_lowHalf (s : State) (d : Nat) (f : Domain → Domain) : (s.modDom d f).lowHalf = s.lowHalf := rfl

@[simp] theorem State.modDom_woLow (s : State) (d : Nat) (f : Domain → Domain) : (s.modDom d f).woLow = s.woLow := rfl

@[simp] theorem State.modDom_ties (s : State) (d : Nat) (f : Domain → Domain) : (s.modDom d f).ties = s.ties := rfl

@[simp] theorem State.modDom_old (s : State) (d : Nat) (f : Domain → Domain) : (s.modDom d f).old = s.old := rfl

@[simp] theorem State.modDom_readHigh (s : State) (d : Nat) (f : Domain → Domain) : (s.modDom d f).readHigh = s.readHigh := rfl

@[simp] theorem State.modDom_readLog (s : State) (d : Nat) (f : Domain → Domain) : (s.modDom d f).readLog = s.readLog := rfl

@[simp] theorem State.modDom_free (s : State) (d : Nat) (f : Domain → Domain) : (s.modDom d f).free = s.free := rfl

@[simp] theorem State.setExtent_pending (s : State) (e : Nat) (x : Extent) : (s.setExtent e x).pending = s.pending := rfl

@[simp] theorem State.setExtent_out (s : State) (e : Nat) (x : Extent) : (s.setExtent e x).out = s.out := rfl

@[simp] theorem State.setExtent_cc (s : State) (e : Nat) (x : Extent) : (s.setExtent e x).cc = s.cc := rfl

@[simp] theorem State.setExtent_plan (s : State) (e : Nat) (x : Extent) : (s.setExtent e x).plan = s.plan := rfl

@[simp] theorem State.setExtent_col (s : State) (e : Nat) (x : Extent) : (s.setExtent e x).col = s.col := rfl

@[simp] theorem State.setExtent_dir (s : State) (e : Nat) (x : Extent) : (s.setExtent e x).dir = s.dir := rfl

@[simp] theorem State.setExtent_cod (s : State) (e : Nat) (x : Extent) : (s.setExtent e x).cod = s.cod := rfl

@[simp] theorem State.setExtent_mxe (s : State) (e : Nat) (x : Extent) : (s.setExtent e x).mxe = s.mxe := rfl

@[simp] theorem State.setExtent_spr (s : State) (e : Nat) (x : Extent) : (s.setExtent e x).spr = s.spr := rfl

@[simp] theorem State.setExtent_drm (s : State) (e : Nat) (x : Extent) : (s.setExtent e x).drm = s.drm := rfl

@[simp] theorem State.setExtent_fls (s : State) (e : Nat) (x : Extent) : (s.setExtent e x).fls = s.fls := rfl

@[simp] theorem State.setExtent_int (s : State) (e : Nat) (x : Extent) : (s.setExtent e x).int = s.int := rfl

@[simp] theorem State.setExtent_flt (s : State) (e : Nat) (x : Extent) : (s.setExtent e x).flt = s.flt := rfl

@[simp] theorem State.setExtent_det (s : State) (e : Nat) (x : Extent) : (s.setExtent e x).det = s.det := rfl

@[simp] theorem State.setExtent_ep (s : State) (e : Nat) (x : Extent) : (s.setExtent e x).ep = s.ep := rfl

@[simp] theorem State.setExtent_tam (s : State) (e : Nat) (x : Extent) : (s.setExtent e x).tam = s.tam := rfl

@[simp] theorem State.setExtent_sec (s : State) (e : Nat) (x : Extent) : (s.setExtent e x).sec = s.sec := rfl

@[simp] theorem State.setExtent_pwr (s : State) (e : Nat) (x : Extent) : (s.setExtent e x).pwr = s.pwr := rfl

@[simp] theorem State.setExtent_prt (s : State) (e : Nat) (x : Extent) : (s.setExtent e x).prt = s.prt := rfl

@[simp] theorem State.setExtent_gen (s : State) (e : Nat) (x : Extent) : (s.setExtent e x).gen = s.gen := rfl

@[simp] theorem State.setExtent_queues (s : State) (e : Nat) (x : Extent) : (s.setExtent e x).queues = s.queues := rfl

@[simp] theorem State.setExtent_allots (s : State) (e : Nat) (x : Extent) : (s.setExtent e x).allots = s.allots := rfl

@[simp] theorem State.setExtent_cmds (s : State) (e : Nat) (x : Extent) : (s.setExtent e x).cmds = s.cmds := rfl

@[simp] theorem State.setExtent_nextCmd (s : State) (e : Nat) (x : Extent) : (s.setExtent e x).nextCmd = s.nextCmd := rfl

@[simp] theorem State.setExtent_waiting (s : State) (e : Nat) (x : Extent) : (s.setExtent e x).waiting = s.waiting := rfl

@[simp] theorem State.setExtent_nextReq (s : State) (e : Nat) (x : Extent) : (s.setExtent e x).nextReq = s.nextReq := rfl

@[simp] theorem State.setExtent_lowHalf (s : State) (e : Nat) (x : Extent) : (s.setExtent e x).lowHalf = s.lowHalf := rfl

@[simp] theorem State.setExtent_woLow (s : State) (e : Nat) (x : Extent) : (s.setExtent e x).woLow = s.woLow := rfl

@[simp] theorem State.setExtent_ties (s : State) (e : Nat) (x : Extent) : (s.setExtent e x).ties = s.ties := rfl

@[simp] theorem State.setExtent_old (s : State) (e : Nat) (x : Extent) : (s.setExtent e x).old = s.old := rfl

@[simp] theorem State.setExtent_readHigh (s : State) (e : Nat) (x : Extent) : (s.setExtent e x).readHigh = s.readHigh := rfl

@[simp] theorem State.setExtent_readLog (s : State) (e : Nat) (x : Extent) : (s.setExtent e x).readLog = s.readLog := rfl

@[simp] theorem State.setExtent_free (s : State) (e : Nat) (x : Extent) : (s.setExtent e x).free = s.free := rfl

@[simp] theorem State.setFrame_pending (s : State) (n : Nat) (f : Frame) : (s.setFrame n f).pending = s.pending := rfl

@[simp] theorem State.setFrame_out (s : State) (n : Nat) (f : Frame) : (s.setFrame n f).out = s.out := rfl

@[simp] theorem State.setFrame_cc (s : State) (n : Nat) (f : Frame) : (s.setFrame n f).cc = s.cc := rfl

@[simp] theorem State.setFrame_plan (s : State) (n : Nat) (f : Frame) : (s.setFrame n f).plan = s.plan := rfl

@[simp] theorem State.setFrame_col (s : State) (n : Nat) (f : Frame) : (s.setFrame n f).col = s.col := rfl

@[simp] theorem State.setFrame_ext (s : State) (n : Nat) (f : Frame) : (s.setFrame n f).ext = s.ext := rfl

@[simp] theorem State.setFrame_cod (s : State) (n : Nat) (f : Frame) : (s.setFrame n f).cod = s.cod := rfl

@[simp] theorem State.setFrame_spr (s : State) (n : Nat) (f : Frame) : (s.setFrame n f).spr = s.spr := rfl

@[simp] theorem State.setFrame_drm (s : State) (n : Nat) (f : Frame) : (s.setFrame n f).drm = s.drm := rfl

@[simp] theorem State.setFrame_fls (s : State) (n : Nat) (f : Frame) : (s.setFrame n f).fls = s.fls := rfl

@[simp] theorem State.setFrame_int (s : State) (n : Nat) (f : Frame) : (s.setFrame n f).int = s.int := rfl

@[simp] theorem State.setFrame_flt (s : State) (n : Nat) (f : Frame) : (s.setFrame n f).flt = s.flt := rfl

@[simp] theorem State.setFrame_det (s : State) (n : Nat) (f : Frame) : (s.setFrame n f).det = s.det := rfl

@[simp] theorem State.setFrame_ep (s : State) (n : Nat) (f : Frame) : (s.setFrame n f).ep = s.ep := rfl

@[simp] theorem State.setFrame_tam (s : State) (n : Nat) (f : Frame) : (s.setFrame n f).tam = s.tam := rfl

@[simp] theorem State.setFrame_sec (s : State) (n : Nat) (f : Frame) : (s.setFrame n f).sec = s.sec := rfl

@[simp] theorem State.setFrame_pwr (s : State) (n : Nat) (f : Frame) : (s.setFrame n f).pwr = s.pwr := rfl

@[simp] theorem State.setFrame_prt (s : State) (n : Nat) (f : Frame) : (s.setFrame n f).prt = s.prt := rfl

@[simp] theorem State.setFrame_gen (s : State) (n : Nat) (f : Frame) : (s.setFrame n f).gen = s.gen := rfl

@[simp] theorem State.setFrame_queues (s : State) (n : Nat) (f : Frame) : (s.setFrame n f).queues = s.queues := rfl

@[simp] theorem State.setFrame_allots (s : State) (n : Nat) (f : Frame) : (s.setFrame n f).allots = s.allots := rfl

@[simp] theorem State.setFrame_cmds (s : State) (n : Nat) (f : Frame) : (s.setFrame n f).cmds = s.cmds := rfl

@[simp] theorem State.setFrame_nextCmd (s : State) (n : Nat) (f : Frame) : (s.setFrame n f).nextCmd = s.nextCmd := rfl

@[simp] theorem State.setFrame_waiting (s : State) (n : Nat) (f : Frame) : (s.setFrame n f).waiting = s.waiting := rfl

@[simp] theorem State.setFrame_nextReq (s : State) (n : Nat) (f : Frame) : (s.setFrame n f).nextReq = s.nextReq := rfl

@[simp] theorem State.setFrame_lowHalf (s : State) (n : Nat) (f : Frame) : (s.setFrame n f).lowHalf = s.lowHalf := rfl

@[simp] theorem State.setFrame_woLow (s : State) (n : Nat) (f : Frame) : (s.setFrame n f).woLow = s.woLow := rfl

@[simp] theorem State.setFrame_ties (s : State) (n : Nat) (f : Frame) : (s.setFrame n f).ties = s.ties := rfl

@[simp] theorem State.setFrame_old (s : State) (n : Nat) (f : Frame) : (s.setFrame n f).old = s.old := rfl

@[simp] theorem State.setFrame_readHigh (s : State) (n : Nat) (f : Frame) : (s.setFrame n f).readHigh = s.readHigh := rfl

@[simp] theorem State.setFrame_readLog (s : State) (n : Nat) (f : Frame) : (s.setFrame n f).readLog = s.readLog := rfl

@[simp] theorem State.setFrame_free (s : State) (n : Nat) (f : Frame) : (s.setFrame n f).free = s.free := rfl

@[simp] theorem State.modCmd_pending (s : State) (id : Nat) (f : Cmd → Cmd) : (s.modCmd id f).pending = s.pending := rfl

@[simp] theorem State.modCmd_out (s : State) (id : Nat) (f : Cmd → Cmd) : (s.modCmd id f).out = s.out := rfl

@[simp] theorem State.modCmd_cc (s : State) (id : Nat) (f : Cmd → Cmd) : (s.modCmd id f).cc = s.cc := rfl

@[simp] theorem State.modCmd_plan (s : State) (id : Nat) (f : Cmd → Cmd) : (s.modCmd id f).plan = s.plan := rfl

@[simp] theorem State.modCmd_col (s : State) (id : Nat) (f : Cmd → Cmd) : (s.modCmd id f).col = s.col := rfl

@[simp] theorem State.modCmd_dir (s : State) (id : Nat) (f : Cmd → Cmd) : (s.modCmd id f).dir = s.dir := rfl

@[simp] theorem State.modCmd_ext (s : State) (id : Nat) (f : Cmd → Cmd) : (s.modCmd id f).ext = s.ext := rfl

@[simp] theorem State.modCmd_cod (s : State) (id : Nat) (f : Cmd → Cmd) : (s.modCmd id f).cod = s.cod := rfl

@[simp] theorem State.modCmd_mxe (s : State) (id : Nat) (f : Cmd → Cmd) : (s.modCmd id f).mxe = s.mxe := rfl

@[simp] theorem State.modCmd_spr (s : State) (id : Nat) (f : Cmd → Cmd) : (s.modCmd id f).spr = s.spr := rfl

@[simp] theorem State.modCmd_drm (s : State) (id : Nat) (f : Cmd → Cmd) : (s.modCmd id f).drm = s.drm := rfl

@[simp] theorem State.modCmd_fls (s : State) (id : Nat) (f : Cmd → Cmd) : (s.modCmd id f).fls = s.fls := rfl

@[simp] theorem State.modCmd_int (s : State) (id : Nat) (f : Cmd → Cmd) : (s.modCmd id f).int = s.int := rfl

@[simp] theorem State.modCmd_flt (s : State) (id : Nat) (f : Cmd → Cmd) : (s.modCmd id f).flt = s.flt := rfl

@[simp] theorem State.modCmd_det (s : State) (id : Nat) (f : Cmd → Cmd) : (s.modCmd id f).det = s.det := rfl

@[simp] theorem State.modCmd_ep (s : State) (id : Nat) (f : Cmd → Cmd) : (s.modCmd id f).ep = s.ep := rfl

@[simp] theorem State.modCmd_tam (s : State) (id : Nat) (f : Cmd → Cmd) : (s.modCmd id f).tam = s.tam := rfl

@[simp] theorem State.modCmd_sec (s : State) (id : Nat) (f : Cmd → Cmd) : (s.modCmd id f).sec = s.sec := rfl

@[simp] theorem State.modCmd_pwr (s : State) (id : Nat) (f : Cmd → Cmd) : (s.modCmd id f).pwr = s.pwr := rfl

@[simp] theorem State.modCmd_prt (s : State) (id : Nat) (f : Cmd → Cmd) : (s.modCmd id f).prt = s.prt := rfl

@[simp] theorem State.modCmd_gen (s : State) (id : Nat) (f : Cmd → Cmd) : (s.modCmd id f).gen = s.gen := rfl

@[simp] theorem State.modCmd_queues (s : State) (id : Nat) (f : Cmd → Cmd) : (s.modCmd id f).queues = s.queues := rfl

@[simp] theorem State.modCmd_allots (s : State) (id : Nat) (f : Cmd → Cmd) : (s.modCmd id f).allots = s.allots := rfl

@[simp] theorem State.modCmd_nextCmd (s : State) (id : Nat) (f : Cmd → Cmd) : (s.modCmd id f).nextCmd = s.nextCmd := rfl

@[simp] theorem State.modCmd_waiting (s : State) (id : Nat) (f : Cmd → Cmd) : (s.modCmd id f).waiting = s.waiting := rfl

@[simp] theorem State.modCmd_nextReq (s : State) (id : Nat) (f : Cmd → Cmd) : (s.modCmd id f).nextReq = s.nextReq := rfl

@[simp] theorem State.modCmd_lowHalf (s : State) (id : Nat) (f : Cmd → Cmd) : (s.modCmd id f).lowHalf = s.lowHalf := rfl

@[simp] theorem State.modCmd_woLow (s : State) (id : Nat) (f : Cmd → Cmd) : (s.modCmd id f).woLow = s.woLow := rfl

@[simp] theorem State.modCmd_ties (s : State) (id : Nat) (f : Cmd → Cmd) : (s.modCmd id f).ties = s.ties := rfl

@[simp] theorem State.modCmd_old (s : State) (id : Nat) (f : Cmd → Cmd) : (s.modCmd id f).old = s.old := rfl

@[simp] theorem State.modCmd_readHigh (s : State) (id : Nat) (f : Cmd → Cmd) : (s.modCmd id f).readHigh = s.readHigh := rfl

@[simp] theorem State.modCmd_readLog (s : State) (id : Nat) (f : Cmd → Cmd) : (s.modCmd id f).readLog = s.readLog := rfl

@[simp] theorem State.modCmd_free (s : State) (id : Nat) (f : Cmd → Cmd) : (s.modCmd id f).free = s.free := rfl

end Sys2Proof.Machine
end

