-- ==== Sys2Proof/WellFormed.lean ====
section
/-! DEFINITION. Well-formed commands: every operand that names one of a fixed number of things names an
existing one. -/

namespace Sys2Proof

/-- Numbers of the part: host ports (R344), logical devices of a port (R342), Tamian ports (R368), queue
pairs (R238), channels (R107), dies (R127), engines (R176), physical cores (R202), allotments (R54),
classes (R220), Gate lanes (R432), event logs (R348), IDE streams of a port (R365), MSI-X vectors (R357). -/
def hostPorts : Nat := 8
@[inherit_doc hostPorts] def lds : Nat := 16
@[inherit_doc hostPorts] def tamianPorts : Nat := 4
@[inherit_doc hostPorts] def queueCount : Nat := 4096
@[inherit_doc hostPorts] def channels : Nat := 72
@[inherit_doc hostPorts] def dies : Nat := 512
@[inherit_doc hostPorts] def engines : Nat := 36
@[inherit_doc hostPorts] def cores : Nat := 4224
@[inherit_doc hostPorts] def allotments : Nat := 64
@[inherit_doc hostPorts] def classes : Nat := 16
@[inherit_doc hostPorts] def lanes : Nat := 12
@[inherit_doc hostPorts] def eventLogs : Nat := 5
@[inherit_doc hostPorts] def ideStreams : Nat := 10
@[inherit_doc hostPorts] def vectors : Nat := 128
@[inherit_doc hostPorts] def budgets : Nat := 1024
@[inherit_doc hostPorts] def stageEntries : Nat := 32
@[inherit_doc hostPorts] def stations : Nat := 42
@[inherit_doc hostPorts] def decoders : Nat := 4
@[inherit_doc hostPorts] def powerLevels : Nat := 4

/-- A number below a bound. -/
def inRange (i n : Nat) : Bool := decide (i < n)

/-- A register access of one aligned access of a bus: 1, 2, 4 or 8 bytes. The wrong width of a register is
no ill-formed command: R10 gives it an effect. -/
def accessWidth (w : Nat) : Bool := w == 1 || w == 2 || w == 4 || w == 8

/-- The operands of a command name existing things. -/
def Instr.wf : Instr → Bool
  | .load _ port ld _ _ => inRange port hostPorts && inRange ld lds
  | .store _ port ld _ _ _ _ _ => inRange port hostPorts && inRange ld lds
  | .peerRead _ port ld _ _ _ _ => inRange port hostPorts && inRange ld lds
  | .peerWrite _ port ld _ _ _ _ _ _ => inRange port hostPorts && inRange ld lds
  | .meterRelease _ _ => true
  | .urgencyRaise _ _ => true
  | .mergeBufferFill _ _ _ _ => true
  | .mergeFlushAge _ _ _ _ => true
  | .fillComplete _ _ _ _ _ _ => true
  | .writeBack _ _ _ => true
  | .flashReadDone _ _ _ _ _ => true
  | .flashProgramDone _ _ _ => true
  | .rebuildImage _ die => inRange die dies
  | .relocation _ die _ _ => inRange die dies
  | .shadowCopy _ _ _ _ => true
  | .synthJobDone _ _ eng _ _ => inRange eng engines
  | .sprigBatchAck _ core _ _ _ => inRange core cores
  | .sprigCoreTimeout _ core => inRange core cores
  | .stationReport _ _ station _ => inRange station stations
  | .pacedRelease _ _ => true
  | .heldCompletionWrite _ q => inRange q queueCount
  | .completionWriteError _ q => inRange q queueCount
  | .eventWrite _ n => inRange n allotments
  | .pageWipe _ => true
  | .scrubPassStart _ => true
  | .scrubFrame _ _ => true
  | .bucketLeak _ => true
  | .refreshDue _ ch _ => inRange ch channels
  | .pullInRefresh _ ch _ _ => inRange ch channels
  | .retrainingPause _ ch _ _ => inRange ch channels
  | .sweepSlice _ ch _ => inRange ch channels
  | .evacuationChunkCopy _ ch _ => inRange ch channels
  | .chunkSwitch _ ch => inRange ch channels
  | .holdupMeasure _ _ => true
  | .shutdownSequence _ _ _ => true
  | .inputLow _ _ => true
  | .inputHigh _ _ => true
  | .inputDisconnect _ _ _ => true
  | .auxLoss _ _ => true
  | .junctionSample _ _ => true
  | .powerGovernorSample _ _ _ _ _ _ => true
  | .paceSample _ _ => true
  | .replanPeriod _ => true
  | .replanMeasureDone _ _ _ _ => true
  | .planEffective _ => true
  | .reservationEffective _ n cls => inRange n allotments && inRange cls classes
  | .launchCountReached _ _ _ => true
  | .waitCountReached _ _ => true
  | .countRefLoss _ => true
  | .countRefReturn _ => true
  | .tickLoopLock _ _ => true
  | .countSyncEdge _ _ => true
  | .powerUp _ => true
  | .mainConversionStart _ => true
  | .pwrGood _ => true
  | .modRst _ _ _ => true
  | .watchdogExpiry _ _ => true
  | .bootRom _ _ => true
  | .dramTrainingDone _ _ _ => true
  | .restoreDone _ => true
  | .ready _ _ => true
  | .startupLate _ => true
  | .mapLoading _ _ => true
  | .perstAssert _ port => inRange port hostPorts
  | .perstDeassert _ port => inRange port hostPorts
  | .linkDown _ port => inRange port hostPorts
  | .linkDegraded _ port _ _ => inRange port hostPorts
  | .linkTrainingRetry _ port _ _ => inRange port hostPorts
  | .hdmDecoderCommit _ port ld k _ => inRange port hostPorts && inRange ld lds && inRange k decoders
  | .functionLevelReset _ port ld => inRange port hostPorts && inRange ld lds
  | .quiesce _ n => inRange n allotments
  | .busMasterClear _ port ld => inRange port hostPorts && inRange ld lds
  | .busMasterSet _ port ld => inRange port hostPorts && inRange ld lds
  | .d3hotEntry _ port ld => inRange port hostPorts && inRange ld lds
  | .d0Entry _ port ld => inRange port hostPorts && inRange ld lds
  | .partLowPowerEntry _ _ => true
  | .lowPowerExitDone _ _ => true
  | .memorySpaceEnable _ port ld _ => inRange port hostPorts && inRange ld lds
  | .msixVectorUnmask _ port ld vec => inRange port hostPorts && inRange ld lds && inRange vec vectors
  | .ideKm _ port ld stream _ => inRange port hostPorts && inRange ld lds && inRange stream ideStreams
  | .identify _ port ld => inRange port hostPorts && inRange ld lds
  | .getEventRecords _ port ld log => inRange port hostPorts && inRange ld lds && inRange log eventLogs
  | .clearEventRecords _ port ld log _ => inRange port hostPorts && inRange ld lds && inRange log eventLogs
  | .getEventInterruptPolicy _ port ld => inRange port hostPorts && inRange ld lds
  | .setEventInterruptPolicy _ port ld log vec => inRange port hostPorts && inRange ld lds && inRange log eventLogs && inRange vec vectors
  | .getTimestamp _ port ld => inRange port hostPorts && inRange ld lds
  | .getSupportedLogs _ port ld => inRange port hostPorts && inRange ld lds
  | .getLog _ port ld _ _ => inRange port hostPorts && inRange ld lds
  | .identifyMemoryDevice _ port ld => inRange port hostPorts && inRange ld lds
  | .getDynamicCapacityConfiguration _ port ld => inRange port hostPorts && inRange ld lds
  | .getDynamicCapacityExtentList _ port ld => inRange port hostPorts && inRange ld lds
  | .addDynamicCapacityResponse _ port ld _ => inRange port hostPorts && inRange ld lds
  | .releaseDynamicCapacity _ port ld _ => inRange port hostPorts && inRange ld lds
  | .getLdInfo _ port => inRange port hostPorts
  | .getLdAllocations _ port => inRange port hostPorts
  | .getQosControl _ port => inRange port hostPorts
  | .getQosStatus _ port ld => inRange port hostPorts && inRange ld lds
  | .getCertificate _ port ld _ _ => inRange port hostPorts && inRange ld lds
  | .challenge _ port ld _ => inRange port hostPorts && inRange ld lds
  | .getMeasurements _ port ld _ => inRange port hostPorts && inRange ld lds
  | .keyExchange _ port ld _ => inRange port hostPorts && inRange ld lds
  | .getPqChain _ port ld _ _ => inRange port hostPorts && inRange ld lds
  | .getPqSig _ port ld _ => inRange port hostPorts && inRange ld lds
  | .keyDeliver _ port ld _ _ => inRange port hostPorts && inRange ld lds
  | .keyForget _ port ld _ _ => inRange port hostPorts && inRange ld lds
  | .handleExpiry _ port ld _ => inRange port hostPorts && inRange ld lds
  | .getState _ => true
  | .cfgRecord _ _ _ _ => true
  | .powerLevel _ level => inRange level powerLevels
  | .wake _ port ld => inRange port hostPorts && inRange ld lds
  | .pldmSensorRead _ _ => true
  | .hello _ port _ _ _ _ _ => inRange port tamianPorts
  | .tamianLinkDown _ port _ => inRange port tamianPorts
  | .tamianTrainingRetry _ port _ => inRange port tamianPorts
  | .echo _ port _ => inRange port tamianPorts
  | .echoReply _ port _ => inRange port tamianPorts
  | .rttMeasure _ => true
  | .sync _ port _ => inRange port tamianPorts
  | .pageRead _ port _ _ => inRange port tamianPorts
  | .pageData _ port _ => inRange port tamianPorts
  | .pageWrite _ port _ => inRange port tamianPorts
  | .openRemote _ port _ => inRange port tamianPorts
  | .openReply _ port _ => inRange port tamianPorts
  | .publishRemote _ port _ => inRange port tamianPorts
  | .publishReply _ port _ => inRange port tamianPorts
  | .closeRemote _ port _ => inRange port tamianPorts
  | .revoked _ port _ => inRange port tamianPorts
  | .mirror _ _ => true
  | .mirrorAck _ _ => true
  | .pairOp _ _ => true
  | .heartbeat _ _ => true
  | .heartbeatSend _ => true
  | .partnerLoss _ => true
  | .resilverPage _ _ => true
  | .tamianRequestTimeout _ _ => true
  | .closeRemoteResend _ _ => true
  | .pageWriteDiscard _ _ _ => true
  | .publishCommit _ _ => true
  | .bisnpResponse _ port ld _ => inRange port hostPorts && inRange ld lds
  | .revokeComplete _ _ => true
  | .resizeMoveComplete _ _ _ => true
  | .snapshotRelease _ _ => true
  | .keyEraseFlashDone _ => true
  | .lifeRecordSummary _ => true
  | .hashWindowClose _ n => inRange n allotments
  | .replayBufferDrain _ _ => true
  | .replayInject _ _ => true
  | .logCopyDone _ => true
  | .packetFetch _ q _ _ _ => inRange q queueCount
  | .fetchError _ q => inRange q queueCount
  | .fill _ q _ _ => inRange q queueCount
  | .copy _ q _ _ => inRange q queueCount
  | .compare _ q _ _ => inRange q queueCount
  | .reduce _ q _ _ => inRange q queueCount
  | .scatterAdd _ q _ _ => inRange q queueCount
  | .gather _ q _ _ => inRange q queueCount
  | .recipe _ q _ _ => inRange q queueCount
  | .matmul _ q _ _ => inRange q queueCount
  | .synth _ q _ _ => inRange q queueCount
  | .hint _ q _ _ => inRange q queueCount
  | .pin _ q _ _ => inRange q queueCount
  | .unpin _ q _ _ => inRange q queueCount
  | .pageIn _ q _ _ => inRange q queueCount
  | .pageOut _ q _ _ => inRange q queueCount
  | .open_ _ q _ _ => inRange q queueCount
  | .publish _ q _ _ => inRange q queueCount
  | .close _ q _ _ => inRange q queueCount
  | .snapshot _ q _ _ => inRange q queueCount
  | .drain _ q _ _ => inRange q queueCount
  | .restore _ q _ _ => inRange q queueCount
  | .grant _ q _ _ => inRange q queueCount
  | .revoke _ q _ _ => inRange q queueCount
  | .resize _ q _ _ => inRange q queueCount
  | .query _ q _ _ => inRange q queueCount
  | .reserve _ q _ _ => inRange q queueCount
  | .release _ q _ _ => inRange q queueCount
  | .fence _ q _ _ => inRange q queueCount
  | .waitCount _ q _ _ => inRange q queueCount
  | .mark _ q _ _ => inRange q queueCount
  | .keyLoad _ q _ _ => inRange q queueCount
  | .keyDrop _ q _ _ => inRange q queueCount
  | .planSet _ q _ _ => inRange q queueCount
  | .powerSet _ q _ _ => inRange q queueCount
  | .replan _ q _ _ => inRange q queueCount
  | .altReset _ q _ _ => inRange q queueCount
  | .calendarSet _ q _ _ => inRange q queueCount
  | .testOpen _ q _ _ => inRange q queueCount
  | .replay _ q _ _ => inRange q queueCount
  | .fwStage _ q _ _ => inRange q queueCount
  | .doorbell _ n _ width _ => inRange n allotments && accessWidth width
  | .evtHead _ by_ n _ => inRange by_ allotments && inRange n allotments
  | .evtEnable _ by_ n _ => inRange by_ allotments && inRange n allotments
  | .queEnable _ by_ q _ => inRange by_ allotments && inRange q queueCount
  | .queRestart _ by_ q _ => inRange by_ allotments && inRange q queueCount
  | .queOwner _ q _ => inRange q queueCount
  | .altBind _ n _ => inRange n allotments
  | .altCtrl _ n _ => inRange n allotments
  | .winCommit _ by_ n _ => inRange by_ allotments && inRange n allotments
  | .winCommitCountReached _ n => inRange n allotments
  | .dirCtrl _ _ => true
  | .dirEntrySel _ _ => true
  | .pubSel _ _ => true
  | .codExtSel _ _ => true
  | .mxeEngSel _ _ => true
  | .mxeCompSel _ _ => true
  | .sprCoreSel _ _ => true
  | .colResSel _ _ => true
  | .drmChSel _ _ => true
  | .flsDieSel _ _ => true
  | .intChSel _ _ => true
  | .epPortSel _ _ => true
  | .epLdSel _ _ => true
  | .tamPortSel _ _ => true
  | .secSlotSel _ _ => true
  | .pwrDomSel _ _ => true
  | .ageDomSel _ _ => true
  | .tableLoad _ _ => true
  | .codGrantTable _ _ => true
  | .codExtTable _ _ => true
  | .recipeLoad _ _ => true
  | .recipeClear _ _ => true
  | .missEngines _ _ => true
  | .lsShare _ _ => true
  | .colBudget _ idx _ => inRange idx budgets
  | .colClass _ c _ => inRange c classes
  | .syncArm _ _ => true
  | .syncSend _ _ => true
  | .takeover _ _ => true
  | .rejoin _ _ => true
  | .fltReset _ _ _ => true
  | .cfgCommit _ _ => true
  | .secSlotAssign _ _ => true
  | .slotErase _ _ => true
  | .recoveryLoad _ _ _ => true
  | .detCtrl _ _ => true
  | .logCopy _ _ => true
  | .testClose _ _ => true
  | .prtGateDelay _ lane _ => inRange lane lanes
  | .prtStage _ _ _ => true
  | .prtRetrain _ _ => true
  | .symbolInject _ _ => true
  | .prtLink _ _ => true
  | .prtCodec _ _ => true
  | .registerWrite _ by_ _ width _ => inRange by_ allotments && accessWidth width
  | .eventWriteError _ n => inRange n allotments
  | .linkUp _ port _ _ => inRange port hostPorts
  | .slewComplete _ => true
  | .flitReplayRequest _ port _ => inRange port tamianPorts
  | .reservedMessageType _ port _ => inRange port tamianPorts
  | .endSession _ port ld _ => inRange port hostPorts && inRange ld lds
  | .modRstRelease _ => true

end Sys2Proof
end

