-- ==== Sys2Proof/Tests/Slice0.lean ====
section
/-! SUPPORT. Tests of the model: terms that the well-formedness checks refuse, single steps whose results stand in the
rules, and, for each statement of the obligations, states and operands that meet its hypotheses clause by clause. -/

namespace Sys2Proof.Tests

open Sys2Proof Sys2Proof.Machine

-- One proof at a time: each waits for the kernel, and a thread apiece is more memory than the check allows.
set_option Elab.async false

/-! ### Ill-formed commands -/

/-- A host port beyond H7 is refused (R344). -/
theorem test_wf_port : (Instr.perstAssert 0 8).wf = false := by decide
/-- A port below 8 is not (R344). -/
theorem test_wf_port_ok : (Instr.perstAssert 0 7).wf = true := by decide
/-- A logical device beyond LD-ID 15 is refused (R342). -/
theorem test_wf_ld : (Instr.identify 0 0 16).wf = false := by decide
/-- A Tamian port beyond T3 is refused (R368). -/
theorem test_wf_tamian : (Instr.tamianLinkDown 0 4 0).wf = false := by decide
/-- A queue pair beyond 4,095 is refused (R238). -/
theorem test_wf_queue : (Instr.fetchError 0 4096).wf = false := by decide
/-- A channel beyond 71 is refused (R107). -/
theorem test_wf_channel : (Instr.chunkSwitch 0 72).wf = false := by decide
/-- A die beyond 511 is refused (R127). -/
theorem test_wf_die : (Instr.rebuildImage 0 512).wf = false := by decide
/-- An engine beyond 35 is refused (R176). -/
theorem test_wf_engine : (Instr.synthJobDone 0 0 36 false noEnv).wf = false := by decide
/-- A core beyond 4,223 is refused (R202). -/
theorem test_wf_core : (Instr.sprigCoreTimeout 0 4224).wf = false := by decide
/-- An allotment beyond 63 is refused (R54). -/
theorem test_wf_allotment : (Instr.quiesce 0 64).wf = false := by decide
/-- A class beyond 15 is refused (R220). -/
theorem test_wf_class : (Instr.reservationEffective 0 0 16).wf = false := by decide
/-- A Gate lane beyond 11 is refused (R432). -/
theorem test_wf_lane : (Instr.prtGateDelay 0 12 0).wf = false := by decide
/-- An event log beyond 4 is refused (R348). -/
theorem test_wf_log : (Instr.getEventRecords 0 0 0 5).wf = false := by decide
/-- An IDE stream beyond 9 is refused (R365). -/
theorem test_wf_stream : (Instr.ideKm 0 0 0 10 true).wf = false := by decide
/-- An MSI-X vector beyond 127 is refused (R357). -/
theorem test_wf_vector : (Instr.msixVectorUnmask 0 0 0 128).wf = false := by decide
/-- A budget register beyond 1,023 is refused (R237). -/
theorem test_wf_budget : (Instr.colBudget 0 1024 0).wf = false := by decide
/-- A station beyond 41 is refused (R217). -/
theorem test_wf_station : (Instr.stationReport 0 0 42 noEnv).wf = false := by decide
/-- An HDM decoder beyond 3 is refused (R70). -/
theorem test_wf_decoder : (Instr.hdmDecoderCommit 0 0 0 4 ⟨0, 0, 1, 256, 0, 0⟩).wf = false := by decide
/-- A power level beyond P3 is refused (R417). -/
theorem test_wf_level : (Instr.powerLevel 0 4).wf = false := by decide
/-- An access of 3 bytes is refused, and one of 2, which R10 gives an effect, is not. -/
theorem test_wf_width : (Instr.registerWrite 0 0 0 3 0).wf = false ∧ (Instr.registerWrite 0 0 0 2 0).wf = true := by
  decide
/-- The table gives its rows no bits, so no word spells a command. -/
theorem test_decode : decodeTableWord 32 0 = none := by decide

/-! ### States -/

/-- A part at READY with its count running and synchronized, and a logical device of allotment 0 whose BARs decode and
that masters requests. -/
def up : State :=
  { State.reset with
    cc := { CcBlk.init with now := 100, running := true, onRef := true, status := 3 }
    gen := { GenBlk.init with phase := 6, aux := true, conv := true, pwrGood := true }
    ep := { EpBlk.init with lds := [(0, { Ld.init with mse := true, bme := true, memEn := true })] } }

/-- The same part with a plan in force. -/
def planned : State :=
  { up with plan := { up.plan with cur := { Plan.none with ver := 1, allow := 65536, caps := List.replicate 9 65536 } } }

/-- A PRIVATE extent of one page at local address 0. -/
def ext0 : Extent :=
  { base := 0, size := 65536, attr := 0x04, owner := 0, members := [(0, true)], salt := 0, nonce := 0, slot := 0
    rebound := none, written := none, desc := 0, pool := none, ver := 0, frozen := false, views := [], endedViews := [], pubs := []
    history := [], pubHorizon := 0, commits := [], openedAt := none, nextSet := 1, locks := [], revoke := none, memRevoke := [], shrink := none
    moving := none, remoteViews := [], inPages := [], homeRevoked := none }

/-- The part with that extent in its table. -/
def held : State := { planned with ext := { planned.ext with tbl := [(0, ext0)] } }

/-- An assigned queue in state `st`, of 16 entries in each ring. -/
def queue0 (st : Nat) : Queue :=
  { Queue.init with owner := 0x80000000, ctrl := queFields (st != 0) 0x840, state := st, fetching := 1 }

/-- The part with queue 5 in state `st`. -/
def queued (st : Nat) : State := { planned with queues := [(5, queue0 st)] }

/-- A command in phase `ph`. -/
def cmd0 (ph : CmdPhase) (p : Packet) : Cmd :=
  { id := 1, allot := 0, queue := 5, n := 0, pkt := p, stamp := 90, eff := 90, promise := 95, plan := 1, cls := 0
    prio := 0, inBudget := false, ordered := false, keyed := false, paced := false, intr := false, phase := ph, status := 0
    poison := false, damaged := false, result := 0, reads := [], writes := [], exts := [], vers := [], sets := [], left := []
    stations := [], accs := [], partials := [], accPoison := [], args := [], cnt := [], aux := [], covers := []
    injected := false, programs := 0 }

/-- The part with one command of opcode `op`. -/
def busy (ph : CmdPhase) (op : Nat) : State :=
  { held with cmds := [cmd0 ph (withOp 0 op)], queues := [(5, queue0 1)] }

/-- What a command leaves passes a test. -/
def after (c : Instr) (s : State) (f : State → Bool) : Bool :=
  match exec c s with | .next u => f u | _ => false

/-- R10: a write of 2 bytes is discarded and recorded with code 15. -/
theorem test_narrow : after (.registerWrite 0 0 0xC0000 2 5) up
    (fun u => u.drm.ctrl == up.drm.ctrl && (u.allot 0).log.any fun e => e.code == 15) = true := by decide +kernel

/-! ### Witnesses: the machine as a whole -/

/-- StepRunsTheFrontCommand; TimePasses: an empty queue, a running count and one that stands, a count in a slew at and
before the thousandth tick. -/
theorem test_witness_time :
    (up.pending = [] ∧ up.cc.running = true ∧ up.cc.slew = 0) ∧ State.reset.cc.running = false ∧
    (999 : Nat) < 1000 ∧ up.ties = [] ∧ ({ up with pending := [.getState 5] } : State).pending = .getState 5 :: [] := by
  repeat' first | apply And.intro | decide +kernel | rfl

/-- EveryCommandCompletes: pulses at both ends of the refused range and beside it. -/
theorem test_witness_pulse :
    exec (.modRst 0 100 true) up = .refused .undefinedPulse ∧ exec (.modRst 0 999 true) up = .refused .undefinedPulse ∧
    exec (.modRst 0 99 true) up = .next (up.start 0) ∧ (∃ u, exec (.modRst 0 1000 true) up = .next u) :=
  ⟨rfl, rfl, rfl, _, rfl⟩

/-- CommandsKeepTheQueue, SettingsAreKept, CountNeverDecreases, StepsKeepSettingsLegal: a step with a next state, of a
command that sets no setting. -/
theorem test_witness_next :
    setsSettings (.getState 5) = false ∧ (∃ u, exec (.getState 5) up = .next u) ∧ (∃ u, step State.reset = .next u) ∧
    (∀ t b, Instr.getState 5 ≠ .countSyncEdge t b) ∧ (∀ t p m, Instr.getState 5 ≠ .sync t p m) ∧
    (∀ a, Instr.getState 5 ≠ .powerUp a) ∧ (∀ t b, Instr.getState 5 ≠ .auxLoss t b) ∧
    (∀ t b, Instr.getState 5 ≠ .shutdownSequence t .aux b) :=
  ⟨rfl, ⟨_, rfl⟩, ⟨_, rfl⟩, nofun, nofun, nofun, nofun, nofun⟩

/-- ExpandedCountIsTheOneInItsWindow: the least and the greatest 48-bit value. -/
theorem test_witness_expand : (0 : Nat) < 2 ^ 48 ∧ (2 ^ 48 - 1 : Nat) < 2 ^ 48 ∧ (0 : Nat) + 2 ^ 47 ≤ 2 ^ 64 := by decide

/-- R34: a value just behind a stamp at a boundary of 2^48 lies before it, and one just ahead after it. -/
theorem test_expand : expand48 (2 ^ 48) (2 ^ 48 - 1) = 2 ^ 48 - 1 ∧ expand48 (2 ^ 48 - 1) 0 = 2 ^ 48 ∧
    expand48 5 (2 ^ 48 - 1) = 2 ^ 48 - 1 := by decide

/-- R127: die 511 stands on channel 31, in package 3, at position 3, in parity group 31; die 16 in group 1. -/
theorem test_die : dieChannel 511 = 31 ∧ diePackage 511 = 3 ∧ diePosition 511 = 3 ∧ dieGroup 511 = 31 ∧
    dieGroup 16 = 1 ∧ (16 : Nat) < 512 ∧ (31 : Nat) < 32 := by decide

/-- R201: the sliver of span 4,096 differs from that of span 0; AddressesAreSpread at the ends of its ranges. -/
theorem test_sliver : sliver 0 = 0 ∧ sliver (65536 * 4096) = 1 ∧ (4095 : Nat) < 4096 ∧ (31 : Nat) < 32 ∧
    (2097151 : Nat) < 2097152 ∧ (7 : Nat) < 8 := by decide

/-! ### Witnesses: registers -/

/-- The hypotheses of every statement about writes of host software: the part is managed. -/
theorem test_witness_managed : up.managed ∧ planned.managed ∧ held.managed := by
  repeat' first | apply And.intro | decide +kernel | rfl

/-- SelectorsTakeTheirSnapshot: an extent that is there and one that is not, a reservation that is there and one that is
not, and the ends of the channels, engines and cores. -/
theorem test_witness_selectors :
    (held.start 0).extent ((0 : Reg32) &&& 0xFFFF).toNat = some ext0 ∧
    (held.start 0).extent ((1 : Reg32) &&& 0xFFFF).toNat = none ∧
    (({ up with col := { up.col with res := [⟨0, 0, [], [], []⟩] } } : State).start 0).reservation 0 0 =
      some ⟨0, 0, [], [], []⟩ ∧
    (up.start 0).reservation 0 0 = none ∧ ((71 : Reg32) &&& 0x7F).toNat ≤ 71 ∧ 71 < ((72 : Reg32) &&& 0x7F).toNat ∧
    ((35 : Reg32) &&& 0x3F).toNat ≤ 35 ∧ 35 < ((36 : Reg32) &&& 0x3F).toNat ∧
    ((4223 : Reg32) &&& 0x1FFF).toNat ≤ 4223 ∧ 4223 < ((4224 : Reg32) &&& 0x1FFF).toNat := by
  repeat' first | apply And.intro | decide +kernel | rfl

/-- R126: DRM_CH_SEL of a channel that does not exist is ignored, and of channel 71 is taken. -/
theorem test_channel_sel : (∃ u, exec (.drmChSel 0 72) up = .next u ∧ u.drm.chSel = 0) ∧
    ∃ u, exec (.drmChSel 0 71) up = .next u ∧ u.drm.chSel = 71 := ⟨⟨_, rfl, rfl⟩, _, rfl, rfl⟩

/-- TableAndRecipeWrites: floors at and beside the ends of R77, an EXP extent that may take a table and an extent that
is not there, and a write of each LOAD alone. -/
theorem test_witness_tables :
    4 ≤ fld (4 : Reg32) 0 6 ∧ fld (32 : Reg32) 0 6 ≤ 32 ∧ fld (3 : Reg32) 0 6 < 4 ∧ 32 < fld (33 : Reg32) 0 6 ∧
    (held.start 0).extent (held.start 0).cod.extSel.toNat = some ext0 ∧ ext0.codec = 1 ∧
    ((held.start 0).codeTable (fld (0 : Reg32) 0 10)).isSome = true ∧ ext0.written = none ∧
    ({ ext0 with written := some 90 } : Extent).written ≠ none ∧
    (up.start 0).extent (up.start 0).cod.extSel.toNat = none ∧ bitOf (1 : Reg32) 1 = false ∧
    bitOf (2 : Reg32) 0 = false := by
  repeat' first | apply And.intro | decide +kernel | rfl

/-- SchedulerWrites: the ends of MISS_ENGINES and LS_SHARE, with and without a plan. -/
theorem test_witness_scheduler :
    fld (16 : Reg32) 0 5 ≤ 16 ∧ fld (16 : Reg32) 0 5 ≠ fld (up.start 0).mxe.ctrl 0 5 ∧ 16 < fld (17 : Reg32) 0 5 ∧
    fld (8 : Reg32) 0 5 = fld (up.start 0).mxe.ctrl 0 5 ∧ 100 ≤ fld (100 : Reg32) 0 10 ∧ fld (500 : Reg32) 0 10 ≤ 500 ∧
    fld (500 : Reg32) 0 10 ≠ fld (up.start 0).col.ctrl 0 10 ∧ fld (99 : Reg32) 0 10 < 100 ∧
    500 < fld (501 : Reg32) 0 10 ∧ fld (250 : Reg32) 0 10 = fld (up.start 0).col.ctrl 0 10 ∧
    (planned.start 0).plan.cur.ver ≠ 0 ∧ (up.start 0).plan.cur.ver = 0 := by
  repeat' first | apply And.intro | decide +kernel | rfl

/-- R222: a share of 99 thousandths is not taken, and one of 100 is. -/
theorem test_ls_share : (∃ u, exec (.lsShare 0 99) up = .next u ∧ u.col.ctrl = 250) ∧
    ∃ u, exec (.lsShare 0 100) up = .next u ∧ u.col.ctrl = 100 := ⟨⟨_, rfl, rfl⟩, _, rfl, rfl⟩

/-- BindingAndWindowWrites: commits that have and have not reached their count. -/
theorem test_witness_windows :
    (({ up with allots := [(0, { Allot.init0 with winPend := some (100, []) })] } : State).start 0 |>.allot 0).winPend =
      some (100, []) ∧ (100 : Nat) ≤ (up.start 0).now ∧ (up.start 0).now < 101 ∧
    ((up.start 0).allot 0).winPend = none := by
  repeat' first | apply And.intro | decide +kernel | rfl

/-- R55: allotment 0 cannot be bound, and R56: ALT_CTRL takes 21 and not 20. -/
theorem test_alt : (exec (.altBind 0 0 0x101) up = .next (up.start 0)) ∧
    (exec (.altCtrl 0 1 20) up = .next (up.start 0)) ∧
    ∃ u, exec (.altCtrl 0 1 21) up = .next u ∧ (u.allot 1).ctrl = 21 := ⟨rfl, rfl, _, rfl, rfl⟩

/-- QueueControlWrites: a DISABLED queue that is assigned, one that is not, a RUNNING queue and a STOPPED one, with ring
sizes at both ends of R239. -/
theorem test_witness_queue :
    swf ((queued 0).start 0).queues = true ∧ (((queued 0).start 0).queue 5).state = 0 ∧
    (((queued 0).start 0).queue 5).assigned = true ∧ bitOf (0x2041 : Reg32) 0 = true ∧
    4 ≤ fld (0x2041 : Reg32) 4 5 ∧ fld (0x2101 : Reg32) 4 5 ≤ 16 ∧ 4 ≤ fld (0x841 : Reg32) 9 5 ∧
    fld (0x2041 : Reg32) 9 5 ≤ 16 ∧ ((up.start 0).queue 5).assigned = false ∧ ((up.start 0).queue 5).state = 0 ∧
    (((queued 1).start 0).queue 5).state = 1 ∧ fld (0x840 : Reg32) 4 17 = fld (((queued 1).start 0).queue 5).ctrl 4 17 ∧
    bitOf (0x840 : Reg32) 0 = false ∧ bitOf (0x840 : Reg32) 1 = false ∧ (((queued 3).start 0).queue 5).state = 3 ∧
    ((queued 3).start 0).bme 0 = true ∧ bitOf (queue0 3).ctrl 0 = true ∧ (queue0 3).ctrl = queFields true (queue0 3).ctrl := by
  repeat' first | apply And.intro | decide +kernel | rfl

/-- R239: a queue that is not assigned is not enabled, and CFG_ERR is set. -/
theorem test_unassigned : ∃ u, exec (.queEnable 0 0 5 0x841) up = .next u ∧ (u.queue 5).cfgErr = true ∧
    (u.queue 5).state = 0 := ⟨_, rfl, rfl, rfl⟩

/-- DoorbellsSetIndices: an assigned queue, a tail and a head at the last index of the ring, one beyond each, and an
offset beyond the doorbells. -/
theorem test_witness_doorbell :
    (queued 1).barOn 0 = true ∧ ((queued 1).start 0).queueOf 0 0 = some 5 ∧ (((queued 1).start 0).queue 5).state ≠ 0 ∧
    fld (15 : Reg64) 0 16 < (queue0 1).sqSize ∧ (queue0 1).sqSize ≤ fld (16 : Reg64) 0 16 ∧
    fld (0 : Reg64) 0 16 < (queue0 1).cqSize ∧
    (fld (0 : Reg64) 0 16 + (queue0 1).cqSize - (queue0 1).cqHead) % (queue0 1).cqSize ≤
      ((queue0 1).cqTail + (queue0 1).cqSize - (queue0 1).cqHead) % (queue0 1).cqSize ∧
    ((queue0 1).cqTail + (queue0 1).cqSize - (queue0 1).cqHead) % (queue0 1).cqSize <
      (fld (1 : Reg64) 0 16 + (queue0 1).cqSize - (queue0 1).cqHead) % (queue0 1).cqSize := by
  repeat' first | apply And.intro | decide +kernel | rfl

/-- R241, R242: tail 15 of a ring of 16 is taken, and tail 16 is an error of source 4. -/
theorem test_doorbell : (∃ u, exec (.doorbell 0 0 0 4 15) (queued 1) = .next u ∧ (u.queue 5).sqTail = 15) ∧
    ∃ u, exec (.doorbell 0 0 0 4 16) (queued 1) = .next u ∧ (u.queue 5).sqTail = 0 ∧
      (u.allot 0).log.map (fun e => (e.code, e.source)) = [(0x0E, 4)] := ⟨⟨_, rfl, rfl⟩, _, rfl, rfl, rfl⟩

/-- EventRingRows: a ring that is off and one that is on, legal sizes at both ends and illegal ones beside them, an
event that is held and a group, on a ring that may be written and on one that may not. -/
theorem test_witness_events :
    bitOf ((up.start 0).allot 0).evtCtrl 0 = false ∧ bitOf (0x9 : Reg32) 0 = true ∧ 4 ≤ fld (0x9 : Reg32) 1 5 ∧
    fld (0x21 : Reg32) 1 5 ≤ 16 ∧ fld (0x7 : Reg32) 1 5 < 4 ∧ 16 < fld (0x23 : Reg32) 1 5 ∧
    (up.start 0).evtWritable 0 = false ∧
    (({ up with allots := [(0, { Allot.init0 with evtCtrl := 9, evtHeld := [1] })] } : State).start 0).evtWritable 0 =
      true ∧ fld (1 : EventEntry) 0 8 ≠ 8 ∧
    (({ up with allots := [(0, { Allot.init0 with evtCtrl := 9, evtGroup := [1] })] } : State).start 0 |>.allot 0).evtGroup
      = [1] ∧
    fld (eventEntry 2 7 []) 64 64 < fld (eventEntry 5 8 []) 64 64 ∧ fld (eventEntry 5 7 []) 64 64 ≤ fld (eventEntry 2 7 [])
      64 64 ∧ fld (eventEntry 8 7 []) 0 8 = 8 := by
  repeat' first | apply And.intro | decide +kernel | rfl

/-- R256: a PLAN_CHANGE group that was posted before the held event is written before it. -/
theorem test_group_first : ∃ u, exec (.eventWrite 0 0) { up with allots := [(0, { Allot.init0 with
      evtCtrl := 9, evtHeld := [eventEntry 5 8 []], evtNext := [eventEntry 2 7 []] })] } = .next u ∧
    (u.allot 0).evtNext = [] ∧ (u.allot 0).evtHeld = [eventEntry 5 8 []] := by
  refine ⟨_, rfl, ?_, ?_⟩ <;> decide +kernel

/-- RingRows: a queue that has something to fetch, one with a read outstanding whose completion counts and one whose
completion is discarded, a written entry, held entries with room, and a paced command at its promise and before it. -/
theorem test_witness_rings :
    quietEnv noEnv ∧ up.unheld ∧ ((up.start 0).queue 5).fetching = 0 ∧
    (((queued 1).start 0).queue 5).fetching ≠ 0 ∧ (((queued 1).start 0).queue 5).fetchDrop = false ∧
    ((queued 3).start 0 |>.queue 5).state ≠ 1 ∧ ((queued 3).start 0 |>.queue 5).state ≠ 2 ∧
    ((queued 2).start 0 |>.queue 5).state = 2 ∧
    (({ queued 1 with queues := [(5, { queue0 1 with written := some (1, 0, false), cqTail := 1 })] } : State).start 0
      |>.queue 5).written = some (1, 0, false) ∧
    ((queued 1).start 0).cqWritable 5 = true ∧ ((queued 1).start 0 |>.queue 5).held = [] ∧
    (((busy .paced 0x72).start 0).cmd 1).isSome = true ∧
    ((busy .paced 0x72).start 0).releasable (cmd0 .paced (withOp 0 0x72)) = true ∧
    ((busy .paced 0x72).start 0).releasable { cmd0 .paced (withOp 0 0x72) with paced := true, promise := 101 } = false ∧
    ((up.start 0).cmd 1) = none := by
  repeat' first | apply And.intro | decide +kernel | rfl

/-- SharedOperationsKeepTheRest: allotments in canonical form, and a log with nothing in it. -/
theorem test_witness_shared : swf State.reset.allots = true ∧ (State.reset.allot 0).log = [] ∧ (1 : Nat) ≠ 0 := by
  repeat' first | apply And.intro | decide +kernel | rfl

/-! ### Witnesses: start-up, resets, power -/

/-- The part in phase `n` of start-up. -/
def starting (n : Nat) : State := { up with gen := { up.gen with phase := n } }

/-- CommonCountRows: a count that runs and one that does not, with power; a LOAD and a CHECK at an armed event of each
source and edge, within and beyond the alignment; and a LOAD with an admitted command. -/
theorem test_witness_count :
    (({ up with cc := { up.cc with running := false } } : State).start 0).cc.running = false ∧ up.gen.aux = true ∧
    State.reset.gen.aux = false ∧ (up.start 0).cc.running = true ∧ up.managed ∧
    bitOf (0x1 : Reg32) 0 = true ∧ bitOf (0x1 : Reg32) 1 = false ∧ bitOf (0x1 : Reg32) 5 = false ∧
    bitOf (0x3 : Reg32) 1 = true ∧ fld (0x3 : Reg32) 3 2 = 0 ∧ bitOf up.cc.ctrl 0 = false ∧
    bitOf (0x5 : Reg32) 2 = true ∧ (∀ c ∈ up.cmds, c.phase = .asking) ∧
    (∀ c ∈ (busy .asking 0x72).cmds, c.phase = .asking) ∧ (∀ v ∈ (busy .asking 0x72).queues, v.2.held = []) ∧
    (∃ h ∈ ({ queue0 1 with held := [(0, 95, false, none)] } : Queue).held, h.2.1 ≠ 2 ^ 64) ∧
    (∀ h ∈ ({ queue0 1 with held := [(0, 2 ^ 64, false, none)] } : Queue).held, h.2.1 = 2 ^ 64) ∧ (∃ c ∈ (busy .running 0x72).cmds, c.phase ≠ .asking) ∧
    (((up.now : Int) - (98 : Int)).natAbs ≤ 2) ∧ (2 < ((up.now : Int) - (97 : Int)).natAbs) := by
  repeat' first | apply And.intro | decide +kernel | rfl

/-- R32: a LOAD makes the value the count, and R33: a CHECK 2 CC away starts a slew, one 3 CC away is an error. -/
theorem test_sync :
    (({ up with cc := { up.cc with ctrl := 5 } } : State).syncEvent 7 2).cc.now = 7 ∧
    (({ up with cc := { up.cc with ctrl := 1 } } : State).syncEvent 98 2).cc.slew = -2 ∧
    bitOf (({ up with cc := { up.cc with ctrl := 1 } } : State).syncEvent 97 2).cc.status 4 = true := by
  repeat' first | apply And.intro | decide +kernel | rfl

/-- StartUpRows, BootRomRow, ReadyRow: each phase, a map that loads and one that does not, and power without a lock. -/
theorem test_witness_startup :
    (∀ c ∈ ([] : List Nat), 72 ≤ c ∨ ((starting 3).start 0).drm.retired.contains c = true) ∧
    ((starting 3).start 0).gen.phase = 3 ∧ ((starting 4).start 0).gen.phase = 4 ∧ (up.start 0).gen.phase ≠ 4 ∧
    ((starting 5).start 0).gen.phase = 5 ∧ (up.start 0).gen.phase ≠ 3 ∧
    (({ up with fls := { up.fls with mapLoading := true } } : State).start 0).fls.mapLoading = true ∧
    (up.start 0).fls.mapLoading = false ∧ ((starting 1).start 0).gen.phase = 1 ∧
    ((starting 1).start 0).gen.pwrGood = true ∧ State.reset.gen.pwrGood = false ∧ up.sec.candidate = [] ∧
    ({ up with sec := { up.sec with candidate := [1] } } : State).sec.candidate ≠ [] := by
  repeat' first | apply And.intro | decide +kernel | rfl

/-- R463: without the PUF the boot ROM leaves the part in recovery state with reason 6. -/
theorem test_boot_without_puf : ∃ u, exec (.bootRom 0 false) (starting 1) = .next u ∧ u.gen.phase = 2 ∧
    u.sec.recovery = true ∧ u.sec.rcvStatus = 6 := ⟨_, rfl, rfl, rfl, rfl⟩

/-- R461: training that ends in DRAM_TRAINING leads to RESTORE. -/
theorem test_training_done : ∃ u, exec (.dramTrainingDone 0 [] []) (starting 3) = .next u ∧ u.gen.phase = 4 :=
  ⟨_, rfl, rfl⟩

/-- ResetRows: pulses at the ends of the ignored and the holding range, and a part that is on and not held. -/
theorem test_witness_reset : (99 : Nat) < 100 ∧ 1000 ≤ (1000 : Nat) ∧ (up.start 0).gen.aux = true ∧ up.managed ∧
    up.barOn 0 = true ∧ (up.start 0).gen.conv = true ∧ (up.start 0).gen.held = none ∧ State.reset.gen.conv = false ∧
    (State.reset.start 0).gen.held = none := by
  repeat' first | apply And.intro | decide +kernel | rfl

/-- R319: FLT_RESET with 0xA5A5 resets the part with cause 2 and keeps the count; any other value does nothing. -/
theorem test_flt_reset : (∃ u, exec (.fltReset 0 0xA5A5 true) up = .next u ∧ u.flt.lastReset = 2 ∧ u.cc.now = 100) ∧
    exec (.fltReset 0 0xA5A4 true) up = .next (up.start 0) := ⟨⟨_, rfl, rfl, rfl⟩, rfl⟩

/-- SupplyRows: voltages at and beside 40 V and 60 V, a measurement in MEASURE and out of it, and power-on time that is
counted. -/
theorem test_witness_supply : (3999 : Nat) < 4000 ∧ 4000 ≤ (4000 : Nat) ∧ 6000 < (6001 : Nat) ∧ (6000 : Nat) ≤ 6000 ∧
    (up.start 0).gen.conv = true ∧ ((starting 5).start 0).gen.phase = 5 ∧ (up.start 0).gen.phase ≠ 5 ∧
    (up.start 0).pwr.replanning = false ∧ (up.start 0).pwr.powerOnSince = none ∧
    (({ up with pwr := { up.pwr with powerOnSince := some 0 } } : State).start 0).pwr.powerOnSince ≠ none ∧
    (({ up with pwr := { up.pwr with powerOnBase := 3600 } } : State).start 0).pwr.summaryAt + 3600 ≤
      (({ up with pwr := { up.pwr with powerOnBase := 3600 } } : State).start 0).powerOn ∧
    (up.start 0).powerOn < (up.start 0).pwr.summaryAt + 3600 := by
  repeat' first | apply And.intro | decide +kernel | rfl

/-- R420: 40.00 V is no fault, and 39.99 V sets INPUT_LOW. -/
theorem test_input_low : exec (.inputLow 0 4000) up = .next (up.start 0) ∧
    ∃ u, exec (.inputLow 0 3999) up = .next u ∧ u.pwr.inputLow = true := ⟨rfl, _, rfl, rfl⟩

/-- SampleRows: a part that is on and not held, one without its conversion stage, and one that is held. -/
theorem test_witness_samples : (up.start 0).gen.conv = true ∧ (up.start 0).gen.held = none ∧
    (State.reset.start 0).gen.conv = false ∧
    (({ up with gen := { up.gen with held := some 0 } } : State).start 0).gen.held ≠ none := by
  repeat' first | apply And.intro | decide +kernel | rfl

/-- R419: a domain at 110 °C trips the part. -/
theorem test_trip : after (.junctionSample 0 [110]) up (fun u => u.gen.held == some 0 && u.gen.thermTrip) = true := by
  decide +kernel

/-- A plan that is pending for count `n`. -/
def pendingPlan (n : Nat) : State :=
  { planned with plan := { planned.plan with pend := some { Plan.none with ver := 2, effective := n } } }

/-- PlanRows: cuts that are due and none; no re-plan, a re-plan that no command waits for, no pending plan, and one that is due and one that is not. -/
theorem test_witness_plan : (planned.start 0).pwr.replanning = false ∧
    (({ planned with pwr := { planned.pwr with replanning := true } } : State).start 0).pwr.replanning = true ∧
    (planned.start 0).plan.cur.ver ≠ 0 ∧ (planned.start 0).pwr.replanCmds = [] ∧ (planned.start 0).plan.pend = none ∧
    (∃ c ∈ [(100 : Nat)], c ≤ (planned.start 0).now) ∧ (planned.start 0).plan.cutAt = [] ∧ (planned.start 0).plan.stepping = false ∧
    ((pendingPlan 100).start 0).plan.pend.isSome = true ∧ (100 : Nat) ≤ (planned.start 0).now ∧
    (planned.start 0).now < 101 := by
  repeat' first | apply And.intro | decide +kernel | rfl

/-- R49: a pending plan waits for its count. -/
theorem test_plan_effective : exec (.planEffective 0) (pendingPlan 101) = .next ((pendingPlan 101).start 0) := rfl

/-! ### Witnesses: host ports and functions -/

/-- The part with host port 0 as `h`. -/
def ported (h : HostPort) : State := { up with ep := { up.ep with ports := [(0, h)] } }

/-- PortRows: a merged port and one that is not; a link that trains, is up, or is down; points inside and outside
R345. -/
theorem test_witness_ports :
    (({ up with ep := { up.ep with portMode := 2 } } : State).start 0).portMode 0 = 2 ∧ (up.start 0).portMode 0 ≠ 2 ∧
    (((ported { HostPort.init with training := true }).start 0).hport 0).training = true ∧
    (((ported { HostPort.init with training := true }).start 0).hport 0).held = none ∧
    (((ported { HostPort.init with training := true, held := some 100 }).start 100).hport 0).held = some 100 ∧
    100 ≤ ((ported { HostPort.init with held := some 100 }).start 100).now ∧
    ((ported { HostPort.init with held := some 101 }).start 100).now < 101 ∧
    (up.start 0).pointOk 0 2 (up.fullWidth 0) = true ∧ (up.start 0).pointOk 0 3 (up.fullWidth 0) = false ∧
    ((up.start 0).hport 0).training = false ∧ ((up.start 0).hport 0).rate = 0 ∧
    (((ported { HostPort.init with rate := 2 }).start 0).hport 0).rate ≠ 0 := by
  repeat' first | apply And.intro | decide +kernel | rfl

/-- R454: PERST# that is released on a part with PWR_GOOD starts training. -/
theorem test_perst : ∃ u, exec (.perstDeassert 0 0) up = .next u ∧ (u.hport 0).training = true ∧
    (u.hport 0).perst = false := ⟨_, rfl, rfl, rfl⟩

/-- FunctionResetsClearTheirDevice: a logical device with an allotment and one without. -/
theorem test_witness_functions : up.allotOf 0 = some 0 ∧ up.allotOf 16 = none ∧ (127 : Nat) < 128 := by
  repeat' first | apply And.intro | decide +kernel | rfl

/-- FunctionRows: a function that serves and one that does not; bus mastering on and off; low power; a legal decoder
and one with three ways; streams that need LD 0 and that do not, with and without a session. -/
theorem test_witness_function_rows :
    (up.start 0).served 0 = true ∧ ((up.start 0).ld 0).crs = false ∧ ((starting 1).start 0).served 0 = false ∧
    ((up.start 0).ld 0).master = true ∧ ((up.start 0).ld 16).master = false ∧
    ((up.start 0).setLd 0 { (up.start 0).ld 0 with bme := false }).allotOf 0 = some 0 ∧
    ((up.start 0).setLd 0 { (up.start 0).ld 0 with dstate := 3 }).allotOf 0 = some 0 ∧ (up.start 0).ep.lowPower = false ∧
    (({ up with ep := { up.ep with lowPower := true } } : State).start 0).ep.lowPower = true ∧
    (up.start 0).allotOf 0 = some 0 ∧ (up.start 0).barOn 0 = true ∧ decoderOk ⟨0, 2 ^ 28, 8, 16384, 0, 0⟩ = true ∧
    decoderOk ⟨0, 2 ^ 28, 3, 256, 0, 0⟩ = false ∧ ((up.start 0).ld 0).sessions = [] ∧
    (({ up with ep := { up.ep with lds := [(0, { Ld.init with sessions := [1] })] } } : State).start 0 |>.ld 0).sessions
      ≠ [] ∧ 2 ≤ (2 : Nat) ∧ (1 : Nat) < 2 := by
  repeat' first | apply And.intro | decide +kernel | rfl

/-- R361: a function that enters D3hot masters nothing. -/
theorem test_d3hot : ∃ u, exec (.d3hotEntry 0 0 0) up = .next u ∧ (u.ld 0).dstate = 3 ∧ (u.ld 0).master = false :=
  ⟨_, rfl, rfl, rfl⟩

/-- QuiesceEndsTheReset: a reset whose work is done, one whose bound of 100 ms has passed, and none. -/
theorem test_witness_quiesce :
    ((up.start 0).allot 0).resetAt = none ∧
    (({ up with allots := [(0, { Allot.init0 with state := 2, resetAt := some (50, 0, 0) })] } : State).start 0
      |>.allot 0).resetAt = some (50, 0, 0) ∧
    (({ up with allots := [(0, { Allot.init0 with state := 2, resetAt := some (50, 0, 0) })] } : State).start 0).resetBusy
      0 50 = false ∧ 50 + 100000000 ≤ (up.start 100000050).now ∧ (up.start 100000049).now < 50 + 100000000 ∧
    ({ up with waiting := [.blank 0 0 0 0 0 49 0 false] } : State).resetBusy 0 50 = true := by
  repeat' first | apply And.intro | decide +kernel | rfl

/-- LowPowerRows: a part that may rest, one that may not, and one that is leaving the state. -/
theorem test_witness_low_power :
    (({ up with ep := { up.ep with lds := [(0, { Ld.init with dstate := 3 })] } } : State).startEnv 0 noEnv).mayRest =
      true ∧ (up.startEnv 0 noEnv).mayRest = false ∧ (up.startEnv 0 noEnv).ep.exiting = false ∧
    (({ up with ep := { up.ep with exiting := true } } : State).startEnv 0 noEnv).ep.exiting = true ∧
    (∀ x ∈ [((5 : Nat), (8 : Nat), false)], 8 ≤ x.2.1) ∧ (∃ x ∈ [((5 : Nat), (7 : Nat), false)], x.2.1 < 8) ∧
    [((5 : Nat), (7 : Nat), false)].find? (·.1 == 5) = some (5, 7, false) ∧ (up.chan 5).out = false ∧
    swf up.drm.chans = true := by
  repeat' first | apply And.intro | decide +kernel | rfl

/-! ### Witnesses: mailbox, SPDM, management bus -/

/-- MailboxQueries: a device whose BARs decode, one without an allotment, one whose BARs do not decode; the last byte of
the log and one beyond; a port in MLD mode and one that is not. -/
theorem test_witness_mailbox :
    (up.start 0).allotOf (ldKey 0 0) = some 0 ∧ (up.start 0).barOn 0 = true ∧ (up.start 0).allotOf (ldKey 1 0) = none ∧
    (State.reset.start 0).allotOf (ldKey 0 0) = some 0 ∧ (State.reset.start 0).barOn 0 = false ∧ 51 + 1 ≤ (52 : Nat) ∧
    (52 : Nat) < 52 + 1 ∧ (1 : Nat) ≠ 0 ∧ (1 : Nat) ≠ 4 ∧ (up.start 0).portMode 0 ≠ 1 ∧
    (({ up with ep := { up.ep with portMode := 1 } } : State).start 0).portMode 0 = 1 := by
  repeat' first | apply And.intro | decide +kernel | rfl

/-- MailboxChanges: handles that are there and that are not, vectors 127 and 128, offers that are there and that are
not, a range within an accepted one, and a part that is not READY. -/
theorem test_witness_mailbox_changes :
    (∀ x ∈ [1], ∃ r ∈ [(1, 0, 0)], r.1 = x) ∧ (∃ x ∈ [2], ∀ r ∈ [(1, 0, 0)], r.1 ≠ x) ∧ (127 : Nat) < 128 ∧
    128 ≤ (128 : Nat) ∧ (up.start 0).gen.phase = 6 ∧ ((starting 5).start 0).gen.phase ≠ 6 ∧
    ((starting 5).start 0).barOn 0 = true ∧ (0, 65536) ∈ [(0, 65536)] ∧ (0, 65536) ∉ ([] : List (Nat × Nat)) ∧
    (0 : Nat) ≤ 0 ∧ 0 + 65536 ≤ (0 : Nat) + 65536 := by
  repeat' first | apply And.intro | decide +kernel | rfl

/-- R348: vector 128 is refused with return code 2. -/
theorem test_event_policy : ∃ u, exec (.setEventInterruptPolicy 0 0 0 0 128) up = .next u ∧ u.out = [.reply 2 [] []] :=
  ⟨_, rfl, rfl⟩

/-- SpdmRows: a serving device; an open session and one that is not; 15 and 16 handles; bytes that were signed and
none. -/
theorem test_witness_spdm :
    (up.start 0).served (ldKey 0 0) = true ∧ ((up.start 0).ld 0).crs = false ∧ swf (up.start 0).ep.lds = true ∧
    (1 : Nat) ∈ [1] ∧ (1 : Nat) ∉ ((up.start 0).ld 0).sessions ∧ ((up.start 0).ld 0).lastSigned = none ∧
    ({ Ld.init with lastSigned := some [] } : Ld).lastSigned = some [] ∧
    (List.replicate 15 ((0 : Nat), (0 : BitVec 256), (0 : Nat), (0 : Nat))).length < 16 ∧
    16 ≤ (List.replicate 16 ((0 : Nat), (0 : BitVec 256), (0 : Nat), (0 : Nat))).length := by
  repeat' first | apply And.intro | decide +kernel | rfl

/-- R406: a key without a session is refused with return code 0x0B. -/
theorem test_key_without_session : ∃ u, exec (.keyDeliver 0 0 0 none 1) up = .next u ∧ u.out = [.reply 0x0B [] []] ∧
    (u.ld 0).handles = [] := ⟨_, rfl, rfl, rfl⟩

/-- ManagementBusRows: every phase that refuses, the phases that hold and that set a level, levels P3 and one beyond,
sensors 5, 6 and 7, and a piece that ends at the record's last byte. -/
theorem test_witness_management :
    ((starting 0).start 0).gen.phase = 0 ∧ ((starting 7).start 0).gen.phase = 7 ∧ ((starting 1).start 0).gen.phase = 1 ∧
    ((starting 5).start 0).gen.phase ≠ 6 ∧ (up.start 0).gen.phase = 6 ∧ (3 : Nat) ≤ 3 ∧ 3 < (4 : Nat) ∧ (5 : Nat) < 6 ∧
    6 < (7 : Nat) ∧ (up.start 0).gen.conv = true ∧ (State.reset.start 0).gen.conv = false ∧
    (List.replicate 256 (0 : BitVec 8)).length ≤ 256 ∧ 16920 + (List.replicate 256 (0 : BitVec 8)).length ≤ 17176 := by
  repeat' first | apply And.intro | decide +kernel | rfl

/-- R460: a level that is asked for before READY is held. -/
theorem test_power_level : ∃ u, exec (.powerLevel 0 2) (starting 5) = .next u ∧ u.plan.heldLevel = some 2 :=
  ⟨_, rfl, rfl⟩

/-- ConfigurationAndSlotWrites: a record that fails; a slot that is loaded and one that is not, and a slot that no extent
is bound to and one that an extent is bound to. -/
theorem test_witness_slots :
    up.judgeRecord [] ≠ 0 ∧ up.barOn 0 = true ∧ ((up.start 0).slot 0).loaded = false ∧
    (({ up with sec := { up.sec with slots := [(0, ⟨true, 0, 1⟩)] } } : State).start 0 |>.slot 0).loaded = true ∧
    (up.start 0).slotBound 0 = 0 := by
  repeat' first | apply And.intro | decide +kernel | rfl

/-! ### Witnesses: Tamian and paired expanders -/

/-- The part with Tamian port `p` as `y`, its own number 1 and its partner's 2. -/
def linked (p : Nat) (y : TamPort) (id : Reg32) : State :=
  { planned with
    tam := { planned.tam with id := id, ports := [(p, y)], ctrl := 0x000F0106 }
    sec := { planned.sec with cfgValid := true } }

/-- A port that is up at x8. -/
def upPort : TamPort := { TamPort.init with up := true, width := 2, peer := 2 }

/-- A message of `type` from part 2 to part `dst`. -/
def msg0 (type dst : Nat) : TamMsg :=
  { type := type, flags := 0, cls := 0, hops := 1, src := 2, dst := dst, status := 0, tag := 7, addr := 0, nums := []
    lines := [], lens := 0 }

/-- TamianLinkRows: a port that is enabled and up, one that is down, and one that is retired; a peer with this part's
own number and one with another; widths 0, 1 and 2; three and four trainings in 24 h; a replay of the last 512 flits. -/
theorem test_witness_tamian :
    ((linked 0 upPort 1).start 0).portEnabled 0 = true ∧ ((linked 0 upPort 1).start 0).myId = 1 ∧
    (((linked 0 upPort 1).start 0).tport 0).up = true ∧ (((linked 0 upPort 1).start 0).tport 1).up = false ∧
    (((linked 0 upPort 1).start 0).tport 0).retired = false ∧ ((up.start 0).tport 0).up = false ∧
    (({ upPort with retired := true } : TamPort).retired = true) ∧ (0 : Nat) ≠ 1 ∧ (0 : Nat) ≠ 2 ∧ (2 : Nat) ≠ 1 ∧
    bitOf ((linked 3 upPort 1).start 0).tam.id 8 = false ∧
    (((linked 0 upPort 1).start 1000000000).tport 1).tried + 1000000000 ≤ ((linked 0 upPort 1).start 1000000000).now ∧
    ((linked 0 upPort 1).start 999999999).now < (((linked 0 upPort 1).start 999999999).tport 1).tried + 1000000000 ∧
    (recent [1, 2, 3] 100 dayCc).length = 4 ∧ (recent [1, 2] 100 dayCc).length < 4 ∧ upPort.sent ≤ 0 + 512 ∧
    upPort.sent < 4096 := by
  repeat' first | apply And.intro | decide +kernel | rfl

/-- R381: an echo reply's round trip is the count less the count that was sent. -/
theorem test_echo : ∃ u, exec (.echoReply 0 0 { msg0 2 1 with nums := [60] }) (linked 0 upPort 1) = .next u ∧
    (u.tport 0).rtt = 40 := ⟨_, rfl, rfl⟩

/-- TamianMessagesAreSent: a port that is up and one that is down, a destination with a route and one without, the last
hop, and ports that keep their enables. -/
theorem test_witness_messages :
    ((linked 0 upPort 1).tport 0).up = true ∧ (up.tport 0).up = false ∧ up.route 9 = none ∧
    ((linked 3 upPort 0x20101).route 2).isSome = true ∧ (msg0 0x10 2).hops ≠ 0 ∧ bitOf (linked 0 upPort 1).tam.ctrl 8 = true ∧
    ({ msg0 0x10 2 with hops := 0 } : TamMsg).hops = 0 ∧ bitOf (BitVec.ofNat 8 (msg0 0x10 2).flags) 1 = false ∧
    (linked 0 upPort 1).managed ∧ bitOf up.tam.ctrl 8 = true ∧
    (up.start 1000000000).tam.echoAt + 1000000000 ≤ (up.start 1000000000).now ∧
    (up.start 999999999).now < (up.start 999999999).tam.echoAt + 1000000000 := by
  repeat' first | apply And.intro | decide +kernel | rfl

/-- The part with a SHARED_READONLY frozen extent that part 2 may read. -/
def shared : State :=
  { linked 0 upPort 1 with
    tam := { (linked 0 upPort 1).tam with
      waits := [⟨7, 0x10, 2, 0, 0, none, 50⟩, ⟨8, 0x13, 2, 0, 0, none, 50⟩, ⟨9, 0x15, 2, 0, 0, none, 50⟩,
        ⟨10, 0x17, 2, 0, 0, none, 50⟩], closing := [0] }
    ext := { planned.ext with tbl := [(0, ext0)] } }

/-- FederationRows: a port that is down; a message for this part and for another; a page that is here and one that is
not; a request that waits for each kind of answer and none. -/
theorem test_witness_federation :
    ((shared.start 0).tport 1).up = false ∧ ((shared.start 0).tport 0).up = true ∧
    (shared.start 0).forMe (msg0 0x10 1) = true ∧ (shared.start 0).forMe (msg0 0x10 9) = false ∧
    (match (shared.start 0).homeExtent (msg0 0x10 1) with | .error e => e == 3 | .ok _ => false) = true ∧
    ((shared.start 0).waitOf (msg0 0x11 1) [0x10]).isSome = true ∧
    ((shared.start 0).waitOf { msg0 0x14 1 with tag := 8 } [0x13]).isSome = true ∧
    ((shared.start 0).waitOf { msg0 0x16 1 with tag := 9 } [0x15, 0x115]).isSome = true ∧
    ((shared.start 0).waitOf { msg0 0x17 1 with tag := 10 } [0x17]).isSome = true ∧
    ((shared.start 0).waitOf { msg0 0x11 1 with tag := 11 } [0x10]).isNone = true ∧ (shared.start 0).tam.pair ≠ 1 ∧
    (shared.start 0).extentAt 0 = some (0, ext0) ∧ (msg0 0x17 1).flags / 2 % 2 = 0 ∧
    ({ msg0 0x17 1 with flags := 2 } : TamMsg).flags / 2 % 2 = 1 := by
  repeat' first | apply And.intro | decide +kernel | rfl

/-- A shared extent that part 2 may read and write. -/
def exported : State :=
  { shared with
    ext := { shared.ext with tbl := [(0, { ext0 with attr := 0x20, ver := 1 })] }
    tam := { shared.tam with export_ := [(0, 0x70000)] } }

/-- FederationRows: the home holds the page; writers that could publish it and none; the message of a partner; and a
part that tells its partner of an answer and one that does not. -/
theorem test_witness_home :
    (exported.start 0).rivalPublish 0 = false ∧ ({ exported with ext := { exported.ext with
      tbl := [(0, { ext0 with attr := 0x20, ver := 1, views := [⟨0, 1, false, 1⟩] })] } } : State).rivalPublish 0 = true ∧
    exported.unheld ∧ { msg0 0x10 1 with nums := [1, 0] }.nums = [1, 0] ∧ (exported.start 0).isLead = false ∧
    (match (exported.start 0).homeExtent (msg0 0x10 1) with | .ok (e, _, _) => e == 0 | .error _ => false) = true ∧
    ((exported.start 0).extent 0).isSome = true := by
  repeat' first | apply And.intro | decide +kernel | rfl

/-- FederationTimeouts: a close that is awaited, answered for less than 1 s and for longer, and one that is not, an extent that is there and one that is not, a
request at its bound and before it, and a tag that no request has. -/
theorem test_witness_timeouts :
    (shared.start 0).tam.closing.contains 0 = true ∧ (shared.start 0).tam.closing.contains 1 = false ∧
    ((shared.start 0).tam.waits.any fun w => w.type == 0x17 && w.ext == 0 &&
      decide ((shared.start 0).now < w.at_ + 1000000000)) = true ∧
    ((shared.start 1000000050).tam.waits.any fun w => w.type == 0x17 && w.ext == 0 &&
      decide ((shared.start 1000000050).now < w.at_ + 1000000000)) = false ∧
    ((shared.start 0).extent 0).isSome = true ∧ ((shared.start 0).extent 1).isNone = true ∧
    ((shared.start 0).tam.waits.find? fun w => w.tag == 7 && [0x10, 0x13, 0x15].contains w.type).isSome = true ∧
    ((shared.start 0).tam.waits.find? fun w => w.tag == 10 && [0x10, 0x13, 0x15].contains w.type).isNone = true ∧
    ((shared.start 0).tam.waits.find? fun w => w.tag == 9 && [0x10, 0x13, 0x15].contains w.type) =
      some ⟨9, 0x15, 2, 0, 0, none, 50⟩ ∧
    50 + (shared.start 0).bound380 2 ≤ (shared.start (50 + shared.bound380 2)).now ∧
    (shared.start 0).now < 50 + (shared.start 0).bound380 2 := by
  repeat' first | apply And.intro | decide +kernel | rfl

/-- A paired part, its pair state `n`, the LEAD, whose partner's port is up. -/
def paired (n : Nat) : State :=
  { linked 3 upPort 0x20301 with tam := { (linked 3 upPort 0x20301).tam with pair := n, lastBeat := 60 } }

/-- HeartbeatRows: T3 up and down; each pair state; a heartbeat at its bound and before it. -/
theorem test_witness_heartbeat :
    (((paired 0).start 0).tport 3).up = true ∧ ((up.start 0).tport 3).up = false ∧ bitOf ((paired 0).start 0).tam.id 8 = true ∧
    bitOf (up.start 0).tam.id 8 = false ∧ ((paired 0).start 0).tam.pair = 0 ∧ ((paired 1).start 0).tam.pair = 1 ∧
    ((paired 3).start 0).tam.pair = 3 ∧ ((paired 4).start 0).tam.pair = 4 ∧ ((paired 0).start 0).tam.waits = [] ∧
    ((paired 0).start 0).onePlan = false ∧ ((paired 1).start 0).onePlan = true ∧
    ((paired 1).start 10000).tam.beatAt + 10000 ≤ ((paired 1).start 10000).now ∧
    ((paired 1).start 9999).now < ((paired 1).start 9999).tam.beatAt + 10000 ∧
    60 + 1000000 ≤ ((paired 1).start 1000060).now ∧ ((paired 1).start 1000059).now < 60 + 1000000 := by
  repeat' first | apply And.intro | decide +kernel | rfl

/-- R385: a first heartbeat of an UNPAIRED partner pairs. -/
theorem test_heartbeat : after (.heartbeat 0 { msg0 0x23 1 with nums := [0, 0] }) (paired 0)
    (fun u => u.tam.pair == 1 && u.tam.lastBeat == 100) = true := by decide +kernel

/-- PairRows: each pair state with T3 up, requests and replies, and messages with and without lines. -/
theorem test_witness_pair :
    (((paired 1).start 0).tport 3).up = true ∧ ((up.start 0).tport 3).up = false ∧ ((paired 1).start 0).onePlan = true ∧
    (msg0 0x20 1).flags / 2 % 2 = 0 ∧ ({ msg0 0x20 1 with flags := 2 } : TamMsg).flags / 2 % 2 = 1 ∧
    ((paired 1).start 0).waitOf (msg0 0x22 1) [0x22] = none ∧
    (({ paired 1 with tam := { (paired 1).tam with waits := [⟨7, 0x22, 2, 0, 0, some 1, 50⟩] } } : State).start 0).waitOf
      (msg0 0x22 1) [0x22] = some ⟨7, 0x22, 2, 0, 0, some 1, 50⟩ ∧ (msg0 0x22 1).lines = [] ∧
    ((paired 5).start 0).tam.pair = 5 ∧ ((paired 5).start 0).tam.resLeft = [] ∧ ((paired 2).start 0).tam.pair = 2 ∧
    (({ paired 5 with tam := { (paired 5).tam with resLeft := [0, 1] } } : State).start 0).tam.resLeft = 0 :: [1] ∧
    (paired 3).managed ∧ bitOf (0x100 : Reg32) 9 = false ∧ bitOf (0x200 : Reg32) 8 = false := by
  repeat' first | apply And.intro | decide +kernel | rfl

/-! ### Witnesses: GDDR7, pages and flash -/

/-- The part with channel 7 as `c`. -/
def channelled (c : Chan) : State := { up with drm := { up.drm with chans := [(7, c)] } }

/-- RefreshRows: channels in and out of service, one that ran ahead, owing below and at POSTPONE_MAX, a refresh that is
due and one that is not, a maintenance interruption and a forced train 1,999 and 2,000 CC ago, and a pause of channel 7,
at 97,216, 2,000 CC away and nearer. -/
theorem test_witness_refresh :
    ((channelled { Chan.init with st := 4 }).start 0 |>.chan 7).st = 4 ∧ ((up.start 0).chan 7).st ≠ 4 ∧
    ((up.start 0).chan 7).st ≠ 5 ∧ 0 < ((channelled { Chan.init with ahead := 1 }).start 0 |>.chan 7).ahead ∧
    ((up.start 0).chan 7).ahead = 0 ∧ 6 + 1 < fld (up.start 0).drm.ctrl 0 4 ∧ fld (up.start 0).drm.ctrl 0 4 ≤ 7 + 1 ∧
    ((channelled { Chan.init with owed := 7, lastMaint := 50 }).start 0 |>.chan 7).lastMaint ≠ 0 ∧
    (up.start 2049).now < 50 + 2000 ∧ 50 + 2000 ≤ (up.start 2050).now ∧
    ((channelled { Chan.init with lastTrain := 50 }).start 0 |>.chan 7).lastTrain ≠ 0 ∧ (up.start 0).ep.lowPower = false ∧
    (up.start 0).now < 101 ∧ ((channelled { Chan.init with due := 101 }).start 0 |>.chan 7).due = 101 ∧
    ((up.start 0).chan 7).due ≤ (up.start 0).now ∧ 95216 + 2000 ≤ Chan.init.nextStop 7 95216 ∧
    Chan.init.nextStop 7 95217 < 95217 + 2000 ∧ swf (channelled Chan.init).drm.chans = true := by
  repeat' first | apply And.intro | decide +kernel | rfl

/-- R115: the eighth refresh that is owed is forced on a busy channel with POSTPONE_MAX 8. -/
theorem test_refresh_forced : ∃ u, exec (.refreshDue 0 7 true) (channelled { Chan.init with owed := 7 }) = .next u ∧
    (u.chan 7).owed = 0 ∧ (u.chan 7).forced = 1 := ⟨_, rfl, rfl, rfl⟩

/-- SweepRows: a channel that may pause, at its count and forced, and one that may not; a slice 3,999 and 4,000 CC ago;
margins 7 and 8; each step at its last slice and before it;
starts of escalations within and beyond 24 h. -/
theorem test_witness_sweep :
    swf (channelled { Chan.init with st := 1, sweep := 4, slices := 63 }).drm.chans = true ∧ ((up.start 0).chan 7).st ≠ 1 ∧
    ((channelled { Chan.init with st := 1 }).start 0 |>.chan 7).st = 1 ∧ 8 ≤ (8 : Nat) ∧ (7 : Nat) < 8 ∧
    31 + 1 ≥ (32 : Nat) ∧ 30 + 1 < (32 : Nat) ∧ 63 + 1 ≥ (64 : Nat) ∧ 127 + 1 ≥ (128 : Nat) ∧ (3 : Nat) < 4 ∧
    (channelled { Chan.init with escStarts := [1, 2, 3] }).now < 1 + dayCc ∧
    1 + dayCc ≤ (channelled { Chan.init with escStarts := [1, 2, 3] } |>.start (1 + dayCc)).now ∧
    ([1, 2] : List Count).length < 3 ∧ (up.start 97216).now % 1000000 = 7 * 13888 ∧
    ((up.start 97216).chan 7).lastMaint ≠ (up.start 97216).now ∧ (up.start 0).now % 1000000 ≠ 7 * 13888 ∧
    7 ∈ ({ up with prt := { up.prt with pauses := [7] } } : State).prt.pauses ∧ (7 : Nat) ∉ (up.start 0).prt.pauses ∧
    (4049 : Nat) < 50 + 4000 ∧ 50 + 4000 ≤ 4050 ∧ (up.start 0).ep.lowPower = false := by
  repeat' first | apply And.intro | decide +kernel | rfl

/-- R117: a pause with a margin of 7/256 UI starts an escalation, and one of 8/256 does not. -/
theorem test_pause : after (.retrainingPause 97216 7 7 false) up (fun u => (u.chan 7).st == 1) = true ∧
    after (.retrainingPause 97216 7 8 false) up (fun u => (u.chan 7).st == 0 && (u.chan 7).retrains == 1) = true ∧
    after (.retrainingPause 97217 7 8 false) up (fun u => (u.chan 7).retrains == 0) = true := by
  repeat' first | apply And.intro | decide +kernel | rfl

/-- EvacuationRows: a channel in LIMP and one that evacuates, a chunk that is copied and none, with chunks left and
without, and a switch count that is due and one that is not. -/
theorem test_witness_evacuation :
    ((up.start 0).chan 7).st ≠ 2 ∧ ((up.start 0).chan 7).st ≠ 3 ∧
    ((channelled { Chan.init with st := 2 }).start 0 |>.chan 7).st = 2 ∧
    ((channelled { Chan.init with st := 3 }).start 0 |>.chan 7).copied = none ∧
    ((channelled { Chan.init with st := 3, copied := some (0, 100) }).start 0 |>.chan 7).copied = some (0, 100) ∧
    ((channelled { Chan.init with st := 3, todo := [0, 4] }).start 0 |>.chan 7).todo = [0, 4] ∧
    ((up.start 0).chan 7).todo = [] ∧ ([0, 4].filter (· != 0) : List Nat) ≠ [] ∧ ([0].filter (· != 0) : List Nat) = [] ∧
    swf ((channelled Chan.init).start 0).drm.chans = true ∧
    (100 : Nat) ≤ (up.start 0).now ∧ (up.start 0).now < 101 := by
  repeat' first | apply And.intro | decide +kernel | rfl

/-- The part with frame 8 as `f`, of extent 0. -/
def framed (f : Frame) : State := { held with dir := { held.dir with frames := [(8, f)] } }

/-- The same with a merge entry of it. -/
def merged (loaded dirty : Bool) (since : Count) : State :=
  { framed (Frame.fresh 0 0 0 1 0) with dir := { (framed (Frame.fresh 0 0 0 1 0)).dir with
      merge := [⟨8, 0, [], [], loaded, dirty, since, 0⟩] } }

/-- FillRows: merge entries of every kind, at and before FLUSH_AGE; a filling frame and none; a shadow and none; a dirty
resident page. -/
theorem test_witness_fill :
    (((merged true false 0).startEnv 0 noEnv).mergeAt 8 0).isSome = true ∧ ((up.startEnv 0 noEnv).mergeAt 8 0) = none ∧
    ((framed (Frame.fresh 0 0 0 1 0)).startEnv 0 noEnv).frame 8 = some (Frame.fresh 0 0 0 1 0) ∧
    (held.startEnv 0 noEnv).extent 0 = some ext0 ∧ ext0.versioned = false ∧
    ((merged true true 50).startEnv 1000049 noEnv).now < 50 + 1000 * fld up.cod.ctrl 0 16 ∧
    50 + 1000 * fld up.cod.ctrl 0 16 ≤ ((merged true true 50).startEnv 1000050 noEnv).now ∧
    (((framed (Frame.fresh 0 0 0 3 0)).startEnv 0 noEnv).framesOf 0 0).find? (fun f => f.2.st == 3 && f.2.fillVer == 0) =
      some (8, Frame.fresh 0 0 0 3 0) ∧
    ((up.startEnv 0 noEnv).framesOf 0 0).find? (fun f => f.2.st == 3 && f.2.fillVer == 0) = none ∧
    (up.startEnv 0 noEnv).waiting = [] ∧ (up.startEnv 0 noEnv).frame 8 = none ∧ (Frame.fresh 0 0 0 5 0).st = 5 ∧
    (Frame.fresh 0 0 0 1 0).dirty = false ∧ ({ Frame.fresh 0 0 0 1 0 with dirty := true } : Frame).st = 1 := by
  repeat' first | apply And.intro | decide +kernel | rfl

/-- R26, R82: a page that was pinned while it was filled is PINNED when the fill completes. -/
theorem test_fill_pinned : after (.fillComplete 0 0 0 0 [] noEnv) (framed { Frame.fresh 0 0 0 3 0 with pinned := true })
    (fun u => (u.frame 8).map (·.st) == some 2) = true := by decide +kernel

/-- A page image on die 3, and a program of it. -/
def img0 : Image := ⟨0, 0, 0, 3, 0, 0, [], [], false, false⟩
/-- The part with flash state: die 3 in state `st`, an image, and a program with number 1. -/
def flashed (st : Nat) : State :=
  { held with fls := { held.fls with
      dies := sput .init [] 3 { Die.init with st := st }, images := [img0], programs := [⟨1, img0, some 8, true, none, 0, true⟩] } }

/-- FlashRows: an image that is there and one that is not, step 4 and one before; a program that is there and one that is
not; dies in each state, with and without an image left. -/
theorem test_witness_flash :
    (((flashed 0).start 0).fls.images.find? fun i => i.ext == 0 && i.page == 0 && !i.retained) = some img0 ∧
    ((up.start 0).fls.images.find? fun i => i.ext == 0 && i.page == 0 && !i.retained) = none ∧ (3 : Nat) ≠ 4 ∧
    (((flashed 0).start 0).fls.programs.find? fun g => g.id == 1 && g.issued) =
      some ⟨1, img0, some 8, true, none, 0, true⟩ ∧
    ((up.start 0).fls.programs.find? fun g => g.id == 1 && g.issued) = none ∧ ((flashed 0).start 0).extent 0 = some ext0 ∧
    ((flashed 0).start 0).cmds = [] ∧ (((flashed 0).start 0).die 3).st ≠ 1 ∧ (((flashed 1).start 0).die 3).st = 1 ∧
    (((flashed 1).start 0).fls.images.find? fun i => i.die == 3 && !i.lost) = some img0 ∧
    (((flashed 1).start 0).fls.images.find? fun i => i.die == 4 && !i.lost) = none ∧
    ((flashed 0).start 0).codewordImage 0 0 = some img0 ∧ ((up.start 0).codewordImage 0 0) = none ∧
    swf ((flashed 0).start 0).fls.dies = true ∧ (((flashed 0).start 0).die 3).st = 0 ∧ ((framed (Frame.fresh 0 0 0 3 0)).start 0).frame 8 =
      some (Frame.fresh 0 0 0 3 0) ∧ (5 : Nat) ∉ (Frame.fresh 0 0 0 3 0).decoded ∧
    (((up.start 0).framesOf 0 0).find? fun f => f.2.st == 3) = none := by
  repeat' first | apply And.intro | decide +kernel | rfl

/-- R134: a die that rebuilds and holds nothing any more is RETIRED. -/
theorem test_rebuilt : after (.rebuildImage 0 3) { flashed 1 with fls := { (flashed 1).fls with images := [] } }
    (fun u => (u.die 3).st == 2) = true := by decide +kernel

/-- WipeAndScrubRows: a pass that is late and one that is not; a page to wipe and none, a pass that runs and none, a first pass and one whose period has not
passed, and frames left and none. -/
theorem test_witness_scrub :
    (up.start 0).gen.phase = 6 ∧ ((starting 5).start 0).gen.phase ≠ 6 ∧ (up.start 0).waiting = [] ∧
    ({ up with int := { up.int with inPass := true, passPeriod := 0, passStart := 99 } } : State).int.passLate = false ∧
    99 + 0 * 3600000000000 < up.now ∧ up.now ≤ 100 + 0 * 3600000000000 ∧ (up.start 0).nextWipe = none ∧ ((framed { Frame.fresh 0 0 0 1 0 with wipe := some 0 }).start 0).nextWipe = some 8 ∧
    ((framed { Frame.fresh 0 0 0 1 0 with wipe := some 0 }).start 0).frame 8 =
      some { Frame.fresh 0 0 0 1 0 with wipe := some 0 } ∧ (up.start 0).int.inPass = false ∧
    (up.start 0).int.passes = 0 ∧ swf (up.start 0).drm.chans = true ∧ (71 : Nat) < 72 ∧
    (({ up with int := { up.int with inPass := true } } : State).startEnv 0 noEnv).int.inPass = true ∧
    (({ up with int := { up.int with inPass := true } } : State).startEnv 0 noEnv).nextScrub = none ∧
    (({ framed (Frame.fresh 0 0 0 1 0) with int := { up.int with inPass := true } } : State).startEnv 0 noEnv).nextScrub =
      some 8 ∧ (up.startEnv 0 noEnv).ep.lowPower = false ∧
    (({ up with int := { up.int with passes := 1, passPeriod := 24 } } : State).start 0).now < 0 + 24 * 3600000000000 := by
  repeat' first | apply And.intro | decide +kernel | rfl

/-! ### Packets -/

/-- A packet from fields: first byte, bytes, value. -/
def packet (l : List (Nat × Nat × Nat)) : Packet := BitVec.ofNat 512 (sumN (l.map fun f => at_ (8 * f.1) (8 * f.2.1) f.2.2))

/-- An extent of 2 MiB. -/
def ext2 (base attr : Nat) : Extent := { ext0 with base := base, size := 2097152, attr := BitVec.ofNat 32 attr }

/-- A composite of one tile with the factors U in extent 0 and V in extent 1 (R177). -/
def desc0 : CompDesc := packet [(0, 4, 128), (4, 4, 256), (8, 2, 64), (16, 2, 0), (18, 2, 1), (48, 4, 128), (52, 4, 128)]

/-- A part with a plan, queue 5 RUNNING with a read of one packet outstanding, and extents: 0 PINNED, 1 CACHED,
2 FLASH_ONLY, 3 SHARED_VERSIONED with a view of allotment 0, 4 a composite, 5 of codec EXP. The merge buffer holds the
first kilobyte of extent 5, where its lines are not under the cipher: an argument
block for slot 6 at 0, and a list of two sources at 256. -/
def site : State :=
  { queued 1 with
    old := { planned.old with cls := [(0, 2)], budget := [(0, 0x00010001)] }
    ext := { planned.ext with tbl := [(0, ext2 0 0), (1, ext2 0x200000 1), (2, ext2 0x400000 2),
      (3, { ext2 0x600000 0x20 with ver := 1, views := [⟨0, 1, false, 1⟩], nextSet := 2, members := [(0, true), (1, false)] }),
      (4, { ext2 0x800000 0x14 with desc := desc0 }), (5, ext2 0xA00000 4)] }
    dir := { planned.dir with frames := [(16, Frame.fresh 0 5 0 2 0)], merge := [{
      frame := 16, span := 0, mask := [], loaded := true, dirty := false, since := 0, used := 0
      lines := [(0, .data (packet ((List.range 4).map fun i => (16 * i + 8, 1, 0xFF)))),
        (1, .data (packet ((List.range 4).map fun i => (16 * i + 8, 1, 0xFF)))),
        (2, .data (packet ([(0, 6, 0x10000), (8, 1, 4)] ++ ((List.range 3).map fun i => (16 * i + 24, 1, 0xFF))))),
        (3, .data 0), (4, .data (packet [(0, 6, 0x20000), (8, 6, 0x30000)]))] }] }
    ep := { planned.ep with lds := [(0, { Ld.init with mse := true, bme := true, memEn := true, handles := [(1, 7, 1, 0)] })] }
    allots := [(0, Allot.init0), (2, { Allot.init with bind := 0x120, state := 1 })]
    sec := { planned.sec with slots := [(0, ⟨true, 1, 5⟩), (1, ⟨false, 1, 0⟩)] }
    col := { planned.col with cls := [(0, 2)], budget := [(0, 0x00010001)] } }

/-- A command delivered to queue 5 is admitted. -/
def admitted (c : Packet → Instr) (l : List (Nat × Nat × Nat)) : Bool :=
  after (c (packet l)) site fun u => u.nextCmd == 1
/-- R265: well-formed operands are admitted. -/
theorem test_admit_fill :
    admitted (fun p => .fill 0 5 p noEnv) [(24, 8, 0x10000), (32, 8, 256), (40, 1, 4)] = true := by
  decide +kernel
/-- R265: well-formed operands are admitted. -/
theorem test_admit_copy :
    admitted (fun p => .copy 0 5 p noEnv) [(24, 8, 0x10000), (32, 8, 0x20000), (40, 8, 256), (48, 1, 4)] = true := by
  decide +kernel
/-- R265: well-formed operands are admitted. -/
theorem test_admit_compare :
    admitted (fun p => .compare 0 5 p noEnv) [(24, 8, 0x10000), (32, 8, 0x20000), (40, 8, 256), (48, 1, 4)] = true := by
  decide +kernel
/-- R266: well-formed operands are admitted. -/
theorem test_admit_reduce :
    admitted (fun p => .reduce 0 5 p noEnv) [(24, 6, 0x10000), (31, 1, 0x44), (32, 6, 0xA00100), (38, 1, 2), (40, 4, 64)] = true := by
  decide +kernel
/-- R267: well-formed operands are admitted. -/
theorem test_admit_scatterAdd :
    admitted (fun p => .scatterAdd 0 5 p noEnv) [(24, 6, 0x10000), (32, 6, 0x20000), (39, 1, 0x44), (40, 6, 0x30000), (48, 4, 16), (52, 4, 4), (56, 4, 64), (60, 4, 16)] = true := by
  decide +kernel
/-- R267: well-formed operands are admitted. -/
theorem test_admit_gather :
    admitted (fun p => .gather 0 5 p noEnv) [(24, 6, 0x10000), (30, 2, 1), (32, 6, 0x20000), (39, 1, 0x44), (40, 6, 0x30000), (48, 4, 16), (52, 4, 4), (56, 4, 64), (60, 4, 16)] = true := by
  decide +kernel
/-- R205, R268: well-formed operands are admitted. -/
theorem test_admit_recipe :
    admitted (fun p => .recipe 0 5 p noEnv) [(24, 1, 6), (28, 4, 64), (32, 8, 0xA00000)] = true := by
  decide +kernel
/-- R269: well-formed operands are admitted. -/
theorem test_admit_matmul :
    admitted (fun p => .matmul 0 5 p noEnv) [(24, 6, 0x10000), (30, 6, 0x20000), (36, 6, 0x30000), (42, 2, 31), (44, 2, 31), (46, 2, 31), (48, 2, 1), (50, 2, 1), (52, 2, 2)] = true := by
  decide +kernel
/-- R270: well-formed operands are admitted. -/
theorem test_admit_synth :
    admitted (fun p => .synth 0 5 p noEnv) [(24, 2, 4), (32, 4, 1)] = true := by
  decide +kernel
/-- R271: well-formed operands are admitted. -/
theorem test_admit_hint :
    admitted (fun p => .hint 0 5 p noEnv) [(24, 2, 1), (26, 1, 2), (40, 8, 65536)] = true := by
  decide +kernel
/-- R271: well-formed operands are admitted. -/
theorem test_admit_pin :
    admitted (fun p => .pin 0 5 p noEnv) [(24, 2, 1), (40, 8, 65536)] = true := by
  decide +kernel
/-- R271: well-formed operands are admitted. -/
theorem test_admit_unpin :
    admitted (fun p => .unpin 0 5 p noEnv) [(24, 2, 1), (40, 8, 65536)] = true := by
  decide +kernel
/-- R271: well-formed operands are admitted. -/
theorem test_admit_pageIn :
    admitted (fun p => .pageIn 0 5 p noEnv) [(24, 2, 1), (26, 1, 1), (40, 8, 65536)] = true := by
  decide +kernel
/-- R271: well-formed operands are admitted. -/
theorem test_admit_pageOut :
    admitted (fun p => .pageOut 0 5 p noEnv) [(24, 2, 1), (40, 8, 65536)] = true := by
  decide +kernel
/-- R93: well-formed operands are admitted. -/
theorem test_admit_open :
    admitted (fun p => .open_ 0 5 p noEnv) [(24, 2, 3)] = true := by
  decide +kernel
/-- R94: well-formed operands are admitted. -/
theorem test_admit_publish :
    admitted (fun p => .publish 0 5 p noEnv) [(24, 2, 3), (28, 4, 1)] = true := by
  decide +kernel
/-- R100: well-formed operands are admitted. -/
theorem test_admit_close :
    admitted (fun p => .close 0 5 p noEnv) [(24, 2, 3)] = true := by
  decide +kernel
/-- R141: well-formed operands are admitted. -/
theorem test_admit_snapshot :
    admitted (fun p => .snapshot 0 5 p noEnv) [(24, 2, 0), (26, 2, 2), (48, 8, 65536)] = true := by
  decide +kernel
/-- R145: well-formed operands are admitted. -/
theorem test_admit_drain :
    admitted (fun p => .drain 0 5 p noEnv) [(24, 2, 1), (48, 8, 65536)] = true := by
  decide +kernel
/-- R146: well-formed operands are admitted. -/
theorem test_admit_restore :
    admitted (fun p => .restore 0 5 p noEnv) [(24, 2, 2), (26, 2, 0), (48, 8, 65536)] = true := by
  decide +kernel
/-- R274: well-formed operands are admitted. -/
theorem test_admit_grant :
    admitted (fun p => .grant 0 5 p noEnv) [(24, 1, 1), (25, 1, 2), (32, 2, 3)] = true := by
  decide +kernel
/-- R276: well-formed operands are admitted. -/
theorem test_admit_revoke :
    admitted (fun p => .revoke 0 5 p noEnv) [(24, 1, 1), (25, 1, 1), (32, 2, 3)] = true := by
  decide +kernel
/-- R277: well-formed operands are admitted. -/
theorem test_admit_resize :
    admitted (fun p => .resize 0 5 p noEnv) [(32, 2, 2), (40, 8, 0x200000)] = true := by
  decide +kernel
/-- R278: well-formed operands are admitted. -/
theorem test_admit_query :
    admitted (fun p => .query 0 5 p noEnv) [(24, 1, 1), (32, 2, 1)] = true := by
  decide +kernel
/-- R231: well-formed operands are admitted. -/
theorem test_admit_reserve :
    admitted (fun p => .reserve 0 5 p noEnv) [(28, 4, 16)] = true := by
  decide +kernel
/-- R232: well-formed operands are admitted. -/
theorem test_admit_release :
    admitted (fun p => .release 0 5 p noEnv) [] = true := by
  decide +kernel
/-- R279: well-formed operands are admitted. -/
theorem test_admit_fence :
    admitted (fun p => .fence 0 5 p noEnv) [] = true := by
  decide +kernel
/-- R280: well-formed operands are admitted. -/
theorem test_admit_waitCount :
    admitted (fun p => .waitCount 0 5 p noEnv) [(24, 6, 200)] = true := by
  decide +kernel
/-- R281: well-formed operands are admitted. -/
theorem test_admit_mark :
    admitted (fun p => .mark 0 5 p noEnv) [(24, 8, 77)] = true := by
  decide +kernel
/-- R282: well-formed operands are admitted. -/
theorem test_admit_keyLoad :
    admitted (fun p => .keyLoad 0 5 p noEnv) [(24, 1, 1), (28, 4, 1)] = true := by
  decide +kernel
/-- R282: well-formed operands are admitted. -/
theorem test_admit_keyDrop :
    admitted (fun p => .keyDrop 0 5 p noEnv) [(24, 1, 1)] = true := by
  decide +kernel
/-- R283: well-formed operands are admitted. -/
theorem test_admit_planSet :
    admitted (fun p => .planSet 0 5 p noEnv) [(24, 2, 500)] = true := by
  decide +kernel
/-- R283: well-formed operands are admitted. -/
theorem test_admit_powerSet :
    admitted (fun p => .powerSet 0 5 p noEnv) [] = true := by
  decide +kernel
/-- R283: well-formed operands are admitted. -/
theorem test_admit_replan :
    admitted (fun p => .replan 0 5 p noEnv) [] = true := by
  decide +kernel
/-- R283: well-formed operands are admitted. -/
theorem test_admit_altReset :
    admitted (fun p => .altReset 0 5 p noEnv) [(24, 1, 1)] = true := by
  decide +kernel
/-- R283: well-formed operands are admitted. -/
theorem test_admit_calendarSet :
    admitted (fun p => .calendarSet 0 5 p noEnv) [(24, 8, 5)] = true := by
  decide +kernel
/-- R283: well-formed operands are admitted. -/
theorem test_admit_testOpen :
    admitted (fun p => .testOpen 0 5 p noEnv) [(24, 4, 1)] = true := by
  decide +kernel
/-- R283: well-formed operands are admitted. -/
theorem test_admit_replay :
    admitted (fun p => .replay 0 5 p noEnv) [(24, 8, 1), (32, 8, 2), (40, 8, 200000000)] = true := by
  decide +kernel

/-- R284, R261: FW_STAGE of a length that is no multiple of 64 is refused with ST_GRANULE, and admits nothing. -/
theorem test_stage_granule : after (.fwStage 0 5 (packet [(32, 8, 1)]) noEnv) site
    (fun u => u.nextCmd == 0 && (u.queue 5).sqHead == 1) = true := by decide +kernel

/-- PacketsAreJudged: the delivery of any row to queue 5 of `site`, and to the queue of a part without a plan, of one
whose allotment is FAULTED, with a wrong SEQ, with a reserved bit, and with a deadline that cannot be given. -/
theorem test_witness_packets :
    1 ≤ ((site.startTies 0 noEnv).queue 5).fetching ∧ ((site.startTies 0 noEnv).queue 5).fetchDrop = false ∧
    ((site.startTies 0 noEnv).queue 5).state = 1 ∧ swf (site.startTies 0 noEnv).queues = true ∧
    (site.startTies 0 noEnv).packetWaits 0 (packet []) = false ∧
    ({ site with old := { site.old with det := 1 } } : State).packetWaits 0 (packet []) = true ∧
    (site.startTies 0 noEnv).plan.cur.ver ≠ 0 ∧ State.reset.plan.cur.ver = 0 ∧
    ({ Allot.init0 with state := 3 } : Allot).state = 3 ∧ ((site.startTies 0 noEnv).allot 0).state ≠ 3 ∧
    pkSeq (packet [(14, 2, 1)]) ≠ (queue0 1).seq ∧ pkSeq (packet []) = (queue0 1).seq ∧
    headReserved (packet [(22, 2, 1)]) = true ∧ headReserved (packet []) = false ∧
    deadlineOf (packet [(1, 1, 4), (8, 6, 2 ^ 47)]) 100 = none ∧ launchOf (packet [(1, 1, 8), (16, 6, 2 ^ 41)]) 100 = none ∧
    (deadlineOf (packet []) 100).isSome = true ∧ (launchOf (packet []) 100).isSome = true ∧ site.tam.pair ≠ 1 ∧
    site.tam.pair ≠ 5 := by
  repeat' first | apply And.intro | decide +kernel | rfl

/-! ### Witnesses: loads, stores and peer requests -/

/-- The part with extent 0 accepted by the host of allotment 0, one committed decoder, a window over it, and frame 8 of
its page. -/
def hosting : State :=
  { framed (Frame.fresh 0 0 0 2 0) with
    ep := { held.ep with lds := [(0, { Ld.init with
      mse := true, bme := true, memEn := true, aperture := 21, accepted := [(0, 65536, 0)]
      decoders := [(0, ⟨0x100000000, 2 ^ 28, 1, 256, 0, 0⟩)] })] }
    allots := [(0, { Allot.init0 with ctrl := 21, live := [(0, ⟨0, 0, 1, 0x50007⟩)] })]
    col := { held.col with meter := 1000000 } }

/-- HostRequestsEnter: a logical device that is bound and one that is not; D3hot; a reset allotment, a FAULTED one, and
one that may issue; addresses inside and outside the decoder; accesses that R71 refuses and grants. -/
theorem test_witness_enter :
    (hosting.startEnv 0 noEnv).boundAllot (ldKey 1 0) = none ∧ (hosting.startEnv 0 noEnv).boundAllot (ldKey 0 0) = some 0 ∧
    ((hosting.startEnv 0 noEnv).ld 0).dstate ≠ 3 ∧ hosting.barred 0 = none ∧
    ({ hosting with allots := [(0, { Allot.init0 with state := 2 })] } : State).barred 0 = some false ∧
    ({ hosting with allots := [(0, { Allot.init0 with state := 3 })] } : State).barred 0 = some true ∧
    hosting.decodeHpa (ldKey 0 0) 0 = none ∧ hosting.decodeHpa (ldKey 0 0) 0x100000040 = some (0, 64) ∧
    hosting.access 0 64 0 true = (0, 0, some ext0) ∧ (hosting.access 0 65536 0 true).2.2 = none ∧
    (0 : BitVec 64) ≠ BitVec.allOnes 64 ∧ (hosting.startEnv 0 noEnv).barOpen (ldKey 1 0) = none ∧
    (hosting.startEnv 0 noEnv).barOpen (ldKey 0 0) = some 0 ∧ (32 : Nat) % 64 ≠ 0 ∧ (64 : Nat) % 64 = 0 := by
  repeat' first | apply And.intro | decide +kernel | rfl

/-- HostRequestsEnter: a tie that is open and none; an extent that was written, one that was bound at this count, and one
at an earlier; a window whose range was revoked; offsets inside and outside every window, and a window that lets reads and writes pass. -/
theorem test_witness_window :
    bitOf hosting.old.det 0 = false ∧ hosting.ties = [] ∧
    bitOf ({ hosting with old := { hosting.old with det := 1 } } : State).old.det 0 = true ∧ ext0.rebound = none ∧
    ext0.written = none ∧ ({ ext0 with written := some 5 } : Extent).written ≠ none ∧
    ({ ext0 with rebound := some (100, 0) } : Extent).rebound = some (100, 0) ∧ (100 : Nat) ≤ 100 ∧ (100 : Nat) < 101 ∧
    hosting.extent 0 = some ext0 ∧ (hosting.allot 0).dead 0 0 = false ∧
    ({ hosting.allot 0 with winDead := 1 } : Allot).dead 0 0 = true ∧
    (hosting.windowAt 0 0 0).isSome = true ∧ hosting.windowAt 0 2097152 0 = none ∧ bitOf (0x50007 : Reg32) 3 = false ∧
    bitOf (0x50007 : Reg32) 1 = true ∧ bitOf (0x50007 : Reg32) 2 = true ∧ bitOf (0x5000B : Reg32) 3 = true ∧
    fld (0x5000B : Reg32) 16 16 = 5 ∧ bitOf (0x5000B : Reg32) 2 = false := by
  repeat' first | apply And.intro | decide +kernel | rfl

/-- R17, R16: a line that was stored is loaded again. -/
theorem test_store_load : after (.store 0 0 0 0x100000040 77 (BitVec.allOnes 64) false noEnv) hosting (fun u =>
    after (.load 0 0 0 0x100000040 noEnv) u fun w => w.out == [.readData 1 false [77] 0]) = true := by decide +kernel

/-- R301: a store of some bytes of a line is counted and touches nothing. -/
theorem test_partial : after (.store 0 0 0 0x100000040 77 1 false noEnv) hosting
    (fun u => u.int.partials == 1 && u.dir == hosting.dir) = true := by decide +kernel

/-- A load of a GUARANTEED class with a budget of `b`. -/
def budgeted (b : Nat) : HostReq := { HostReq.blank 0 0 0 0 0 0 0 false with kd := 2, pr := 3, budget := b }
/-- A load that waits at the Gate on lane `n`. -/
def gated (n : Nat) : HostReq := { HostReq.blank 0 0 n 0 0 0 0 false with wait := .gate }

/-- HostRequestsAreServed: an exempt request and one that is not, a meter that holds one and none, budgets with room and
without, lanes with room at the meter and without, a request at the Gate, locks, an earlier request on the line, extents
that are there, move, and are not, and urgencies at each threshold. -/
theorem test_witness_served :
    hosting.exempt (.blank 0 0 0 0 0 0 0 false) true = false ∧
    ({ hosting with waiting := [.blank 0 0 0 0 0 0 0 false] } : State).meterHeld = true ∧
    held.col.meter ≤ 0 ∧ hosting.meterHeld = false ∧ 0 < hosting.col.meter ∧ (budgeted 1).kd = 2 ∧
    site.exempt (budgeted 1) true = true ∧ site.lsCount 0 < (budgeted 1).budget ∧
    (budgeted 1).budget ≤ ({ site with col := { site.col with ls := [(0, 1)] } } : State).lsCount 0 ∧
    (budgeted 1).demoted = false ∧ (HostReq.blank 0 0 0 0 0 0 0 false).kd = 0 ∧ hosting.laneHeld 0 < 256 ∧
    256 ≤ ({ hosting with waiting := List.replicate 256 (.blank 0 0 0 0 0 0 0 false) } : State).laneHeld 0 ∧
    (gated 0).wait = .gate ∧ (gated 0).lane = (HostReq.blank 0 0 0 0 0 0 0 false).lane ∧
    ({ ext0 with locks := [⟨1, 0, 64, 50, none⟩] } : Extent).lockedAt 0 60 = true ∧ ext0.lockedAt 0 60 = false ∧
    hosting.blocked (.blank 0 1 0 0 0 60 0 false) = false ∧ ({ hosting with waiting := [{ HostReq.blank 1 1 0 0 0 50 0 false
      with ext := 0, wait := .fill }] } : State).blocked { HostReq.blank 2 0 0 0 0 60 0 false with ext := 0 } = true ∧
    hosting.filterFull (.blank 0 0 0 0 0 0 0 false) ext0 = false ∧ (HostReq.blank 0 1 0 0 0 0 0 false).acked = false ∧
    ({ ext0 with moving := some (0, 50) } : Extent).moving = some (0, 50) ∧ (50 : Nat) ≤ 60 ∧ hosting.extent 0 = some ext0 ∧
    hosting.extent 1 = none ∧ hosting.ep.exiting = false ∧ ext0.moving = none ∧ ext0.sharing = 0 ∧
    hosting.tam.pair ≠ 4 ∧ ext0.composite = false ∧ (ext2 0 0x14).composite = true ∧ hosting.onePlan = false ∧
    ext0.locks = [] ∧ hosting.wipeFrames 0 ext0 1 = [] ∧ (HostReq.blank 0 1 0 0 0 0 0 false).write = true ∧
    (HostReq.blank 0 0 0 0 0 0 0 false).write = false ∧ (held.startEnv 0 noEnv).col.meter ≤ 0 ∧
    (up.start 0).req 0 = none ∧
    (({ up with waiting := [.blank 0 0 0 0 0 100 0 false] } : State).start 0).req 0 =
      some (.blank 0 0 0 0 0 100 0 false) ∧
    9 * 1000 / 10 ≤ (up.start 1000).now - 100 ∧ (up.start 999).now - 100 < 9 * 1000 / 10 := by
  repeat' first | apply And.intro | decide +kernel | rfl

/-- R113: a request that has waited nine tenths of its lane's target has urgency 3, and one CC less 2. -/
theorem test_urgency :
    after (.urgencyRaise 1000 0) { up with waiting := [.blank 0 0 0 0 0 100 0 false] }
      (fun u => u.waiting.map (·.urgency) == [3] && sget 0 u.drm.late 0 == 1) = true ∧
    after (.urgencyRaise 999 0) { up with waiting := [.blank 0 0 0 0 0 100 0 false] }
      (fun u => u.waiting.map (·.urgency) == [2]) = true := by
  repeat' first | apply And.intro | decide +kernel | rfl

/-! ### Witnesses: the work of commands -/

/-- A synthesis job. -/
def job0 : SynthJob := ⟨3, 4, 0, (0, 0, 0), true, false, 1, false, none, [], 0, 0, 0, false, [], some 0, none⟩

/-- The part with command 1, changed by `f`. -/
def working (op : Nat) (f : Cmd → Cmd) : State := { site with cmds := [f (cmd0 .running (withOp 0 op))] }

/-- WorkRows: a job that is there and one that is not, at both sides of the limit of restarts; commands in each phase; a
sprig command and one that is none; a station that is awaited and one that is not; a launch count that is due and not. -/
theorem test_witness_work :
    (({ site with mxe := { site.mxe with jobs := [job0] } } : State).startEnv 0 noEnv).mxe.jobs.find?
      (fun j => j.id == 3 && j.eng == some 0) = some job0 ∧
    (site.startEnv 0 noEnv).mxe.jobs.find? (fun j => j.id == 3 && j.eng == some 0) = none ∧ 64 ≤ (64 : Nat) ∧ ¬ 64 ≤ (63 : Nat) ∧
    (site.startEnv 0 noEnv).cmd 1 = none ∧ site.mxe.want = [] ∧
    (cmd0 .running (withOp 0 0x01)).stationDone 3 = true ∧
    ({ cmd0 .running (withOp 0 0x20) with left := [5] } : Cmd).stationDone 3 = false ∧
    ((working 0x01 fun c => { c with stations := [3] }).startTies 0 noEnv |>.proxyWait
      { cmd0 .running (withOp 0 0x01) with stations := [3] } noEnv).1 = false ∧
    ((working 0x01 id).startEnv 0 noEnv).cmd 1 = some (cmd0 .running (withOp 0 0x01)) ∧ isSprig 0x01 = true ∧
    isSprig 0x20 = false ∧ ((working 0x01 id).startEnv 0 noEnv).cmdBlocked (cmd0 .running (withOp 0 0x01)) = false ∧
    ((working 0x01 id).startEnv 0 noEnv).promiseFirst (cmd0 .running (withOp 0 0x01)) 3 = true ∧
    ((working 0x01 fun c => { c with left := [0] }).startEnv 0 noEnv).unitsOf
      { cmd0 .running (withOp 0 0x01) with left := [0] }
      (((site.coreOf ({ cmd0 .running (withOp 0 0x01) with left := [0] }.unitAddr 0))).getD 0) = [0] ∧
    (site.startEnv 0 noEnv).unitsOf (cmd0 .running 0) 0 = [] ∧ (cmd0 .held 0).keyed = false ∧
    ({ cmd0 .held 0 with keyed := true } : Cmd).keyed = true ∧ (site.startTies 0 noEnv).cmd 1 = none ∧
    ((working 0x01 id).startTies 0 noEnv).cmd 1 = some (cmd0 .running (withOp 0 0x01)) ∧
    pkOp (withOp 0 0x01) = 0x01 ∧ (3 : Nat) ∉ (cmd0 .running 0).stations ∧ (3 : Nat) ∈ [3] ∧
    ((working 0x20 id).startEnv 0 noEnv |>.proxyWait (cmd0 .running (withOp 0 0x20)) noEnv).1 = false ∧
    (cmd0 .held 0).phase = .held ∧ (cmd0 .held 0).eff ≤ (site.startEnv 0 noEnv).now ∧
    (site.startEnv 0 noEnv).now < 101 ∧ bitOf (site.startEnv 0 noEnv).det.ctrl 0 = false ∧
    bitOf (site.startEnv 0 noEnv).cc.status 1 = true ∧ bitOf (State.reset.startEnv 0 noEnv).cc.status 1 = false ∧
    ((site.startEnv 0 noEnv).cmds.find? fun c => c.phase == .running && pkOp c.pkt == 0x52 && pk c.pkt 32 2 == 0) = none ∧
    (((working 0x52 id).startEnv 0 noEnv).cmds.find? fun c => c.phase == .running && pkOp c.pkt == 0x52 &&
      pk c.pkt 32 2 == 0).isSome = true := by
  repeat' first | apply And.intro | decide +kernel | rfl

/-- A record of the log. -/
def rec0 (n stamp : Nat) : LogRec := ⟨96 * n, 1, 0, 0, 5, stamp, n, 0, packet [(0, 1, 0x70), (1, 1, 4)], 3, n⟩

/-- WorkRows: replays that run and none; a record that is due and one that is not, that is injected and that is
skipped. -/
theorem test_witness_replay :
    (site.startEnv 0 noEnv).det.replay = none ∧ 100 < 1 + (100 : Nat) ∧ 0 + 100 ≤ (100 : Nat) ∧
    (site.startEnv 0 noEnv).skipsRecord (rec0 0 0) = false ∧
    (site.startEnv 0 noEnv).skipsRecord { rec0 0 0 with allot := 1 } = true ∧ pkFlag (rec0 0 0).pkt 2 = true ∧
    pkFlag (rec0 0 0).pkt 3 = false ∧
    (({ site with det := { site.det with replay := some ([rec0 0 0, rec0 1 5], 100) } } : State).startEnv 0 noEnv).det.replay
      = some ([rec0 0 0, rec0 1 5], 100) := by
  repeat' first | apply And.intro | decide +kernel | rfl

/-- WorkRows: cores at both sides of the limit; each opcode whose end is a row of its own, running on its extent. -/
theorem test_witness_ends :
    256 ≤ (256 : Nat) ∧ ¬ 256 ≤ (255 : Nat) ∧ (7 : Nat) ∉ (site.start 0).spr.restarting ∧
    ((working 0x71 fun c => { c with aux := [100] }).start 0).cmd 1 =
      some { cmd0 .running (withOp 0 0x71) with aux := [100] } ∧ nth [100] 0 ≤ (site.start 0).now ∧
    (site.start 0).now < nth [101] 0 ∧ pkOp (withOp 0 0x71) = 0x71 ∧ pkOp (withOp 0 0x40) = 0x40 ∧
    pkOp (withOp 0 0x31) = 0x31 ∧ pkOp (withOp 0 0x51) = 0x51 ∧ pkOp (withOp 0 0x52) = 0x52 ∧
    pk (withOp 0 0x51) 24 1 = 0 ∧ ((working 0x51 id).start 0).busyExtent 0 = false ∧
    ({ working 0x51 id with waiting := [{ HostReq.blank 0 0 0 0 0 0 0 false with ext := 0 }] } : State).busyExtent 0 = true ∧
    (cmd0 .running (withOp 0 0x40)).left = [] ∧ ((working 0x31 id).start 0).extent (pk (withOp 0 0x31) 24 2) = some (ext2 0 0) ∧
    ((working 0x31 id).start 0).writesBefore 0 0 0 (ext2 0 0) 90 1 = false ∧
    (cmd0 .running (withOp 0 0x31)).cutWaits = false ∧
    ({ cmd0 .running (withOp 0 0x31) with left := [2 ^ 64] } : Cmd).cutWaits = true ∧
    ({ working 0x31 id with waiting := [{ HostReq.blank 0 1 0 0 0 80 0 false with ext := 3, set := 1 }] } :
      State).writesBefore 3 0 1 ((site.extent 3).getD ext0) 90 1 = true ∧ (ext2 0 0).freezing 0 0 = false ∧
    ({ ext2 0 0x40 with frozen := false } : Extent).freezing 0 0 = true ∧ (cmd0 .running 0).queue < 4096 ∧
    pk (packet [(0, 1, 0x51), (24, 1, 1)]) 24 1 ≠ 0 ∧ ((working 0x51 id).start 0).busyMember 3 1 = false ∧
    ({ working 0x51 id with waiting := [{ HostReq.blank 0 0 0 1 0 0 0 false with ext := 3 }] } : State).busyMember 3 1 =
      true ∧ (ext2 0 0).sharing ≠ 2 ∧
    (site.settleShare 0 0).cmds = [] ∧ (site.start 0).waiting = [] ∧ (site.start 0).cmds = [] := by
  repeat' first | apply And.intro | decide +kernel | rfl

/-- R280: a WAIT_COUNT ends at its count, and not one CC before. -/
theorem test_wait_count :
    after (.waitCountReached 100 1) (working 0x71 fun c => { c with aux := [100] }) (fun u => u.cmds == []) = true ∧
    after (.waitCountReached 100 1) (working 0x71 fun c => { c with aux := [101] }) (fun u => u.cmds.length == 1) = true := by
  repeat' first | apply And.intro | decide +kernel | rfl

/-- WorkBeginsAndEnds: commands of its opcodes on extents that are there, at and beside the sizes and counts that its
clauses compare, and faults of each kind. -/
theorem test_witness_begin :
    (working 0x20 id).cmd 1 = some (cmd0 .running (withOp 0 0x20)) ∧ site.tam.pair ≠ 1 ∧ site.tam.pair ≠ 5 ∧
    pk (packet [(0, 1, 0x52), (40, 8, 2097152)]) 40 8 = (ext2 0 0).size ∧ pk (packet [(0, 1, 0x52)]) 40 8 < (ext2 0 0).size ∧
    site.extent (pk (packet [(0, 1, 0x53)]) 32 2) = some (ext2 0 0) ∧ site.now < nth [101] 0 ∧
    pk (packet [(0, 1, 0xF1)]) 24 1 = site.plan.cur.level ∧ site.planBase.level = pk (packet [(0, 1, 0xF1)]) 24 1 ∧
    pk (packet [(0, 1, 0x50), (24, 1, 1)]) 24 1 = 1 ∧ pk (packet [(0, 1, 0x50)]) 24 1 ≠ 1 ∧
    pk (packet [(0, 1, 0x51), (24, 1, 1)]) 24 1 ≠ 0 ∧ site.publishFault 0 3 1 100 = 0 ∧ site.publishFault 0 0 1 100 = 0x0B ∧
    site.setPages 3 ((site.extent 3).getD ext0) 0 1 90 1 = [] ∧
    ({ site with dir := { site.dir with frames := [(24, { Frame.fresh 0 3 0 5 1 with set := 1 })] } } : State).setPages 3
      ((site.extent 3).getD ext0) 0 1 90 1 ≠ [] ∧ ((site.extent 3).getD ext0).proxy = false ∧
    ({ site with cmds := [{ cmd0 .running (withOp 0 0x02) with writes := [(0, 64)], stamp := 80, eff := 80 }] } :
      State).cmdBlocked { cmd0 .running (withOp 0 0x41) with id := 2, reads := [(0, 64)] } = true ∧ site.pruneLocks.extent 0 = some (ext2 0 0) ∧
    (∀ f ∈ site.pruneLocks.dir.frames, f.2.st ≠ 8) ∧ site.cmdBlocked (cmd0 .running (withOp 0 0x41)) = false ∧
    (∀ k, k < 2 → site.locate 1 0 0 ≠ .frame k) ∧ (ext2 0 0).versioned = false ∧ site.fls.programs = [] ∧ site.closeFault 0 3 100 = 0 ∧
    site.openFault 0 3 100 = 0 ∧ site.extent 1 = some (ext2 0x200000 1) ∧
    (ext2 0x200000 1).bytePages 0 65536 = [0] ∧ site.replayRecords 0 1 = [] ∧
    ({ site with det := { site.det with log := [rec0 0 0] } } : State).replayRecords 0 1 ≠ [] ∧
    (cmd0 .paced 0).paced = false ∧ site.now < 101 ∧ site.tam.waits = [] ∧ (cmd0 .paced 0).queue < 4096 ∧
    (0 : Nat) ≠ 2 := by
  repeat' first | apply And.intro | decide +kernel | rfl

/-- WorkBeginsAndEnds: a FENCE whose covered commands are gone, and none. -/
theorem test_witness_fences :
    ((working 0x70 id).cmds.find? fun c => pkOp c.pkt == 0x70 && c.phase == .running &&
      !(c.covers.any fun i => ((working 0x70 id).cmd i).isSome)) = some (cmd0 .running (withOp 0 0x70)) ∧
    (site.cmds.find? fun c => pkOp c.pkt == 0x70 && c.phase == .running && !(c.covers.any fun i => (site.cmd i).isSome)) =
      none := by
  repeat' first | apply And.intro | decide +kernel | rfl

/-! ### Witnesses: recording, test mode, register writes -/

/-- DeterminismRows: writes that keep and change the bounds of windows, an allotment's window that is open and one that
is not, at its end and before it; a gap with room and without; a copy that may start and ones that may not. -/
theorem test_witness_determinism :
    up.managed ∧ bitOf (detWord (up.start 0).det.ctrl 0x1800) 3 = bitOf (up.start 0).det.ctrl 3 ∧
    fld (detWord (up.start 0).det.ctrl 0x1800) 8 6 = fld (up.start 0).det.ctrl 8 6 ∧
    bitOf (detWord (up.start 0).det.ctrl 0x1800) 2 = false ∧ bitOf (detWord (up.start 0).det.ctrl 0x1804) 2 = true ∧
    bitOf (up.start 0).det.ctrl 2 = false ∧ bitOf (detWord (up.start 0).det.ctrl 0x1808) 3 ≠ bitOf (up.start 0).det.ctrl 3 ∧
    fld (detWord (up.start 0).det.ctrl 0x2800) 8 6 = 40 ∧ fld (detWord (up.start 0).det.ctrl 0x2900) 8 6 = 24 ∧
    fld (detWord (up.start 0).det.ctrl 0x1000) 8 6 = 16 ∧ (4 : Nat) < 5 ∧ ((up.start 0).allot 0).hashOpen = false ∧
    (up.start 0).hashPending 0 0 (2 ^ 24) = false ∧
    ({ up with waiting := [.blank 0 0 0 0 0 50 0 false] } : State).hashPending 0 0 (2 ^ 24) = true ∧
    (site.extentAt 0).isSome = true ∧ ({ Allot.init0 with hashOpen := true } : Allot).hashOpen = true ∧ 0 + 2 ^ 24 ≤ (up.start (2 ^ 24)).now ∧
    (up.start (2 ^ 24 - 1)).now < 0 + 2 ^ 24 ∧ bitOf (up.start 0).det.mask 0 = true ∧ (up.start 0).det.gapOpen = 0 ∧
    (67043328 : Nat) + 65536 ≤ 67108864 ∧ 67108864 < (67043329 : Nat) + 65536 ∧
    ({ up with det := { up.det with ctrl := 4, gapOpen := 1 } } : State).recording = true ∧ (up.start 0).recording = false ∧
    bitOf (1 : Reg32) 0 = true ∧ bitOf (0 : Reg32) 0 = false ∧ (up.start 0).det.copying = none ∧
    ({ site with det := { site.det with tail := 65536 } } : State).logHas 0 65536 = true ∧ site.logHas 0 65536 = false ∧
    site.copyTarget 0 65536 = true ∧ site.copyTarget 0x600000 65536 = false ∧ (64 : Nat) % 65536 ≠ 0 := by
  repeat' first | apply And.intro | decide +kernel | rfl

/-- R327: a window length of 15 is not taken, and one of 16 is. -/
theorem test_det_window : fld (detWord 0x1800 0x0F00) 8 6 = 24 ∧ fld (detWord 0x1800 0x1000) 8 6 = 16 := by decide

/-- The part in test mode. -/
def tested : State := { framed (Frame.fresh 0 0 0 1 0) with prt := { up.prt with isOpen := true, symLine := 8192 } }

/-- TestModeRows: test mode open and closed; the last lane, entry, channel, host port and Tamian port, and one beyond
each; a frame that is held and one that is not; a NORMAL channel and one that is not. -/
theorem test_witness_test_mode :
    tested.managed ∧ (tested.start 0).prt.isOpen = true ∧ (up.start 0).prt.isOpen = false ∧ (11 : Nat) < 12 ∧
    12 ≤ (12 : Nat) ∧ (31 : Nat) < 32 ∧ (tested.start 0).onePlan = false ∧ stagePoint (fld (0x10 : Reg32) 0 8) = true ∧
    stagePoint (fld (0xFF : Reg32) 0 8) = false ∧ (tested.start 0).prt.stage = [] ∧
    ((0x00010 : Reg32) &&& 0xFFFFF) ≠ sget 0 (tested.start 0).prt.stage 31 ∧ ((0 : Reg32) &&& 0xFFFFF) = sget 0 (tested.start 0).prt.stage 31 ∧
    72 ≤ fld (72 : Reg32) 0 7 ∧ fld (71 : Reg32) 0 7 < 72 ∧ fld (71 : Reg32) 8 2 = 0 ∧ fld (0x147 : Reg32) 8 2 ≠ 0 ∧
    ((tested.start 0).chan 71).st = 0 ∧ 8 < fld (9 : Reg32) 0 4 ∧ fld (8 : Reg32) 0 4 ≤ 8 ∧ 71 < fld (0x4800 : Reg32) 8 7 ∧
    fld (0x4701 : Reg32) 8 7 ≤ 71 ∧ bitOf (0x30 : Reg32) 4 = true ∧ bitOf (0x30 : Reg32) 5 = true ∧
    bitOf (0x20 : Reg32) 4 = false ∧ (tested.start 0).frame ((tested.start 0).prt.symLine.toNat / 1024) =
      some (Frame.fresh 0 0 0 1 0) ∧ (up.start 0).frame 8 = none ∧ 12 ≤ fld (0x10C : Reg32) 0 4 ∧
    fld (0x10B : Reg32) 0 4 = 3 + 8 ∧ fld (0x107 : Reg32) 0 4 < 8 ∧ fld (0x107 : Reg32) 8 8 ≠ 0 ∧ fld (0x7 : Reg32) 8 8 = 0 ∧
    fld (0x100000008 : Reg64) 32 4 ≠ 0 ∧ fld (8 : Reg64) 32 4 = 0 ∧ bitOf (0x10100000008 : Reg64) 40 = true ∧
    bitOf (0x100000008 : Reg64) 40 = false := by
  repeat' first | apply And.intro | decide +kernel | rfl

/-- R431: outside test mode a setting is not taken and sets SET_ERR. -/
theorem test_set_err : ∃ u, exec (.prtGateDelay 0 0 5) up = .next u ∧ u.prt.gate = [] ∧ u.prt.setErr = true :=
  ⟨_, rfl, rfl, rfl⟩

/-- The part with a second allotment, on LD-ID 1 of H0. -/
def seen : State :=
  { up with
    allots := [(0, Allot.init0), (1, { Allot.init with bind := 0x110, state := 1 })]
    ep := { up.ep with lds := [(0, { Ld.init with mse := true }), (1, { Ld.init with mse := true })] } }

/-- RegisterWrites: allotments 63 and 64; BARs that decode and that do not; each kind of place, of each width. -/
theorem test_witness_registers :
    (63 : Nat) < 64 ∧ 64 ≤ (64 : Nat) ∧ (2 ^ 32 - 1 : Nat) < 2 ^ 32 ∧ (up.start 0).barOn 0 = true ∧
    (up.start 0).barOn 1 = false ∧ ((starting 1).start 0).served 0 = false ∧ (127 : Nat) < 128 ∧ up.sec.recovery = false ∧
    (up.start 0).place 0 0xC0000 = .reg 0xC0000 4 0 true ∧ (up.start 0).place 0 0x100008 = .reg 0x100008 8 0 true ∧
    (up.start 0).place 0 0x10000C = .reg 0x100008 8 4 true ∧ (seen.start 0).barOn 1 = true ∧
    (seen.start 0).place 1 0x0 = .reg 0x10000 8 0 false ∧
    ((up.start 0).place 0 0xC0000).fits 0xC0000 4 = true ∧ ((up.start 0).place 0 0xC0000).fits 0xC0000 8 = false ∧
    ((up.start 0).place 0 0x100008).fits 0x100008 8 = true ∧ ((up.start 0).place 0 0x10000C).fits 0x10000C 4 = true ∧
    sfind (up.start 0).lowHalf 0x100008 = none ∧ up.managed := by
  repeat' first | apply And.intro | decide +kernel | rfl

/-- R9: the low half of a 64-bit register waits, and the write of the high half takes effect with it. -/
theorem test_low_half :
    after (.registerWrite 0 0 0x100008 4 5) up (fun u => u.det.mask == BitVec.allOnes 64 &&
      after (.registerWrite 0 0 0x10000C 4 6) u (fun w => w.det.mask == 0x600000005)) = true := by decide +kernel

/-- R468: PWR_CTRL reads 0x00645F01 after reset, and DRM_CTRL 0x1088. -/
theorem test_reset_values : State.reset.readReg 0x140000 = 0x645F01 ∧ State.reset.readReg 0xC0000 = 0x1088 := by
  repeat' first | apply And.intro | decide +kernel | rfl

/-- ResetValues: the last allotment, entry, queue and lane. -/
theorem test_witness_reset_values : (63 : Nat) < 64 ∧ (11 : Nat) < 12 ∧ (65535 : Nat) < 65536 ∧ (4095 : Nat) < 4096 := by
  decide

end Sys2Proof.Tests
end

/-! SUPPORT. What one command and one tick of an empty queue do to the settings, and what follows: O5 and O7. -/

namespace Sys2Proof.Machine

open Sys2Proof

/-! ### What a command that sets nothing leaves -/

/-- The beginning of a command moves no setting but the count. -/
theorem State.start_settings (s : State) (t : Count) :
    (s.start t).settings = { s.settings with now := (s.start t).cc.now } := by
  simp only [State.start, State.advance]
  split <;> rfl

/-- A command that is no writer of settings leaves those that it began with (R7): one line for each command, by the
frame lemma of its meaning. -/
theorem exec_settings {c : Instr} {s u : State} (hc : setsSettings c = false) (h : exec c s = .next u) :
    ∃ t, u.settings = (s.start t).settings := by
  cases c with
  | load t port ld hpa env => exact ⟨t, execLoad_settings t port ld hpa env s u h⟩
  | store t port ld hpa data be poison env => exact ⟨t, execStore_settings t port ld hpa data be poison env s u h⟩
  | peerRead t port ld off len req env => exact ⟨t, execPeerRead_settings t port ld off len req env s u h⟩
  | peerWrite t port ld off len req data poison env =>
    exact ⟨t, execPeerWrite_settings t port ld off len req data poison env s u h⟩
  | meterRelease t env => exact ⟨t, execMeterRelease_settings t env s u h⟩
  | urgencyRaise t id => exact ⟨t, execUrgencyRaise_settings t id s u h⟩
  | mergeBufferFill t frame span env => exact ⟨t, execMergeBufferFill_settings t frame span env s u h⟩
  | mergeFlushAge t frame span env => exact ⟨t, execMergeFlushAge_settings t frame span env s u h⟩
  | fillComplete t ext page ver lost env => exact ⟨t, execFillComplete_settings t ext page ver lost env s u h⟩
  | writeBack t frame env => exact ⟨t, execWriteBack_settings t frame env s u h⟩
  | flashReadDone t ext page cw step => exact ⟨t, execFlashReadDone_settings t ext page cw step s u h⟩
  | flashProgramDone t id outcome => exact ⟨t, execFlashProgramDone_settings t id outcome s u h⟩
  | rebuildImage t die => exact ⟨t, execRebuildImage_settings t die s u h⟩
  | relocation t die block n => exact ⟨t, execRelocation_settings t die block n s u h⟩
  | shadowCopy t frame n env => exact ⟨t, execShadowCopy_settings t frame n env s u h⟩
  | synthJobDone t id eng residue env => exact ⟨t, execSynthJobDone_settings t id eng residue env s u h⟩
  | sprigBatchAck t core cmd error env => exact ⟨t, execSprigBatchAck_settings t core cmd error env s u h⟩
  | sprigCoreTimeout t core => exact ⟨t, execSprigCoreTimeout_settings t core s u h⟩
  | stationReport t cmd station env => exact ⟨t, execStationReport_settings t cmd station env s u h⟩
  | pacedRelease t cmd => exact ⟨t, execPacedRelease_settings t cmd s u h⟩
  | heldCompletionWrite t q => exact ⟨t, execHeldCompletionWrite_settings t q s u h⟩
  | completionWriteError t q => exact ⟨t, execCompletionWriteError_settings t q s u h⟩
  | eventWrite t n => exact ⟨t, execEventWrite_settings t n s u h⟩
  | pageWipe t => exact ⟨t, execPageWipe_settings t s u h⟩
  | scrubPassStart t => exact ⟨t, execScrubPassStart_settings t s u h⟩
  | scrubFrame t env => exact ⟨t, execScrubFrame_settings t env s u h⟩
  | bucketLeak t => exact ⟨t, execBucketLeak_settings t s u h⟩
  | refreshDue t ch busy => exact ⟨t, execRefreshDue_settings t ch busy s u h⟩
  | pullInRefresh t ch n busy => exact ⟨t, execPullInRefresh_settings t ch n busy s u h⟩
  | retrainingPause t ch margin hot => exact ⟨t, execRetrainingPause_settings t ch margin hot s u h⟩
  | sweepSlice t ch margin => exact ⟨t, execSweepSlice_settings t ch margin s u h⟩
  | evacuationChunkCopy t ch w => exact ⟨t, execEvacuationChunkCopy_settings t ch w s u h⟩
  | chunkSwitch t ch => exact ⟨t, execChunkSwitch_settings t ch s u h⟩
  | holdupMeasure t us => exact ⟨t, execHoldupMeasure_settings t us s u h⟩
  | inputLow t mv10 => exact ⟨t, execInputLow_settings t mv10 s u h⟩
  | inputHigh t mv10 => exact ⟨t, execInputHigh_settings t mv10 s u h⟩
  | powerGovernorSample t mv10 watts inlet outlet flow =>
    exact ⟨t, execPowerGovernorSample_settings t mv10 watts inlet outlet flow s u h⟩
  | paceSample t paces => exact ⟨t, execPaceSample_settings t paces s u h⟩
  | replanPeriod t => exact ⟨t, execReplanPeriod_settings t s u h⟩
  | replanMeasureDone t meas refs raises => exact ⟨t, execReplanMeasureDone_settings t meas refs raises s u h⟩
  | planEffective t => exact ⟨t, execPlanEffective_settings t s u h⟩
  | reservationEffective t n cls => exact ⟨t, execReservationEffective_settings t n cls s u h⟩
  | launchCountReached t cmd env => exact ⟨t, execLaunchCountReached_settings t cmd env s u h⟩
  | waitCountReached t cmd => exact ⟨t, execWaitCountReached_settings t cmd s u h⟩
  | countRefLoss t => exact ⟨t, execCountRefLoss_settings t s u h⟩
  | countRefReturn t => exact ⟨t, execCountRefReturn_settings t s u h⟩
  | mainConversionStart t => exact ⟨t, execMainConversionStart_settings t s u h⟩
  | pwrGood t => exact ⟨t, execPwrGood_settings t s u h⟩
  | bootRom t puf => exact ⟨t, execBootRom_settings t puf s u h⟩
  | dramTrainingDone t failed limpFailed => exact ⟨t, execDramTrainingDone_settings t failed limpFailed s u h⟩
  | restoreDone t => exact ⟨t, execRestoreDone_settings t s u h⟩
  | ready t meas => exact ⟨t, execReady_settings t meas s u h⟩
  | startupLate t => exact ⟨t, execStartupLate_settings t s u h⟩
  | mapLoading t pages => exact ⟨t, execMapLoading_settings t pages s u h⟩
  | perstAssert t port => exact ⟨t, execPerstAssert_settings t port s u h⟩
  | perstDeassert t port => exact ⟨t, execPerstDeassert_settings t port s u h⟩
  | linkDown t port => exact ⟨t, execLinkDown_settings t port s u h⟩
  | linkDegraded t port rate width => exact ⟨t, execLinkDegraded_settings t port rate width s u h⟩
  | linkTrainingRetry t port rate width => exact ⟨t, execLinkTrainingRetry_settings t port rate width s u h⟩
  | hdmDecoderCommit t port ld k dec => exact ⟨t, execHdmDecoderCommit_settings t port ld k dec s u h⟩
  | functionLevelReset t port ld => exact ⟨t, execFunctionLevelReset_settings t port ld s u h⟩
  | quiesce t n => exact ⟨t, execQuiesce_settings t n s u h⟩
  | busMasterClear t port ld => exact ⟨t, execBusMasterClear_settings t port ld s u h⟩
  | busMasterSet t port ld => exact ⟨t, execBusMasterSet_settings t port ld s u h⟩
  | d3hotEntry t port ld => exact ⟨t, execD3hotEntry_settings t port ld s u h⟩
  | d0Entry t port ld => exact ⟨t, execD0Entry_settings t port ld s u h⟩
  | partLowPowerEntry t env => exact ⟨t, execPartLowPowerEntry_settings t env s u h⟩
  | lowPowerExitDone t env => exact ⟨t, execLowPowerExitDone_settings t env s u h⟩
  | memorySpaceEnable t port ld on => exact ⟨t, execMemorySpaceEnable_settings t port ld on s u h⟩
  | msixVectorUnmask t port ld vec => exact ⟨t, execMsixVectorUnmask_settings t port ld vec s u h⟩
  | ideKm t port ld stream ok => exact ⟨t, execIdeKm_settings t port ld stream ok s u h⟩
  | identify t port ld => exact ⟨t, execIdentify_settings t port ld s u h⟩
  | getEventRecords t port ld log => exact ⟨t, execGetEventRecords_settings t port ld log s u h⟩
  | clearEventRecords t port ld log handles => exact ⟨t, execClearEventRecords_settings t port ld log handles s u h⟩
  | getEventInterruptPolicy t port ld => exact ⟨t, execGetEventInterruptPolicy_settings t port ld s u h⟩
  | setEventInterruptPolicy t port ld log vec =>
    exact ⟨t, execSetEventInterruptPolicy_settings t port ld log vec s u h⟩
  | getTimestamp t port ld => exact ⟨t, execGetTimestamp_settings t port ld s u h⟩
  | getSupportedLogs t port ld => exact ⟨t, execGetSupportedLogs_settings t port ld s u h⟩
  | getLog t port ld off len => exact ⟨t, execGetLog_settings t port ld off len s u h⟩
  | identifyMemoryDevice t port ld => exact ⟨t, execIdentifyMemoryDevice_settings t port ld s u h⟩
  | getDynamicCapacityConfiguration t port ld =>
    exact ⟨t, execGetDynamicCapacityConfiguration_settings t port ld s u h⟩
  | getDynamicCapacityExtentList t port ld => exact ⟨t, execGetDynamicCapacityExtentList_settings t port ld s u h⟩
  | addDynamicCapacityResponse t port ld exts =>
    exact ⟨t, execAddDynamicCapacityResponse_settings t port ld exts s u h⟩
  | releaseDynamicCapacity t port ld exts => exact ⟨t, execReleaseDynamicCapacity_settings t port ld exts s u h⟩
  | getLdInfo t port => exact ⟨t, execGetLdInfo_settings t port s u h⟩
  | getLdAllocations t port => exact ⟨t, execGetLdAllocations_settings t port s u h⟩
  | getQosControl t port => exact ⟨t, execGetQosControl_settings t port s u h⟩
  | getQosStatus t port ld => exact ⟨t, execGetQosStatus_settings t port ld s u h⟩
  | getCertificate t port ld off len => exact ⟨t, execGetCertificate_settings t port ld off len s u h⟩
  | challenge t port ld tbs => exact ⟨t, execChallenge_settings t port ld tbs s u h⟩
  | getMeasurements t port ld tbs => exact ⟨t, execGetMeasurements_settings t port ld tbs s u h⟩
  | keyExchange t port ld tbs => exact ⟨t, execKeyExchange_settings t port ld tbs s u h⟩
  | getPqChain t port ld off len => exact ⟨t, execGetPqChain_settings t port ld off len s u h⟩
  | getPqSig t port ld off => exact ⟨t, execGetPqSig_settings t port ld off s u h⟩
  | keyDeliver t port ld session key => exact ⟨t, execKeyDeliver_settings t port ld session key s u h⟩
  | keyForget t port ld session handle => exact ⟨t, execKeyForget_settings t port ld session handle s u h⟩
  | handleExpiry t port ld handle => exact ⟨t, execHandleExpiry_settings t port ld handle s u h⟩
  | getState t => exact ⟨t, execGetState_settings t s u h⟩
  | cfgRecord t off data last => exact ⟨t, execCfgRecord_settings t off data last s u h⟩
  | powerLevel t level => exact ⟨t, execPowerLevel_settings t level s u h⟩
  | wake t port ld => exact ⟨t, execWake_settings t port ld s u h⟩
  | pldmSensorRead t sensor => exact ⟨t, execPldmSensorRead_settings t sensor s u h⟩
  | hello t port peer lead auth fw width => exact ⟨t, execHello_settings t port peer lead auth fw width s u h⟩
  | tamianLinkDown t port width => exact ⟨t, execTamianLinkDown_settings t port width s u h⟩
  | tamianTrainingRetry t port width => exact ⟨t, execTamianTrainingRetry_settings t port width s u h⟩
  | echo t port m => exact ⟨t, execEcho_settings t port m s u h⟩
  | echoReply t port m => exact ⟨t, execEchoReply_settings t port m s u h⟩
  | rttMeasure t => exact ⟨t, execRttMeasure_settings t s u h⟩
  | pageRead t port m env => exact ⟨t, execPageRead_settings t port m env s u h⟩
  | pageData t port m => exact ⟨t, execPageData_settings t port m s u h⟩
  | pageWrite t port m => exact ⟨t, execPageWrite_settings t port m s u h⟩
  | openRemote t port m => exact ⟨t, execOpenRemote_settings t port m s u h⟩
  | openReply t port m => exact ⟨t, execOpenReply_settings t port m s u h⟩
  | publishRemote t port m => exact ⟨t, execPublishRemote_settings t port m s u h⟩
  | publishReply t port m => exact ⟨t, execPublishReply_settings t port m s u h⟩
  | closeRemote t port m => exact ⟨t, execCloseRemote_settings t port m s u h⟩
  | revoked t port m => exact ⟨t, execRevoked_settings t port m s u h⟩
  | mirror t m => exact ⟨t, execMirror_settings t m s u h⟩
  | mirrorAck t m => exact ⟨t, execMirrorAck_settings t m s u h⟩
  | heartbeat t m => exact ⟨t, execHeartbeat_settings t m s u h⟩
  | heartbeatSend t => exact ⟨t, execHeartbeatSend_settings t s u h⟩
  | partnerLoss t => exact ⟨t, execPartnerLoss_settings t s u h⟩
  | resilverPage t m => exact ⟨t, execResilverPage_settings t m s u h⟩
  | tamianRequestTimeout t tag => exact ⟨t, execTamianRequestTimeout_settings t tag s u h⟩
  | closeRemoteResend t ext => exact ⟨t, execCloseRemoteResend_settings t ext s u h⟩
  | pageWriteDiscard t src ext => exact ⟨t, execPageWriteDiscard_settings t src ext s u h⟩
  | publishCommit t cmd => exact ⟨t, execPublishCommit_settings t cmd s u h⟩
  | bisnpResponse t port ld lines => exact ⟨t, execBisnpResponse_settings t port ld lines s u h⟩
  | revokeComplete t cmd => exact ⟨t, execRevokeComplete_settings t cmd s u h⟩
  | resizeMoveComplete t ext env => exact ⟨t, execResizeMoveComplete_settings t ext env s u h⟩
  | snapshotRelease t cmd => exact ⟨t, execSnapshotRelease_settings t cmd s u h⟩
  | keyEraseFlashDone t => exact ⟨t, execKeyEraseFlashDone_settings t s u h⟩
  | lifeRecordSummary t => exact ⟨t, execLifeRecordSummary_settings t s u h⟩
  | hashWindowClose t n => exact ⟨t, execHashWindowClose_settings t n s u h⟩
  | replayBufferDrain t bytes => exact ⟨t, execReplayBufferDrain_settings t bytes s u h⟩
  | replayInject t env => exact ⟨t, execReplayInject_settings t env s u h⟩
  | logCopyDone t => exact ⟨t, execLogCopyDone_settings t s u h⟩
  | packetFetch t q n delivered env => exact ⟨t, execPacketFetch_settings t q n delivered env s u h⟩
  | fetchError t q => exact ⟨t, execFetchError_settings t q s u h⟩
  | fill t q p env => exact ⟨t, execFill_settings t q p env s u h⟩
  | copy t q p env => exact ⟨t, execCopy_settings t q p env s u h⟩
  | compare t q p env => exact ⟨t, execCompare_settings t q p env s u h⟩
  | reduce t q p env => exact ⟨t, execReduce_settings t q p env s u h⟩
  | scatterAdd t q p env => exact ⟨t, execScatterAdd_settings t q p env s u h⟩
  | gather t q p env => exact ⟨t, execGather_settings t q p env s u h⟩
  | recipe t q p env => exact ⟨t, execRecipe_settings t q p env s u h⟩
  | matmul t q p env => exact ⟨t, execMatmul_settings t q p env s u h⟩
  | synth t q p env => exact ⟨t, execSynth_settings t q p env s u h⟩
  | hint t q p env => exact ⟨t, execHint_settings t q p env s u h⟩
  | pin t q p env => exact ⟨t, execPin_settings t q p env s u h⟩
  | unpin t q p env => exact ⟨t, execUnpin_settings t q p env s u h⟩
  | pageIn t q p env => exact ⟨t, execPageIn_settings t q p env s u h⟩
  | pageOut t q p env => exact ⟨t, execPageOut_settings t q p env s u h⟩
  | open_ t q p env => exact ⟨t, execOpen_settings t q p env s u h⟩
  | publish t q p env => exact ⟨t, execPublish_settings t q p env s u h⟩
  | close t q p env => exact ⟨t, execClose_settings t q p env s u h⟩
  | snapshot t q p env => exact ⟨t, execSnapshot_settings t q p env s u h⟩
  | drain t q p env => exact ⟨t, execDrain_settings t q p env s u h⟩
  | restore t q p env => exact ⟨t, execRestore_settings t q p env s u h⟩
  | grant t q p env => exact ⟨t, execGrant_settings t q p env s u h⟩
  | revoke t q p env => exact ⟨t, execRevoke_settings t q p env s u h⟩
  | resize t q p env => exact ⟨t, execResize_settings t q p env s u h⟩
  | query t q p env => exact ⟨t, execQuery_settings t q p env s u h⟩
  | reserve t q p env => exact ⟨t, execReserve_settings t q p env s u h⟩
  | release t q p env => exact ⟨t, execRelease_settings t q p env s u h⟩
  | fence t q p env => exact ⟨t, execFence_settings t q p env s u h⟩
  | waitCount t q p env => exact ⟨t, execWaitCount_settings t q p env s u h⟩
  | mark t q p env => exact ⟨t, execMark_settings t q p env s u h⟩
  | keyLoad t q p env => exact ⟨t, execKeyLoad_settings t q p env s u h⟩
  | keyDrop t q p env => exact ⟨t, execKeyDrop_settings t q p env s u h⟩
  | planSet t q p env => exact ⟨t, execPlanSet_settings t q p env s u h⟩
  | powerSet t q p env => exact ⟨t, execPowerSet_settings t q p env s u h⟩
  | replan t q p env => exact ⟨t, execReplan_settings t q p env s u h⟩
  | altReset t q p env => exact ⟨t, execAltReset_settings t q p env s u h⟩
  | calendarSet t q p env => exact ⟨t, execCalendarSet_settings t q p env s u h⟩
  | testOpen t q p env => exact ⟨t, execTestOpen_settings t q p env s u h⟩
  | replay t q p env => exact ⟨t, execReplay_settings t q p env s u h⟩
  | fwStage t q p env => exact ⟨t, execFwStage_settings t q p env s u h⟩
  | doorbell t n off width v => exact ⟨t, execDoorbell_settings t n off width v s u h⟩
  | evtHead t by_ n v => exact ⟨t, execEvtHead_settings t by_ n v s u h⟩
  | evtEnable t by_ n v => exact ⟨t, execEvtEnable_settings t by_ n v s u h⟩
  | queEnable t by_ q v => exact ⟨t, execQueEnable_settings t by_ q v s u h⟩
  | queRestart t by_ q v => exact ⟨t, execQueRestart_settings t by_ q v s u h⟩
  | queOwner t q v => exact ⟨t, execQueOwner_settings t q v s u h⟩
  | altBind t n v => exact ⟨t, execAltBind_settings t n v s u h⟩
  | altCtrl t n v => exact ⟨t, execAltCtrl_settings t n v s u h⟩
  | winCommitCountReached t n => exact ⟨t, execWinCommitCountReached_settings t n s u h⟩
  | codExtTable t v => exact ⟨t, execCodExtTable_settings t v s u h⟩
  | colBudget t idx v => exact ⟨t, execColBudget_settings t idx v s u h⟩
  | syncArm t v => exact ⟨t, execSyncArm_settings t v s u h⟩
  | takeover t v => exact ⟨t, execTakeover_settings t v s u h⟩
  | rejoin t v => exact ⟨t, execRejoin_settings t v s u h⟩
  | cfgCommit t v => exact ⟨t, execCfgCommit_settings t v s u h⟩
  | slotErase t v => exact ⟨t, execSlotErase_settings t v s u h⟩
  | logCopy t v => exact ⟨t, execLogCopy_settings t v s u h⟩
  | prtRetrain t v => exact ⟨t, execPrtRetrain_settings t v s u h⟩
  | prtLink t v => exact ⟨t, execPrtLink_settings t v s u h⟩
  | eventWriteError t n => exact ⟨t, execEventWriteError_settings t n s u h⟩
  | linkUp t port rate width => exact ⟨t, execLinkUp_settings t port rate width s u h⟩
  | slewComplete t => exact ⟨t, execSlewComplete_settings t s u h⟩
  | flitReplayRequest t port seq => exact ⟨t, execFlitReplayRequest_settings t port seq s u h⟩
  | reservedMessageType t port m => exact ⟨t, execReservedMessageType_settings t port m s u h⟩
  | endSession t port ld session => exact ⟨t, execEndSession_settings t port ld session s u h⟩
  | modRstRelease t => exact ⟨t, execModRstRelease_settings t s u h⟩
  | _ => cases hc

/-- Settles O5: the settings stay those with which the command begins, and its beginning moves the count only. -/
theorem settingsAreKept : Obligations.SettingsAreKept := by
  intro c s u hc h
  obtain ⟨t, ht⟩ := exec_settings hc h
  have hnow : u.cc.now = (s.start t).cc.now := congrArg Settings.now ht
  rw [ht, s.start_settings t, hnow]

/-! ### What a command that sets keeps -/

theorem Settings.KeepsLegal.refl (a : Settings) : a.KeepsLegal a := ⟨rfl, id⟩

theorem Settings.KeepsLegal.trans {a b c : Settings} (h : a.KeepsLegal b) (g : b.KeepsLegal c) : a.KeepsLegal c :=
  ⟨g.pending.trans h.pending, g.legal ∘ h.legal⟩

/-- What a command keeps from its beginning on, it keeps. -/
theorem Settings.KeepsLegal.of_start {s : State} {t : Count} {b : Settings}
    (h : (s.start t).settings.KeepsLegal b) : s.settings.KeepsLegal b := (s.start_keeps t).1.trans h

/-- A writer of settings keeps the queue and legal settings (R6): one line for each, by the lemma of its meaning. -/
theorem exec_keepsLegal_of_setsSettings {c : Instr} {s u : State} (hc : setsSettings c = true)
    (h : exec c s = .next u) : s.settings.KeepsLegal u.settings := by
  cases c with
  | shutdownSequence t cause finished => exact .of_start (execShutdownSequence_keeps t cause finished s u h)
  | inputDisconnect t mv10 finished => exact .of_start (execInputDisconnect_keeps t mv10 finished s u h).weaken
  | auxLoss t finished => exact .of_start (execAuxLoss_keeps t finished s u h)
  | junctionSample t temps => exact .of_start (execJunctionSample_keeps t temps s u h).weaken
  | tickLoopLock t toRef => exact .of_start (execTickLoopLock_keeps t toRef s u h).weaken
  | countSyncEdge t falling => exact .of_start (execCountSyncEdge_keeps t falling s u h)
  | powerUp addr => exact execPowerUp_keeps addr s u h
  | modRst t low finished => exact .of_start (execModRst_keeps t low finished s u h).weaken
  | watchdogExpiry t finished => exact .of_start (execWatchdogExpiry_keeps t finished s u h).weaken
  | sync t port m => exact .of_start (execSync_keeps t port m s u h)
  | pairOp t m => exact .of_start (execPairOp_keeps t m s u h).weaken
  | winCommit t by_ n v => exact .of_start (execWinCommit_keeps t by_ n v s u h).weaken
  | dirCtrl t v => exact .of_start (execDirCtrl_keeps t v s u h).weaken
  | dirEntrySel t v => exact .of_start (execDirEntrySel_keeps t v s u h).weaken
  | pubSel t v => exact .of_start (execPubSel_keeps t v s u h).weaken
  | codExtSel t v => exact .of_start (execCodExtSel_keeps t v s u h).weaken
  | mxeEngSel t v => exact .of_start (execMxeEngSel_keeps t v s u h).weaken
  | mxeCompSel t v => exact .of_start (execMxeCompSel_keeps t v s u h).weaken
  | sprCoreSel t v => exact .of_start (execSprCoreSel_keeps t v s u h).weaken
  | colResSel t v => exact .of_start (execColResSel_keeps t v s u h).weaken
  | drmChSel t v => exact .of_start (execDrmChSel_keeps t v s u h).weaken
  | flsDieSel t v => exact .of_start (execFlsDieSel_keeps t v s u h).weaken
  | intChSel t v => exact .of_start (execIntChSel_keeps t v s u h).weaken
  | epPortSel t v => exact .of_start (execEpPortSel_keeps t v s u h).weaken
  | epLdSel t v => exact .of_start (execEpLdSel_keeps t v s u h).weaken
  | tamPortSel t v => exact .of_start (execTamPortSel_keeps t v s u h).weaken
  | secSlotSel t v => exact .of_start (execSecSlotSel_keeps t v s u h).weaken
  | pwrDomSel t v => exact .of_start (execPwrDomSel_keeps t v s u h).weaken
  | ageDomSel t v => exact .of_start (execAgeDomSel_keeps t v s u h).weaken
  | tableLoad t v => exact .of_start (execTableLoad_keeps t v s u h).weaken
  | codGrantTable t v => exact .of_start (execCodGrantTable_keeps t v s u h).weaken
  | recipeLoad t v => exact .of_start (execRecipeLoad_keeps t v s u h).weaken
  | recipeClear t v => exact .of_start (execRecipeClear_keeps t v s u h).weaken
  | missEngines t v => exact .of_start (execMissEngines_keeps t v s u h).weaken
  | lsShare t v => exact .of_start (execLsShare_keeps t v s u h).weaken
  | colClass t c v => exact .of_start (execColClass_keeps t c v s u h).weaken
  | syncSend t v => exact .of_start (execSyncSend_keeps t v s u h).weaken
  | fltReset t v finished => exact .of_start (execFltReset_keeps t v finished s u h).weaken
  | secSlotAssign t v => exact .of_start (execSecSlotAssign_keeps t v s u h).weaken
  | recoveryLoad t v finished => exact .of_start (execRecoveryLoad_keeps t v finished s u h).weaken
  | detCtrl t v => exact .of_start (execDetCtrl_keeps t v s u h).weaken
  | testClose t v => exact .of_start (execTestClose_keeps t v s u h).weaken
  | prtGateDelay t lane v => exact .of_start (execPrtGateDelay_keeps t lane v s u h).weaken
  | prtStage t idx v => exact .of_start (execPrtStage_keeps t idx v s u h).weaken
  | symbolInject t v => exact .of_start (execSymbolInject_keeps t v s u h).weaken
  | prtCodec t v => exact .of_start (execPrtCodec_keeps t v s u h).weaken
  | registerWrite t by_ off width v => exact .of_start (execRegisterWrite_keeps t by_ off width v s u h).weaken
  | _ => cases hc

/-- Every command keeps the queue and legal settings. -/
theorem exec_keepsLegal {c : Instr} {s u : State} (h : exec c s = .next u) :
    s.settings.KeepsLegal u.settings := by
  cases hc : setsSettings c with
  | true => exact exec_keepsLegal_of_setsSettings hc h
  | false =>
    obtain ⟨t, ht⟩ := exec_settings hc h
    exact ht ▸ (s.start_keeps t).1

/-! ### What a tick keeps -/

@[simp] theorem State.slewTo_settings (s : State) (left : Int) : (s.slewTo left).settings = s.settings := rfl

theorem State.advance_keepsLegal (s : State) (t : Count) : s.settings.KeepsLegal (s.advance t).settings :=
  (s.start_keeps t).1

/-- A tick keeps the queue and legal settings: it clears the outputs and moves the count (R27, R33). -/
theorem State.tick_keepsLegal (s : State) : s.settings.KeepsLegal s.tick.settings := by
  simp only [State.tick]
  split
  · exact .refl _
  split
  · exact State.advance_keepsLegal { s with out := [] } _
  split
  · exact State.advance_keepsLegal { s with out := [] } _
  split
  · exact .refl _
  · exact State.advance_keepsLegal { s with out := [] } _

/-- The requests of ordered ties that go on at a tick change no setting. -/
theorem State.idle_settings (s : State) : s.idle.settings = s.tick.settings := by
  simp only [State.idle]
  split <;> simp

/-- Settles O7: a step is one command or one tick, and each keeps legal settings. -/
theorem stepsKeepSettingsLegal : Obligations.StepsKeepSettingsLegal := by
  intro s u legal h
  unfold step at h
  split at h
  · cases h
    exact s.idle_settings ▸ s.tick_keepsLegal.legal legal
  · next c rest _ =>
    have legalRest : (State.settings { s with pending := rest }).Legal := { legal with }
    exact (exec_keepsLegal h).legal legalRest

end Sys2Proof.Machine

/-! SUPPORT. What REGISTER_WRITE does by place, width and half (R5 to R10, R468 to R474), and what follows: O57. -/

namespace Sys2Proof.Machine

open Sys2Proof

/-! ### The way to a register -/

theorem State.viaBar_of_not_barOn {s : State} {n : Nat} (h : s.barOn n = false) (off : Nat) (f : State → State) :
    s.viaBar n off f = s.emit (.unsupported off) := by
  simp [State.viaBar, h]

theorem State.viaBar_of_barOn {s : State} {n : Nat} (h : s.barOn n = true) (r : n ≠ 0 ∨ s.sec.recovery = false)
    (off : Nat) (f : State → State) : s.viaBar n off f = f s := by
  rcases r with r | r <;> simp [State.viaBar, h, r]

/-- A function that does not serve yet retries its configuration requests, without effect (R360, R463). -/
theorem State.config_of_not_served {s : State} {k : Nat} (h : s.served k = false ∨ (s.ld k).crs = true)
    (f : State → State) : s.config k f = s := by
  rcases h with h | h <;> simp [State.config, h]

/-! ### A write by its place -/

/-- A write that the place does not allow, or at no place, is recorded only (R10). -/
theorem State.barWrite_unfit {s : State} {by_ off width : Nat} (v : Reg64)
    (h : (s.place by_ off).fits off width = false ∨ s.place by_ off = .nothing) :
    s.barWrite by_ off width v = s.regErr by_ off := by
  unfold State.barWrite
  rcases h with h | h <;> simp [h]

theorem State.barWrite_reg {s : State} {by_ off width o w b : Nat} {writable : Bool} (v : Reg64)
    (p : s.place by_ off = .reg o w b writable) (h : (Place.reg o w b writable).fits off width = true) :
    s.barWrite by_ off width v = if writable then s.writeAt by_ off o w b width v else s := by
  simp [State.barWrite, p, h]

/-- Log entries and CXL registers take no plain write. -/
theorem State.barWrite_log {s : State} {by_ off width i b : Nat} {p : Place} (v : Reg64)
    (e : s.place by_ off = p) (h : p.fits off width = true)
    (k : p = .plog i b ∨ (∃ n, p = .alog n i b) ∨ p = .cxl) : s.barWrite by_ off width v = s := by
  rcases k with rfl | ⟨n, rfl⟩ | rfl <;> simp [State.barWrite, e, h]

/-- A 32-bit register admits only its own width. -/
theorem Place.width_of_fits_word {o b off width : Nat} {writable : Bool}
    (h : (Place.reg o 4 b writable).fits off width = true) : width = 4 := by
  simp only [Place.fits, Bool.and_eq_true, Bool.or_eq_true, beq_iff_eq, decide_eq_true_eq] at h
  omega

/-! ### A write of a register by halves (R9) -/

theorem State.writeAt_word (s : State) (by_ off o byte n : Nat) (v : Reg64) :
    s.writeAt by_ off o 4 byte n v = s.writeReg by_ off o v := rfl

theorem State.writeAt_whole (s : State) (by_ off o byte : Nat) (v : Reg64) :
    s.writeAt by_ off o 8 byte 8 v = (s.wrote64 o (writeOnly o) v).writeReg by_ (off - byte) o v := rfl

theorem State.writeAt_low (s : State) (by_ off o : Nat) (v : Reg64) :
    s.writeAt by_ off o 8 0 4 v = { s with
      lowHalf := sins s.lowHalf o (v.setWidth 32)
      woLow := if writeOnly o then sput 0 s.woLow o (v.setWidth 32) else s.woLow } := rfl

/-- The high half takes effect with the low half that waits, or with the register's own. -/
theorem State.writeAt_high {s : State} {o : Nat} {low : Reg32} (by_ off : Nat) (v : Reg64)
    (h : sfind s.lowHalf o = some low ∨ (sfind s.lowHalf o = none ∧ low = s.lowOf o)) :
    s.writeAt by_ off o 8 4 4 v =
      (s.dropLow o).writeReg by_ (off - 4) o ((v.setWidth 32 : Reg32) ++ low) := by
  have e : (sfind s.lowHalf o).getD (s.lowOf o) = low := by
    rcases h with h | ⟨h, rfl⟩ <;> simp [h]
  rw [← e]
  rfl

/-! ### Fields of a written value -/

theorem fld_setWidth_word (v : Reg64) {lo n : Nat} (h : lo + n ≤ 32) :
    fld (v.setWidth 32 : Reg32) lo n = fld v lo n := by
  refine Nat.eq_of_testBit_eq fun i => ?_
  simp only [fld, BitVec.toNat_setWidth, Nat.testBit_mod_two_pow, Nat.testBit_shiftRight]
  by_cases hi : i < n
  · simp [hi, show lo + i < 32 by omega]
  · simp [hi]

theorem fld_lt {w : Nat} (v : BitVec w) (lo n : Nat) : fld v lo n < 2 ^ n := Nat.mod_lt _ (Nat.two_pow_pos n)

theorem kept_lt (old v : Reg32) (lo n a b : Nat) : kept old v lo n a b < 2 ^ n := by
  unfold kept
  split <;> exact fld_lt _ _ _

/-- A field that is kept or taken fits its place. -/
theorem at_kept (old v : Reg32) (lo n a b : Nat) : at_ lo n (kept old v lo n a b) = 2 ^ lo * kept old v lo n a b := by
  rw [at_, Nat.mod_eq_of_lt (kept_lt ..), Nat.shiftLeft_eq, Nat.mul_comm]

/-- A field keeps its value when the written one is out of range (R6). -/
theorem kept_setWidth_word (old : Reg32) (v : Reg64) {lo n : Nat} (a b : Nat) (h : lo + n ≤ 32) :
    kept old (v.setWidth 32) lo n a b =
      if a ≤ fld v lo n ∧ fld v lo n ≤ b then fld v lo n else fld old lo n := by
  rw [kept, fld_setWidth_word v h]

/-! ### The registers that O57 names -/

/-- DET_MASK (R341). -/
theorem State.writeReg_detMask (s : State) (by_ off : Nat) (v : Reg64) :
    s.writeReg by_ off 0x100008 v = { s with det := { s.det with mask := v } } := rfl

/-- DRM_CTRL: three fields, each with its range, and reserved bits above them (R126). -/
theorem State.writeReg_drmCtrl (s : State) (by_ off : Nat) (v : Reg64) :
    s.writeReg by_ off 0xC0000 v = { s with drm := { s.drm with ctrl := BitVec.ofNat 32 (
      (if 1 ≤ fld v 0 4 ∧ fld v 0 4 ≤ 8 then fld v 0 4 else fld s.drm.ctrl 0 4) +
      16 * (if fld v 4 4 ≤ 8 then fld v 4 4 else fld s.drm.ctrl 4 4) +
      256 * (if 1 ≤ fld v 8 8 then fld v 8 8 else fld s.drm.ctrl 8 8)) } } := by
  have hfit : fld v 8 8 ≤ 255 := Nat.le_of_lt_succ (fld_lt v 8 8)
  change s.writeDrm 0 (v.setWidth 32) = _
  simp only [State.writeDrm, ↓reduceIte, at_kept]
  simp [kept_setWidth_word, hfit]

/-- INT_SCRUB: one field, and reserved bits above it (R306). -/
theorem State.writeReg_intScrub (s : State) (by_ off : Nat) (v : Reg64) :
    s.writeReg by_ off 0xE0008 v = { s with int := { s.int with scrub := BitVec.ofNat 32 (
      if 1 ≤ fld v 0 8 ∧ fld v 0 8 ≤ 168 then fld v 0 8 else fld s.int.scrub 0 8) } } := by
  change s.writeInt 8 (v.setWidth 32) = _
  simp [State.writeInt, kept_setWidth_word]

/-! ### REGISTER_WRITE -/

/-- A write through a BAR that does not decode is an unsupported request. -/
theorem exec_registerWrite_of_not_barOn {s : State} {t by_ off : Nat} (width : Nat) (v : Reg64) (hby : by_ < 64)
    (hoff : off < 2 ^ 32) (hbar : (s.start t).barOn by_ = false) :
    exec (.registerWrite t by_ off width v) s = .next { s.start t with out := [.unsupported off] } := by
  change execRegisterWrite t by_ off width v s = _
  rw [execRegisterWrite, if_neg (Nat.not_le.2 hoff), if_neg (Nat.not_le.2 hby), State.viaBar_of_not_barOn hbar]
  rfl

/-- A write through a BAR that decodes reaches the place at its offset, unless recovery state hides it. -/
theorem exec_registerWrite_of_barOn {s : State} {t by_ off : Nat} (width : Nat) (v : Reg64) (hby : by_ < 64)
    (hoff : off < 2 ^ 32) (hbar : (s.start t).barOn by_ = true) (hrec : by_ ≠ 0 ∨ s.sec.recovery = false) :
    exec (.registerWrite t by_ off width v) s = .next ((s.start t).barWrite by_ off width v) := by
  change execRegisterWrite t by_ off width v s = _
  rw [execRegisterWrite, if_neg (Nat.not_le.2 hoff), if_neg (Nat.not_le.2 hby),
    State.viaBar_of_barOn hbar (by simpa using hrec)]

/-- A write through an allotment number that does not exist does nothing. -/
theorem exec_registerWrite_of_no_allotment (s : State) (t width : Nat) {by_ off : Nat} (v : Reg64) (hby : 64 ≤ by_)
    (hoff : off < 2 ^ 32) : exec (.registerWrite t by_ off width v) s = .next (s.start t) := by
  change execRegisterWrite t by_ off width v s = _
  rw [execRegisterWrite, if_neg (Nat.not_le.2 hoff), if_pos hby]

/-- The configuration word of a function that does not serve yet is left as it is. -/
theorem exec_registerWrite_config_of_not_served {s : State} {t k : Nat} (width : Nat) (v : Reg64)
    (hk : (s.start t).served k = false ∨ ((s.start t).ld k).crs = true) (h : k < 128) :
    exec (.registerWrite t 0 (2 ^ 32 + k) width v) s = .next (s.start t) := by
  change execRegisterWrite t 0 (2 ^ 32 + k) width v s = _
  rw [execRegisterWrite, if_pos (Nat.le_add_right ..), if_pos (Nat.add_lt_add_left h _), Nat.add_sub_cancel_left,
    State.configWrite, State.config_of_not_served hk]

/-- A write of a register's own width at its offset of management BAR0 reaches it. -/
theorem exec_registerWrite_of_managed {s : State} (hs : s.managed) (t : Nat) {off width : Nat} (v : Reg64)
    (hoff : off < 2 ^ 32) (p : (s.start t).place 0 off = .reg off width 0 true)
    (fit : (Place.reg off width 0 true).fits off width = true) :
    exec (.registerWrite t 0 off width v) s = .next ((s.start t).writeAt 0 off off width 0 width v) := by
  obtain ⟨hbar, hrec⟩ := hs
  rw [exec_registerWrite_of_barOn width v (by decide) hoff (by simpa using hbar) (.inr hrec),
    State.barWrite_reg v p fit, if_pos rfl]

/-- Settles O57: a write takes its way through the BAR, then by its place, then by its half. -/
theorem registerWrites : Obligations.RegisterWrites := by
  rintro s _ t off width v rfl
  refine ⟨fun by_ => exec_registerWrite_of_no_allotment s t width v,
    fun by_ => exec_registerWrite_of_not_barOn width v,
    fun k => exec_registerWrite_config_of_not_served width v, ?_, fun hs => ⟨?_, ?_, ?_⟩⟩
  · rintro by_ p hby hoff hbar hrec hp
    rw [exec_registerWrite_of_barOn width v hby hoff hbar hrec]
    refine ⟨fun h => ?_, fun fit => ⟨?_, ?_, ?_, ?_, ?_, ?_⟩⟩
    · rw [State.barWrite_unfit v (hp ▸ h), State.regErr]
    · rintro o w b rfl
      rw [State.barWrite_reg v hp.symm fit]
      rfl
    · intro i b k
      rw [State.barWrite_log v hp.symm fit k]
    · rintro o b rfl
      obtain rfl := Place.width_of_fits_word fit
      rw [State.barWrite_reg v hp.symm fit, if_pos rfl, State.writeAt_word]
    · rintro o b rfl rfl
      rw [State.barWrite_reg v hp.symm fit, if_pos rfl, State.writeAt_whole]
      rfl
    · rintro o rfl rfl
      rw [State.barWrite_reg v hp.symm fit, if_pos rfl, State.writeAt_low]
    · rintro o low rfl rfl h
      rw [State.barWrite_reg v hp.symm fit, if_pos rfl, State.writeAt_high by_ off v h]
      rfl
  · rw [exec_registerWrite_of_managed hs t v (by decide) rfl rfl, State.writeAt_whole, State.writeReg_detMask]
    rfl
  · rw [exec_registerWrite_of_managed hs t v (by decide) rfl rfl, State.writeAt_word, State.writeReg_drmCtrl]
  · rw [exec_registerWrite_of_managed hs t v (by decide) rfl rfl, State.writeAt_word, State.writeReg_intScrub]

end Sys2Proof.Machine

/-! SUPPORT. A step on a queue that is not empty: O1. -/

namespace Sys2Proof.Machine

open Sys2Proof

/-- Settles O1: the branch of `step` for a queue that is not empty. -/
theorem stepRunsTheFrontCommand : Obligations.StepRunsTheFrontCommand := by
  intro c rest s front
  simp only [step, front]

end Sys2Proof.Machine

/-! SUPPORT. Fills, shadow copies, the merge buffer's own events and write-backs (R19, R26, R90, R131, R166, R167), and
what follows: O49. -/

namespace Sys2Proof.Machine

open Sys2Proof

/-! ### The merge buffer -/

theorem State.mergeReady_of_none {s : State} {f span : Nat} (x : Extent) (env : ReadEnv) (h : s.mergeAt f span = none) :
    s.mergeReady x f span env = s := by
  simp [State.mergeReady, h]

theorem State.mergeReady_of_some {s : State} {f span : Nat} {m : MergeEntry} (x : Extent) (env : ReadEnv)
    (h : s.mergeAt f span = some m) :
    s.mergeReady x f span env = State.setMerge { (s.mergeLoad x m env).2 with
      dir := { (s.mergeLoad x m env).2.dir with clock := (s.mergeLoad x m env).2.dir.clock + 1 } }
      { (s.mergeLoad x m env).1 with used := (s.mergeLoad x m env).2.dir.clock + 1 } := by
  simp [State.mergeReady, h]

/-- A span that is loaded, or not in the buffer, is not read in (R166). -/
theorem exec_mergeBufferFill_of_loaded {s : State} {t n span : Nat} {env : ReadEnv}
    (h : ∀ m, (s.startEnv t env).mergeAt n span = some m → m.loaded = true) :
    exec (.mergeBufferFill t n span env) s = .next (s.startEnv t env) := by
  change execMergeBufferFill t n span env s = _
  cases hm : (s.startEnv t env).mergeAt n span with
  | none => simp only [execMergeBufferFill, State.mergeReady_of_none _ _ hm, ite_self]; split <;> rfl
  | some m => simp only [execMergeBufferFill, hm, Option.any_some, h m hm, if_true]; split <;> rfl

theorem exec_mergeBufferFill_of_not_loaded {s : State} {t n span : Nat} {env : ReadEnv} {m : MergeEntry} {f : Frame}
    {x : Extent} (h : (s.startEnv t env).mergeAt n span = some m) (loaded : m.loaded = false)
    (hf : (s.startEnv t env).frame n = some f) (hx : (s.startEnv t env).extent f.ext = some x) :
    exec (.mergeBufferFill t n span env) s = .next ((s.startEnv t env).mergeReady x n span env) := by
  change execMergeBufferFill t n span env s = _
  simp [execMergeBufferFill, h, loaded, hf, hx]

/-- MERGE_FLUSH_AGE writes an entry that is dirty and has reached FLUSH_AGE (R167). -/
theorem exec_mergeFlushAge_of_some {s : State} {t n span : Nat} {env : ReadEnv} {m : MergeEntry}
    (h : (s.startEnv t env).mergeAt n span = some m) :
    exec (.mergeFlushAge t n span env) s = .next (
      if m.dirty = true ∧ m.since + 1000 * fld (s.startEnv t env).cod.ctrl 0 16 ≤ (s.startEnv t env).now then
        (s.startEnv t env).flushEntry m env else s.startEnv t env) := by
  change execMergeFlushAge t n span env s = _
  simp only [execMergeFlushAge, h]

theorem exec_mergeFlushAge_of_none {s : State} {t n span : Nat} {env : ReadEnv}
    (h : (s.startEnv t env).mergeAt n span = none) :
    exec (.mergeFlushAge t n span env) s = .next (s.startEnv t env) := by
  change execMergeFlushAge t n span env s = _
  simp only [execMergeFlushAge, h]

/-! ### The end of a fill -/

/-- A page of an extent without versions is RESIDENT when its fill ends, or PINNED where PIN asked for it (R19, R26). -/
theorem State.finishFill_of_unversioned {s : State} {n : Nat} {f : Frame} {x : Extent} (lost : List Nat)
    (hf : s.frame n = some f) (filling : f.st = 3) (hx : s.extent f.ext = some x) (plain : x.versioned = false) :
    s.finishFill n lost = s.setFrame n { f with
      lines := fillLines s.now f.lines (s.source f.ext f.page f.fillVer) lost
      lens := match s.source f.ext f.page f.fillVer with | some i => i.lens | none => f.lens
      st := if f.pinned then 2 else 1
      dirty := f.dirty || s.dir.merge.any (fun m => m.frame == n && m.dirty)
      fillEmpty := false, decoded := [], cleaning := none } := by
  simp [State.finishFill, hf, filling, hx, plain] <;> rfl

/-- Where no request waits for the thing, nor behind an earlier one, nothing goes on. -/
theorem State.wake_of_none {s : State} {w : Wait} {on : Nat} (env : ReadEnv)
    (h : ∀ r ∈ s.waiting, r.wait ≠ .order ∧ (r.wait = w → r.on ≠ on)) : s.wake w on env = s := by
  have same : s.waiting.map (fun r => if r.wait == w && r.on == on then { r with wait := .order, on := 0 } else r)
      = s.waiting := by
    refine (List.map_congr_left fun r hr => ?_).trans (List.map_id _)
    rw [if_neg (by simpa using (h r hr).2), id]
  unfold State.wake
  rw [same]
  exact s.drainOrder_unheld env fun r hr => (h r hr).1

theorem exec_fillComplete_of_some {s : State} {t ext page ver n : Nat} {env : ReadEnv} {f : Frame} (lost : List Nat)
    (h : ((s.startEnv t env).framesOf ext page).find? (fun f => f.2.st == 3 && f.2.fillVer == ver) = some (n, f)) :
    exec (.fillComplete t ext page ver lost env) s =
      .next (((s.startEnv t env).finishFill n lost).wake .fill n env) := by
  change execFillComplete t ext page ver lost env s = _
  simp only [execFillComplete, h]

theorem exec_fillComplete_of_none {s : State} {t ext page ver : Nat} {env : ReadEnv} (lost : List Nat)
    (h : ((s.startEnv t env).framesOf ext page).find? (fun f => f.2.st == 3 && f.2.fillVer == ver) = none)
    (idle : ∀ r ∈ (s.startEnv t env).waiting, r.wait = .fill → r.ext ≠ ext) :
    exec (.fillComplete t ext page ver lost env) s = .next (s.startEnv t env) := by
  have unwaited : (s.startEnv t env).waiting.filter (fun r => r.wait == .fill && r.ext == ext) = [] := by
    simpa [List.filter_eq_nil_iff] using idle
  change execFillComplete t ext page ver lost env s = _
  simp only [execFillComplete, h, unwaited]
  rfl

/-! ### Shadow copies -/

theorem exec_shadowCopy_of_shadow {s : State} {t n : Nat} {env : ReadEnv} {f : Frame} (k : Nat)
    (hf : (s.startEnv t env).frame n = some f) (shadow : f.st = 5) :
    exec (.shadowCopy t n k env) s = .next ((s.startEnv t env).copyShadow n
      (((List.range 1024).filter fun l => !f.copied.contains l).take k) env) := by
  change execShadowCopy t n k env s = _
  simp only [execShadowCopy, hf, shadow, if_true]

theorem exec_shadowCopy_of_not_shadow {s : State} {t n : Nat} {env : ReadEnv} (k : Nat)
    (h : ∀ f, (s.startEnv t env).frame n = some f → f.st ≠ 5) :
    exec (.shadowCopy t n k env) s = .next (s.startEnv t env) := by
  change execShadowCopy t n k env s = _
  simp only [execShadowCopy]
  split
  next f hf => exact if_neg (h f hf)
  next => rfl

/-! ### Write-backs -/

theorem exec_writeBack_of_clean {s : State} {t n : Nat} {env : ReadEnv}
    (h : ∀ f, (s.startEnv t env).frame n = some f → f.st ≠ 1 ∨ f.dirty = false) :
    exec (.writeBack t n env) s = .next (s.startEnv t env) := by
  change execWriteBack t n env s = _
  simp only [execWriteBack]
  split
  next f hf => exact if_neg (by simpa [imp_iff_not_or] using h f hf)
  next => rfl

/-- A dirty RESIDENT frame's image is issued as a program, and the frame is CLEANING for it (R79, R131). -/
theorem exec_writeBack_of_dirty {s : State} {t n : Nat} {env : ReadEnv} {f g : Frame}
    (hf : (s.startEnv t env).frame n = some f) (resident : f.st = 1) (dirty : f.dirty = true)
    (hg : ((s.startEnv t env).flushFrame n env).frame n = some g) :
    exec (.writeBack t n env) s = .next (
      ((((s.startEnv t env).flushFrame n env).imageRead n g env).2.program
        (((s.startEnv t env).flushFrame n env).imageRead n g env).1 (some n) true none).modFrame n fun h =>
          { h with st := 4
                   cleaning := some (((s.startEnv t env).flushFrame n env).imageRead n g env).2.fls.nextProg }) := by
  change execWriteBack t n env s = _
  simp only [execWriteBack, hf, resident, dirty, and_self, if_true, hg]

theorem State.modFrame_of_some {s : State} {n : Nat} {f : Frame} (g : Frame → Frame) (h : s.frame n = some f) :
    s.modFrame n g = s.setFrame n (g f) := by
  simp only [State.modFrame, h]

/-- Settles O49: each event by what it finds, an entry, a FILLING frame, a SHADOW frame or a dirty one, and by none. -/
theorem fillRows : Obligations.FillRows := by
  rintro s _ t n span env rfl
  refine ⟨⟨?_, ?_, ?_, ?_, ?_⟩, ?_, ?_, ?_, ?_, ?_, ?_⟩
  · intro m hm loaded
    exact exec_mergeBufferFill_of_loaded fun k hk => by rwa [Option.some.inj (hk.symm.trans hm)]
  · intro hm
    exact ⟨exec_mergeBufferFill_of_loaded (by simp [hm]), exec_mergeFlushAge_of_none hm⟩
  · rintro m f x _ hm loaded hf hx rfl
    rw [exec_mergeBufferFill_of_not_loaded hm loaded hf hx, State.mergeReady_of_some x env hm]
  · intro m hm young
    rw [exec_mergeFlushAge_of_some hm, if_neg]
    rintro ⟨dirty, old⟩
    rcases young with clean | young
    · simp [clean] at dirty
    · exact Nat.not_le.2 young old
  · intro m hm dirty old
    rw [exec_mergeFlushAge_of_some hm, if_pos ⟨dirty, old⟩]
  · rintro ext page ver lost f found filling hf x _ hx plain rfl
    rw [exec_fillComplete_of_some lost found, State.finishFill_of_unversioned lost hf filling hx plain]
    exact ⟨rfl, fun idle => congrArg Host.Outcome.next (State.wake_of_none env idle)⟩
  · intro ext page ver lost
    exact exec_fillComplete_of_none lost
  · exact fun k => exec_shadowCopy_of_not_shadow k
  · exact fun k f => exec_shadowCopy_of_shadow k
  · exact exec_writeBack_of_clean
  · rintro f g h _ _ x hf resident dirty w r rfl hg rfl rfl rfl rfl hh number
    rw [exec_writeBack_of_dirty hf resident dirty hg, number]
    exact congrArg _ (State.modFrame_of_some _ hh)

end Sys2Proof.Machine

/-! SUPPORT. How a host request enters: its translation, the checks on the way, stage 3 or a place among the ties (R11,
R70 to R75, R224, R301, R326 to R329), and what follows: O52. -/

namespace Sys2Proof.Machine

open Sys2Proof

/-! ### A record of the replay log -/

/-- A record changes the determinism block alone (R334, R335). -/
theorem State.record_eq (s : State) (type flags allot queue : Nat) (stamp : Count) (detail : Nat) (pkt : Packet)
    (units n : Nat) : ∃ d, s.record type flags allot queue stamp detail pkt units n = { s with det := d } := by
  unfold State.record
  extract_lets len pad off past
  split
  · exact ⟨s.det, rfl⟩
  split
  · exact ⟨_, rfl⟩
  split
  · exact ⟨_, rfl⟩
  · exact ⟨_, rfl⟩

theorem State.digestUpdate_eq (s : State) : ∃ d, s.digestUpdate = { s with det := d } := by
  unfold State.digestUpdate
  split
  · exact ⟨s.det, rfl⟩
  · obtain ⟨d, hd⟩ := State.record_eq { s with det := { s.det with digest := s.configDigest } } 7 0 0 0xFFFF s.now
      s.configDigest.toNat 0 1 0
    exact ⟨d, hd⟩

/-! ### A stamped write and its extent's binding (R156, R175) -/

section StampWrite

variable {s : State} {e : Nat} {x : Extent} {stamp c : Count} {k : Nat}

theorem Extent.with_written_ne (first : x.written = none) : { x with written := some stamp } ≠ x := fun h => by
  simpa [first] using congrArg Extent.written h

theorem State.stampWrite_of_first (hx : s.extent e = some x) (free : x.rebound = none) (first : x.written = none) :
    s.stampWrite e stamp = s.setExtent e { x with written := some stamp } := by
  simp only [State.stampWrite, hx, first, Option.isNone_none, if_true]
  split
  next bound => simp [free] at bound
  next => exact if_neg (Extent.with_written_ne first)

theorem State.stampWrite_of_written (hx : s.extent e = some x) (free : x.rebound = none) (later : x.written ≠ none) :
    s.stampWrite e stamp = s := by
  simp [State.stampWrite, hx, free, later]

theorem State.stampWrite_of_void (hx : s.extent e = some x) (first : x.written = none) (bound : x.rebound = some (c, k))
    (h : stamp ≤ c) : s.stampWrite e stamp = State.digestUpdate (State.codBit (s.setExtent e { x with
      written := some stamp, slot := k, rebound := none }) 2) := by
  simp [State.stampWrite, hx, first, bound, h]

theorem State.stampWrite_of_bound (hx : s.extent e = some x) (first : x.written = none)
    (bound : x.rebound = some (c, k)) (h : c < stamp) :
    s.stampWrite e stamp = s.setExtent e { x with written := some stamp } := by
  simp only [State.stampWrite, hx, first, Option.isNone_none, if_true]
  split
  next d j same =>
    obtain ⟨rfl, rfl⟩ : c = d ∧ k = j := by simpa [bound] using same
    rw [if_neg (Nat.not_le.2 h), if_neg (Extent.with_written_ne first)]
  next free => simp [bound] at free

/-- What a stamped write leaves: what governs this count, and the number of the next command. -/
theorem State.stampWrite_keeps (s : State) (e : Nat) (stamp : Count) :
    (s.stampWrite e stamp).old = s.old ∧ (s.stampWrite e stamp).nextCmd = s.nextCmd := by
  have void (v : State) : v.digestUpdate.old = v.old ∧ v.digestUpdate.nextCmd = v.nextCmd := by
    obtain ⟨d, hd⟩ := v.digestUpdate_eq
    simp [hd]
  unfold State.stampWrite
  split
  · exact ⟨rfl, rfl⟩
  extract_lets y
  split
  · split
    · exact void _
    · split <;> exact ⟨rfl, rfl⟩
  · split <;> exact ⟨rfl, rfl⟩

end StampWrite

/-! ### Behind translation (R71, R220, R326) -/

theorem State.arrive_of_free {s : State} (r : HostReq) (x : Extent) (env : ReadEnv) (free : bitOf s.old.det 0 = false)
    (none_ : s.ties = []) : s.arrive r x env = s.stage3 r x env := by
  simp [State.arrive, State.tied, free, none_]

theorem State.arrive_of_tied {s : State} (r : HostReq) (x : Extent) (env : ReadEnv)
    (h : bitOf s.old.det 0 = true ∨ s.ties ≠ []) : s.arrive r x env = { s with
      ties := insBy Tie.before ⟨r.stamp, r.allot, 4096 + r.lane, r.id, .host r, env, s.old⟩ s.ties } := by
  have tied : s.tied = true := by simpa [State.tied] using h
  simp only [State.arrive, tied, if_true]
  rfl

/-- A request that the checks of R71 refuse fails with their code. -/
theorem State.enter_of_refused {s : State} {r : HostReq} {l code e : Nat} (cls : Extent → Nat) (env : ReadEnv)
    (h : s.access r.allot l r.stamp r.write = (code, e, none)) :
    s.enter r l cls env = s.failReq { r with laddr := l, ext := e } code true false := by
  simp only [State.enter, h]

/-- A request that passes them goes on with its class, the versions and the set that its allotment sees, and what
governs this count. -/
theorem State.enter_of_passed {s v : State} {r : HostReq} {l code e k : Nat} {x : Extent} {cls : Extent → Nat}
    (env : ReadEnv) (h : s.access r.allot l r.stamp r.write = (code, e, some x)) (hk : k = cls x)
    (hv : v = if r.write then s.stampWrite e r.stamp else s) :
    s.enter r l cls env = v.arrive { r with
      laddr := l, ext := e, cls := k, ver := (v.verOf (v.viewsOf r.allot) e).getD noView, set := x.cmdSet r.allot e []
      tag := if x.composite then v.tagFor (v.viewsOf r.allot) x.desc else none
      kd := fld (sget 0 s.old.cls k) 0 2, pr := fld (sget 0 s.old.cls k) 4 3
      budget := fld (sget 0 s.old.budget (16 * r.allot + k)) 0 12
      ordered := bitOf s.old.det 0, after := s.nextCmd } x env := by
  have keeps : v.old = s.old ∧ v.nextCmd = s.nextCmd := by
    rw [hv]
    split
    · exact s.stampWrite_keeps e r.stamp
    · exact ⟨rfl, rfl⟩
  obtain ⟨old, next⟩ := keeps
  rw [← old, ← next, hv, hk]
  simp only [State.enter, h]
  rfl

/-! ### CXL.mem requests (R70, R71) -/

section CxlMem

variable {s : State} {port ld n : Nat} {r : Nat → Nat → HostReq} {env : ReadEnv}

/-- A logical device that no allotment names, or that is in D3hot, answers nothing. -/
theorem State.cxlMem_of_silent (h : s.boundAllot (ldKey port ld) = none ∨ (s.ld (ldKey port ld)).dstate = 3) :
    s.cxlMem port ld r env = s := by
  unfold State.cxlMem
  rcases h with h | h
  · simp only [h]
  · dsimp only
    split
    · rfl
    · exact if_pos h

/-- A request of an allotment that may not issue fails at check 1 of R71. -/
theorem State.cxlMem_of_barred {log : Bool} (hn : s.boundAllot (ldKey port ld) = some n)
    (on : (s.ld (ldKey port ld)).dstate ≠ 3) (h : s.newReq.2.barred n = some log) :
    s.cxlMem port ld r env = s.newReq.2.failReq (r s.nextReq n) 0x01 log false := by
  simp only [State.cxlMem, hn, if_neg on, h]
  rfl

theorem State.cxlMem_of_undecoded (hn : s.boundAllot (ldKey port ld) = some n) (on : (s.ld (ldKey port ld)).dstate ≠ 3)
    (pass : s.newReq.2.barred n = none) (h : s.newReq.2.decodeHpa (ldKey port ld) (r s.nextReq n).addr = none) :
    s.cxlMem port ld r env = s.newReq.2.failReq (r s.nextReq n) 0x02 true false := by
  simp only [State.cxlMem, hn, if_neg on, pass]
  simp only [State.newReq] at h ⊢
  simp only [h]

theorem State.cxlMem_of_decoded {i dpa : Nat} (hn : s.boundAllot (ldKey port ld) = some n)
    (on : (s.ld (ldKey port ld)).dstate ≠ 3) (pass : s.newReq.2.barred n = none)
    (h : s.newReq.2.decodeHpa (ldKey port ld) (r s.nextReq n).addr = some (i, dpa)) :
    s.cxlMem port ld r env =
      s.newReq.2.enter (r s.nextReq n) (dpa / 64 * 64) (fun x => s.newReq.2.loadClass n i x) env := by
  simp only [State.cxlMem, hn, if_neg on, pass]
  simp only [State.newReq] at h ⊢
  simp only [h]

end CxlMem

theorem exec_load (s : State) (t port ld addr : Nat) (env : ReadEnv) :
    exec (.load t port ld addr env) s = .next ((s.startEnv t env).cxlMem port ld
      (fun id n => .blank id 0 port n addr (s.startEnv t env).now 0 false) env) := rfl

theorem exec_store_of_whole (s : State) (t port ld addr : Nat) (data : Line) (poison : Bool) (env : ReadEnv) :
    exec (.store t port ld addr data (BitVec.allOnes 64) poison env) s = .next ((s.startEnv t env).cxlMem port ld
      (fun id n => .blank id 1 port n addr (s.startEnv t env).now data poison) env) := rfl

/-- A store of part of a line is a sub-line write (R301). -/
theorem exec_store_of_part {s : State} {t port ld n addr : Nat} {data : Line} {be : BitVec 64} {poison : Bool}
    {env : ReadEnv} (part : be ≠ BitVec.allOnes 64) (hn : (s.startEnv t env).boundAllot (ldKey port ld) = some n) :
    exec (.store t port ld addr data be poison env) s = .next ((s.startEnv t env).newReq.2.partialWrite
      (.blank (s.startEnv t env).nextReq 1 port n addr (s.startEnv t env).now data poison)) := by
  change execStore t port ld addr data be poison env s = _
  simp only [execStore, bne_iff_ne, ne_eq, part, not_false_eq_true, if_true, hn]
  rfl

/-! ### Peer requests (R72 to R75) -/

section PeerLine

variable {s : State} {port n kind off : Nat} {req : BitVec 16} {stamp : Count} {data : Line} {poison : Bool}
  {env : ReadEnv}

theorem State.peerLine_of_barred {log : Bool} (h : s.newReq.2.barred n = some log) :
    s.peerLine port n kind off req stamp data poison env =
      s.newReq.2.failReq (.blank s.nextReq kind port n off stamp data poison) 0x01 log false := by
  simp only [State.peerLine, h]
  rfl

theorem State.peerLine_of_no_window (pass : s.newReq.2.barred n = none) (h : s.newReq.2.windowAt n off stamp = none) :
    s.peerLine port n kind off req stamp data poison env =
      s.newReq.2.failReq (.blank s.nextReq kind port n off stamp data poison) 0x02 true false := by
  simp only [State.peerLine, pass, h]
  rfl

/-- A line through a window meets, in this order, what R75 has stopped, the window's requester and its rights. -/
theorem State.peerLine_of_window {k l : Nat} {v : Window} {r : HostReq} (pass : s.newReq.2.barred n = none)
    (h : s.newReq.2.windowAt n off stamp = some (k, v)) (hl : l = (v.to + (off - v.base)) / 64 * 64)
    (hr : r = .blank s.nextReq kind port n off stamp data poison) :
    s.peerLine port n kind off req stamp data poison env =
      if (s.newReq.2.allot n).dead k stamp then s.newReq.2.failReq { r with laddr := l } 0x03 true false
      else if bitOf v.ctrl 3 && fld v.ctrl 16 16 != req.toNat then
        s.newReq.2.failReq { r with laddr := l } 0x05 true false
      else if !bitOf v.ctrl (if kind = 2 then 1 else 2) then s.newReq.2.failReq { r with laddr := l } 0x01 true false
      else s.newReq.2.enter r l (fun _ => fld v.ctrl 4 4) env := by
  simp only [State.peerLine, pass, h, hl, hr]
  rfl

end PeerLine

theorem exec_peerRead_of_closed {s : State} {t port ld addr len : Nat} {req : BitVec 16} {env : ReadEnv}
    (h : (s.startEnv t env).barOpen (ldKey port ld) = none) :
    exec (.peerRead t port ld addr len req env) s = .next ((s.startEnv t env).emit (.unsupported len)) := by
  change execPeerRead t port ld addr len req env s = _
  simp only [execPeerRead, h]

theorem exec_peerWrite_of_closed {s : State} {t port ld addr len : Nat} {req : BitVec 16} {ds : List Line}
    {poison : Bool} {env : ReadEnv} (h : (s.startEnv t env).barOpen (ldKey port ld) = none) :
    exec (.peerWrite t port ld addr len req ds poison env) s =
      .next ((s.startEnv t env).emit (.unsupported len)) := by
  change execPeerWrite t port ld addr len req ds poison env s = _
  simp only [execPeerWrite, h]

/-- A peer write that does not cover whole lines is a sub-line write (R301). -/
theorem exec_peerWrite_of_part {s : State} {t port ld n addr len : Nat} {req : BitVec 16} {ds : List Line}
    {poison : Bool} {env : ReadEnv} (hn : (s.startEnv t env).barOpen (ldKey port ld) = some n)
    (part : addr % 64 ≠ 0 ∨ len % 64 ≠ 0 ∨ ds.length ≠ len / 64) :
    exec (.peerWrite t port ld addr len req ds poison env) s = .next ((s.startEnv t env).newReq.2.partialWrite
      (.blank (s.startEnv t env).nextReq 3 port n addr (s.startEnv t env).now 0 poison)) := by
  have refused : (addr % 64 != 0 || len % 64 != 0 || ds.length != len / 64) = true := by
    simpa [or_assoc] using part
  change execPeerWrite t port ld addr len req ds poison env s = _
  simp only [execPeerWrite, hn, refused, if_true]
  rfl

/-- An aligned peer read of 64 B is one line. -/
theorem exec_peerRead_line {s : State} {t port ld n addr : Nat} {req : BitVec 16} {env : ReadEnv}
    (hn : (s.startEnv t env).barOpen (ldKey port ld) = some n) (aligned : addr % 64 = 0) :
    exec (.peerRead t port ld addr 64 req env) s = .next
      ((s.startEnv t env).peerLine port n 2 addr req (s.startEnv t env).now 0 false env) := by
  have one : ceilDiv (addr + 64) 64 - addr / 64 = 1 := by
    rw [ceilDiv, if_neg (by decide)]
    omega
  have start : 64 * (addr / 64 + 0) = addr := by omega
  change execPeerRead t port ld addr 64 req env s = _
  simp only [execPeerRead, hn, one, List.range_one, List.foldl_cons, List.foldl_nil, start]

/-- An aligned peer write of one line is that line. -/
theorem exec_peerWrite_line {s : State} {t port ld n addr : Nat} {req : BitVec 16} {data : Line} {poison : Bool}
    {env : ReadEnv} (hn : (s.startEnv t env).barOpen (ldKey port ld) = some n) (aligned : addr % 64 = 0) :
    exec (.peerWrite t port ld addr 64 req [data] poison env) s = .next
      ((s.startEnv t env).peerLine port n 3 addr req (s.startEnv t env).now data poison env) := by
  change execPeerWrite t port ld addr 64 req [data] poison env s = _
  simp [execPeerWrite, hn, aligned]

/-! ### The obligation -/

/-- Settles O52: a load or whole store is one CXL.mem request and an aligned peer access of 64 B one line through a
window; each is followed through its checks. -/
theorem hostRequestsEnter : Obligations.HostRequestsEnter := by
  refine ⟨?_, ?_⟩
  · rintro s _ env t port ld n addr data poison _ rfl rfl
    refine ⟨?_, ?_, ?_, ?_, ?_, ?_⟩
    · intro silent
      rw [exec_load, exec_store_of_whole, State.cxlMem_of_silent silent, State.cxlMem_of_silent silent]
      exact ⟨rfl, rfl⟩
    · intro hn on r c which
      obtain ⟨rq, run, made, rfl, rfl, stamp⟩ : ∃ rq, exec c s = .next ((s.startEnv t env).cxlMem port ld rq env) ∧
          rq (s.startEnv t env).nextReq n = r ∧ r.allot = n ∧ r.addr = addr ∧ (s.startEnv t env).now = r.stamp := by
        rcases which with ⟨rfl, rfl⟩ | ⟨rfl, rfl⟩
        · exact ⟨_, exec_load s t port ld addr env, rfl, rfl, rfl, rfl⟩
        · exact ⟨_, exec_store_of_whole s t port ld addr data poison env, rfl, rfl, rfl, rfl⟩
      rw [run, stamp]
      refine ⟨fun log h => ?_, fun pass h => ?_, ?_⟩
      · rw [State.cxlMem_of_barred hn on h, made]
        rfl
      · rw [State.cxlMem_of_undecoded hn on pass (by rw [made]; exact h), made]
        rfl
      · rintro i dpa l pass h rfl
        rw [State.cxlMem_of_decoded hn on pass (by rw [made]; exact h), made]
        exact ⟨fun code e refused => congrArg _ (State.enter_of_refused _ env refused),
          fun code e x v k passed hk hv => congrArg _ (State.enter_of_passed env passed hk hv)⟩
    · intro be part hn
      exact exec_store_of_part part hn
    · intro req len ds closed
      exact ⟨exec_peerRead_of_closed closed, exec_peerWrite_of_closed closed⟩
    · intro req len ds hn part
      exact exec_peerWrite_of_part hn part
    · intro req hn aligned r c b which
      obtain ⟨kind, d, p, run, hr, hb⟩ : ∃ kind d p,
          exec c s = .next ((s.startEnv t env).peerLine port n kind addr req (s.startEnv t env).now d p env) ∧
          r = .blank (s.startEnv t env).nextReq kind port n addr (s.startEnv t env).now d p ∧
          b = if kind = 2 then 1 else 2 := by
        rcases which with ⟨rfl, rfl, rfl⟩ | ⟨rfl, rfl, rfl⟩
        · exact ⟨2, 0, false, exec_peerRead_line hn aligned, rfl, rfl⟩
        · exact ⟨3, data, poison, exec_peerWrite_line hn aligned, rfl, rfl⟩
      rw [run]
      refine ⟨fun log h => ?_, fun pass h => ?_, fun k v l pass h hl => ?_⟩
      · rw [State.peerLine_of_barred h, hr]
        rfl
      · rw [State.peerLine_of_no_window pass h, hr]
        rfl
      · rw [State.peerLine_of_window pass h hl hr, ← hb]
        refine ⟨fun dead => congrArg _ (if_pos dead), fun live stranger other => ?_, fun live known => ?_⟩
        · exact congrArg _ ((if_neg (Bool.eq_false_iff.1 live)).trans (if_pos (by simp [stranger, other])))
        · have own : (bitOf v.ctrl 3 && fld v.ctrl 16 16 != req.toNat) ≠ true := by
            rcases known with h | h <;> simp [h]
          have alive := Bool.eq_false_iff.1 live
          exact ⟨fun no => congrArg _ ((if_neg alive).trans ((if_neg own).trans (if_pos (by simp [no])))),
            fun yes => congrArg _ ((if_neg alive).trans ((if_neg own).trans (if_neg (by simp [yes]))))⟩
  · intro s r x e stamp env
    exact ⟨State.arrive_of_free r x env, State.arrive_of_tied r x env,
      fun hx free => ⟨State.stampWrite_of_first hx free, State.stampWrite_of_written hx free⟩,
      fun c k hx first bound => ⟨State.stampWrite_of_void hx first bound, State.stampWrite_of_bound hx first bound⟩⟩

end Sys2Proof.Machine

/-! SUPPORT. How a host request waits and is served: the Gate, the meter, its class, stage 4 and the responses (R14 to
R20, R71, R112, R113, R143, R223, R227, R295, R366), and what follows: O53. -/

namespace Sys2Proof.Machine

open Sys2Proof

/-! ### Stage 3 (R15, R227) -/

section Stage3

variable {s : State} {r : HostReq}

theorem State.stage3_of_gate (x : Extent) (env : ReadEnv) (h : ∃ q ∈ s.waiting, q.wait = .gate ∧ q.lane = r.lane) :
    s.stage3 r x env = s.backPressure r :=
  if_pos (by simpa using h)

theorem State.stage3_of_no_gate (x : Extent) (env : ReadEnv) (h : ∀ q ∈ s.waiting, q.wait = .gate → q.lane ≠ r.lane) :
    s.stage3 r x env = s.decide3 r x env :=
  if_neg (by simpa using h)

/-- An exempt request passes the meter, and what it is charged with is due all the same (R227). -/
theorem State.decide3_of_exempt {x : Extent} (env : ReadEnv) (h : s.exempt r (x.tier == 0) = true) :
    s.decide3 r x env = ((s.classify r).2.chargeMeter x.codec).serve (s.classify r).1 env :=
  if_pos h

/-- What the meter decides of a request that is not exempt, `r` as the decision on its budget leaves it. -/
def State.atMeter (s : State) (r : HostReq) (x : Extent) (env : ReadEnv) : State :=
  if s.meterHeld || decide (s.col.meter ≤ 0) then
    if 256 ≤ s.laneHeld r.lane then s.backPressure r else s.waitFor { r with metered := true } .meter 0
  else ((s.classify r).2.chargeMeter x.codec).serve (s.classify r).1 env

/-- A GUARANTEED request to a PINNED extent beyond its budget is demoted before the meter (R223). -/
theorem State.decide3_of_beyond {x : Extent} (env : ReadEnv) (h : s.exempt r (x.tier == 0) = false) (kd : r.kd = 2)
    (pinned : x.tier = 0) (first : r.demoted = false) :
    s.decide3 r x env = s.countDemoted.atMeter { r with demoted := true, eff := 0 } x env := by
  have beyond : (r.kd == 2 && x.tier == 0 && !r.demoted) = true := by simp [kd, pinned, first]
  simp only [State.decide3, State.atMeter, h, beyond, if_true, Bool.false_eq_true, if_false]

theorem State.decide3_of_within {x : Extent} (env : ReadEnv) (h : s.exempt r (x.tier == 0) = false)
    (plain : r.kd ≠ 2 ∨ x.tier ≠ 0 ∨ r.demoted = true) : s.decide3 r x env = s.atMeter r x env := by
  have within : (r.kd == 2 && x.tier == 0 && !r.demoted) = false := by
    rcases plain with p | p | p <;> simp [p]
  simp only [State.decide3, State.atMeter, h, within, Bool.false_eq_true, if_false]

theorem State.atMeter_of_held (x : Extent) (env : ReadEnv) (h : s.meterHeld = true ∨ s.col.meter ≤ 0) :
    s.atMeter r x env =
      if 256 ≤ s.laneHeld r.lane then s.backPressure r else s.waitFor { r with metered := true } .meter 0 :=
  if_pos (by simpa using h)

theorem State.atMeter_of_free (x : Extent) (env : ReadEnv) (h : s.meterHeld = false) (up : 0 < s.col.meter) :
    s.atMeter r x env = ((s.classify r).2.chargeMeter x.codec).serve (s.classify r).1 env :=
  if_neg (by simpa [h] using up)

end Stage3

/-! ### Classes and budgets (R223) -/

section Classes

variable {s : State} {r : HostReq}

theorem State.exempt_iff (p : Bool) :
    s.exempt r p = true ↔ r.kd = 2 ∧ p = true ∧ s.lsCount (16 * r.allot + r.cls) < r.budget := by
  simp [State.exempt, and_assoc]

theorem State.classify_of_unbudgeted (h : r.kd = 0 ∨ r.kd = 3) :
    s.classify r = ({ r with eff := 0, demoted := false, inBudget := false }, s) :=
  if_pos h

theorem State.classify_of_room (kd : r.kd = 1 ∨ r.kd = 2) (first : r.demoted = false)
    (room : s.lsCount (16 * r.allot + r.cls) < r.budget) :
    s.classify r = ({ r with eff := r.pr, demoted := false, inBudget := true },
      s.setLs (16 * r.allot + r.cls) (s.lsCount (16 * r.allot + r.cls) + 1)) := by
  have budgeted : ¬(r.kd = 0 ∨ r.kd = 3) := by omega
  simp [State.classify, budgeted, first, room]

theorem State.classify_of_beyond (kd : r.kd = 1 ∨ r.kd = 2) (first : r.demoted = false)
    (full : r.budget ≤ s.lsCount (16 * r.allot + r.cls)) :
    s.classify r = ({ r with eff := 0, demoted := true, inBudget := false }, s.countDemoted) := by
  have budgeted : ¬(r.kd = 0 ∨ r.kd = 3) := by omega
  simp [State.classify, budgeted, first, Nat.not_lt.2 full]

end Classes

/-! ### Stage 4 (R14, R20, R71, R104, R143) -/

section Serve

variable {s : State} {r : HostReq} {x : Extent} {env : ReadEnv}

theorem State.serve_of_no_extent (h : s.extent r.ext = none) : s.serve r env = s.failReq r 0x03 true false := by
  simp only [State.serve, h]

theorem State.serve_of_moved {e : Nat} {c : Count} (hx : s.extent r.ext = some x) (awake : s.ep.exiting = false)
    (moving : x.moving = some (e, c)) (h : c ≤ r.stamp) : s.serve r env = s.waitFor r .move r.ext := by
  simp [State.serve, hx, awake, moving, h]

/-- A request that nothing holds before the directory stage meets, in this order, a lock of a snapshot, earlier requests
on its line, and its service. -/
theorem State.serve_of_settled (hx : s.extent r.ext = some x) (awake : s.ep.exiting = false) (still : x.moving = none)
    (seen : x.sharing = 0 ∨ r.ver ≠ noView) : s.serve r env =
      if r.write && !r.acked && x.lockedAt (r.laddr - x.base) r.stamp then s.failReq r 0x08 true false
      else if s.blocked r then s.holdBack r x
      else if r.write then s.serveWrite r x env
      else if s.tam.pair = 4 then
        let p := s.tamRequest (s.message 0x10 r.cls s.partnerId 0 r.laddr [r.ver, r.allot]) r.ext
          ((r.laddr - x.base) / pageBytes) none
        p.2.waitFor r .remote p.1
      else if s.filterFull r x then s.waitFilter r
      else
        let v := if s.tracks r x then s.track (s.ldOf r.allot) (r.laddr / 64) else s
        if x.composite then v.serveTile r x env else v.serveRead r x env := by
  have viewed : (x.sharing != 0 && r.ver == noView) = false := by
    rcases seen with h | h <;> simp [h]
  simp [State.serve, hx, awake, still, viewed]

/-- The lock of a snapshot refuses no read, no write that is completed already, and none outside its range (R143). -/
theorem HostReq.not_refused
    (open_ : r.write = false ∨ r.acked = true ∨ x.lockedAt (r.laddr - x.base) r.stamp = false) :
    ¬(r.write && !r.acked && x.lockedAt (r.laddr - x.base) r.stamp) = true := by
  rcases open_ with h | h | h <;> simp [h]

end Serve

/-! ### Responses (R16 to R18, R71) -/

section Responses

variable {s : State} {r : HostReq}

theorem State.finishRead_of_ok (v : Line) {env : ReadEnv} (quiet : env.parity = []) :
    s.finishRead r (.ok v) env =
      State.respond (s.hashAdd r.allot r.kind false r.laddr v r.stamp) r (.readData r.id false [v] r.devLoad) := by
  simp [State.finishRead, State.readDone, quiet]

theorem State.failReq_of_write (code : Nat) (h : r.write = true) :
    s.failReq r code false false = s.respond r (.writeDone r.id r.devLoad) := by
  simp [State.failReq, h]

theorem State.failReq_of_read (code : Nat) (h : r.write = false) :
    s.failReq r code false false = s.respond r (.readData r.id true [0] r.devLoad) := by
  simp [State.failReq, h]

/-- A write that no wipe, lock or partner holds back is performed, and completed or refused (R17). -/
theorem State.serveWrite_of_plain {x : Extent} (env : ReadEnv)
    (clean : s.wipeFrames r.ext x ((r.laddr - x.base) / 64) = []) (open_ : x.locks = []) (alone : s.onePlan = false)
    (first : r.acked = false) : s.serveWrite r x env =
      if (s.performStore r x env).1 then (s.performStore r x env).2.writeDone r
      else (s.performStore r x env).2.storeFails r x := by
  simp [State.serveWrite, State.storeEnds, Extent.lockedAt, clean, open_, alone, first]

end Responses

/-! ### METER_RELEASE (R227) -/

section MeterRelease

variable {s : State}

theorem State.meterDrain_of_shut (env : ReadEnv) (k : Nat) (h : s.col.meter ≤ 0 ∨ s.meterHeld = false) :
    s.meterDrain env k = s := by
  have shut : (if 0 < s.col.meter then s.waiting.find? fun r => r.wait == .meter else none) = none := by
    rcases h with h | h
    · exact if_neg (Int.not_lt.2 h)
    · rw [List.find?_eq_none.2 (by simpa [State.meterHeld] using h), ite_self]
  cases k with
  | zero => rfl
  | succ k => simp only [State.meterDrain, shut]

/-- One release: the first that waits is classified, charged and served, and then its lane goes on. -/
theorem State.meterDrain_succ {env : ReadEnv} {k : Nat} {r : HostReq} {v : HostReq × State} {x : Extent} {y : State}
    (up : 0 < s.col.meter) (found : s.waiting.find? (fun r => r.wait == .meter) = some r)
    (hv : v = State.classify { s with waiting := s.waiting.filter (·.id != r.id) } r)
    (hx : v.2.extent v.1.ext = some x) (hy : y = (v.2.chargeMeter x.codec).serve v.1 env) :
    s.meterDrain env (k + 1) = State.meterDrain env k (y.gateDrain env v.1.lane y.waiting.length) := by
  rw [hv] at hx
  simp only [State.meterDrain, if_pos up, found, hx, hy, hv]

theorem exec_meterRelease (s : State) (t : Nat) (env : ReadEnv) :
    exec (.meterRelease t env) s = .next
      (((s.startEnv t env).meterDrain env (s.startEnv t env).waiting.length).drainOrder env) := rfl

end MeterRelease

/-! ### URGENCY_RAISE (R112, R113) -/

/-- Urgency by the count that has passed since the stamp. -/
theorem urgencyAt_of_le {a c : Count} (q : Nat) (h : a ≤ c) : urgencyAt q a c =
    if 9 * q / 10 ≤ c - a then 3 else if 3 * q / 4 ≤ c - a then 2 else if q / 2 ≤ c - a then 1 else 0 := by
  simp only [urgencyAt, Nat.le_sub_iff_add_le' h]

theorem exec_urgencyRaise_of_none {s : State} {t id : Nat} (h : (s.start t).req id = none) :
    exec (.urgencyRaise t id) s = .next (s.start t) := by
  change execUrgencyRaise t id s = _
  simp only [execUrgencyRaise, h]

theorem exec_urgencyRaise_of_some {s w : State} {t id : Nat} {r : HostReq} (h : (s.start t).req id = some r)
    (hw : w = { s.start t with waiting := (s.start t).waiting.map fun k =>
      if k.id = id then { k with urgency := (s.start t).urgencyOf r } else k }) :
    exec (.urgencyRaise t id) s = .next (
      if (s.start t).urgencyOf r = 3 ∧ r.urgency < 3 ∧ r.kind < 2 then { w with drm := { w.drm with
        late := sput 0 w.drm.late r.lane ((sget 0 w.drm.late r.lane + 1) % 2 ^ 32) } } else w) := by
  change execUrgencyRaise t id s = _
  simp only [execUrgencyRaise, h, hw]

/-! ### The obligation -/

/-- Settles O53: a request is followed through stage 3, its class, stage 4 and its response; then the two commands that
move those which wait. -/
theorem hostRequestsAreServed : Obligations.HostRequestsAreServed := by
  refine ⟨?_, ?_, ?_⟩
  · intro s r x env
    refine ⟨State.stage3_of_gate x env, fun gate => ?_, State.exempt_iff, State.classify_of_unbudgeted,
      fun kd first => ⟨State.classify_of_room kd first, State.classify_of_beyond kd first⟩, ?_,
      fun e c => State.serve_of_moved, State.serve_of_no_extent, fun v => State.finishRead_of_ok v, ⟨rfl, rfl, rfl⟩,
      State.failReq_of_write, State.failReq_of_read, State.serveWrite_of_plain env, by simp [HostReq.devLoad]⟩
    · rw [State.stage3_of_no_gate x env gate]
      refine ⟨State.decide3_of_exempt env, fun h q v which => ?_⟩
      have decided : s.decide3 r x env = v.atMeter q x env ∧ q.lane = r.lane := by
        rcases which with ⟨kd, pinned, first, rfl, rfl⟩ | ⟨plain, rfl, rfl⟩
        · exact ⟨State.decide3_of_beyond env h kd pinned first, rfl⟩
        · exact ⟨State.decide3_of_within env h plain, rfl⟩
      obtain ⟨decided, lane⟩ := decided
      rw [decided, ← lane]
      refine ⟨fun held => ?_, State.atMeter_of_free x env⟩
      rw [State.atMeter_of_held x env held]
      exact ⟨fun room => if_neg (Nat.not_le.2 room), fun full => if_pos full⟩
    · intro hx awake still seen
      rw [State.serve_of_settled hx awake still seen]
      refine ⟨fun write first locked => if_pos (by simp [write, first, locked]),
        fun open_ held => (if_neg (HostReq.not_refused open_)).trans (if_pos held), fun clear => ⟨?_, ?_, ?_⟩⟩
      · intro write open_
        rw [if_neg (HostReq.not_refused (.inr open_))]
        simp [clear, write]
      · intro read near full
        simp [clear, read, near, full]
      · rintro read near room v rfl
        simp [clear, read, near, room]
  · rintro s _ t env rfl
    refine ⟨fun shut => ?_, exec_meterRelease s t env, State.drainOrder_unheld _ env,
      fun k r x v y => State.meterDrain_succ⟩
    rw [exec_meterRelease, State.meterDrain_of_shut env _ shut]
  · rintro s _ t id rfl
    refine ⟨exec_urgencyRaise_of_none, ?_⟩
    rintro r _ _ v w found rfl rfl past hv hw
    have urgency : (s.start t).urgencyOf r = max r.urgency v := by
      rw [hv, ← urgencyAt_of_le _ past]
      rfl
    rw [← urgency] at hw ⊢
    rw [exec_urgencyRaise_of_some found hw]
    exact congrArg _ (if_congr (by tauto) rfl rfl)

end Sys2Proof.Machine

/-! SUPPORT. How the Common Count moves: the beginning of a command, a tick, a sync event and the clock's rows (R27 to
R34, R227, R329, R472), and what follows: O2, O6, O9 and O21. -/

namespace Sys2Proof.Machine

open Sys2Proof

/-! ### Ticks and beginnings -/

theorem State.advance_running {s : State} (t : Count) (run : s.cc.running = true) : s.advance t = { s with
    cc := { s.cc with now := Nat.max s.cc.now t }
    col := { s.col with
      meter := min meterCap (s.col.meter + ((s.plan.cur.allow * (Nat.max s.cc.now t - s.cc.now) : Nat) : Int)) }
    old := if s.cc.now < Nat.max s.cc.now t then s.governs else s.old } :=
  if_pos run

theorem State.advance_stopped {s : State} (t : Count) (still : s.cc.running = false) : s.advance t = s :=
  if_neg (by simp [still])

theorem State.tick_stopped {s : State} (still : s.cc.running = false) : s.tick = { s with out := [] } := by
  simp [State.tick, still]

/-- The count after a tick: held or one further, or two where a slew skips a value (R27, R33). -/
theorem State.tick_now (s : State) : s.tick.cc.now =
    if s.cc.running then
      if s.cc.slew = 0 ∨ s.cc.slewTick < 999 then s.cc.now + 1
      else if s.cc.slew < 0 then s.cc.now else s.cc.now + 2
    else s.cc.now := by
  cases run : s.cc.running with
  | false => simp [State.tick_stopped run]
  | true =>
    simp only [State.tick, run, Bool.not_true, Bool.false_eq_true, if_false, if_true]
    by_cases still : s.cc.slew = 0
    · simp [still, State.advance, run]
    by_cases early : s.cc.slewTick < 999
    · simp [still, early, State.advance, run]
    by_cases back : s.cc.slew < 0
    · simp [still, early, back, State.slewTo]
    · simp [still, early, back, State.advance, State.slewTo, run]

/-- A tick moves the count, the meter, the slew and what governs, and clears the outputs. -/
theorem State.tick_frame (s : State) : s.tick = { s with
    out := []
    cc := { s.cc with
      now := s.tick.cc.now, slew := s.tick.cc.slew, slewTick := s.tick.cc.slewTick, status := s.tick.cc.status }
    col := { s.col with meter := s.tick.col.meter }
    old := if s.cc.now < s.tick.cc.now then s.governs else s.old } := by
  cases run : s.cc.running with
  | false =>
    rw [State.tick_stopped run]
    simp
  | true =>
    simp only [State.tick, run, Bool.not_true, Bool.false_eq_true, if_false]
    by_cases still : s.cc.slew = 0
    · simp only [still, if_true, State.advance, run]
      rfl
    by_cases early : s.cc.slewTick < 999
    · simp only [still, early, if_false, if_true, State.advance, run]
      rfl
    by_cases back : s.cc.slew < 0
    · simp [still, early, back, State.slewTo, run]
    · simp only [still, early, back, if_false, State.advance, State.slewTo, run, if_true]
      rfl

theorem State.idle_of_no_ties {s : State} (h : s.ties = []) : s.idle = s.tick := by
  have none : s.tick.ties = [] := by rw [s.tick_frame]; exact h
  simp [State.idle, none]

theorem State.start_running {s : State} (t : Count) (run : s.cc.running = true) : s.start t = { s with
    out := []
    cc := { s.cc with now := Nat.max s.cc.now t }
    col := { s.col with
      meter := min meterCap (s.col.meter + ((s.plan.cur.allow * (Nat.max s.cc.now t - s.cc.now) : Nat) : Int)) }
    old := if s.cc.now < t then s.governs else s.old } := by
  have later : (s.cc.now < Nat.max s.cc.now t) = (s.cc.now < t) := by
    rw [eq_iff_iff]
    exact lt_max_iff.trans (or_iff_right (lt_irrefl _))
  rw [State.start, State.advance_running t run]
  simp only [later]

theorem State.start_stopped {s : State} (t : Count) (still : s.cc.running = false) :
    s.start t = { s with out := [] } := by
  rw [State.start, State.advance_stopped t still]

/-- Settles O2: an empty queue ticks, and a command begins at its count; both by whether the count runs. -/
theorem timePasses : Obligations.TimePasses := by
  refine ⟨fun s empty => ⟨s.idle, by simp only [step, empty], ?_⟩, fun s t => ?_⟩
  · have count : s.idle.cc.now = s.tick.cc.now := congrArg Settings.now s.idle_settings
    refine ⟨count.trans s.tick_now, ?_, fun none => ?_⟩
    · rw [s.idle_settings, count, s.tick_frame]
      rfl
    · rw [State.idle_of_no_ties none]
      exact s.tick_frame
  · cases run : s.cc.running with
    | false => simp [State.start_stopped t run]
    | true => simp [State.start_running t run, meterCap]

/-! ### The count between hard loads (R28) -/

/-- The shutdown sequence of every cause but the loss of the auxiliary supply keeps the count. -/
theorem execShutdownSequence_now {t : Nat} {cause : ResetCause} {f : Bool} {s u : State} (aux : cause ≠ .aux)
    (h : execShutdownSequence t cause f s = .next u) : u.cc.now = (s.start t).cc.now := by
  simp only [execShutdownSequence] at h
  split at h
  · cases h; rfl
  cases cause <;> simp only [Host.Outcome.next.injEq] at h <;> subst h
  · rfl
  · exact (State.reboot_keeps _ 1 (some 1) f).now
  · exact (State.reboot_keeps _ 2 none f).now
  · exact (State.reboot_keeps _ 3 none f).now
  · exact (State.trip_keeps _ _).now
  · exact (State.mainLost_keeps _ _).now
  · exact absurd rfl aux
  · exact (State.mainLost_keeps _ _).now

/-- A writer of settings that neither loads the count nor loses the island ends at the count at which it begins. -/
theorem exec_now_of_setsSettings {c : Instr} {s u : State} (hc : setsSettings c = true) (h : exec c s = .next u)
    (edge : ∀ t b, c ≠ .countSyncEdge t b) (sync : ∀ t p m, c ≠ .sync t p m) (up : ∀ a, c ≠ .powerUp a)
    (aux : ∀ t b, c ≠ .auxLoss t b) (shut : ∀ t b, c ≠ .shutdownSequence t .aux b) :
    ∃ t, u.cc.now = (s.start t).cc.now := by
  cases c with
  | countSyncEdge t b => exact absurd rfl (edge t b)
  | sync t p m => exact absurd rfl (sync t p m)
  | powerUp a => exact absurd rfl (up a)
  | auxLoss t b => exact absurd rfl (aux t b)
  | shutdownSequence t cause f =>
    exact ⟨t, execShutdownSequence_now (fun e => shut t f (by rw [e])) h⟩
  | inputDisconnect t mv10 finished => exact ⟨t, (execInputDisconnect_keeps t mv10 finished s u h).now⟩
  | junctionSample t temps => exact ⟨t, (execJunctionSample_keeps t temps s u h).now⟩
  | tickLoopLock t toRef => exact ⟨t, (execTickLoopLock_keeps t toRef s u h).now⟩
  | modRst t low finished => exact ⟨t, (execModRst_keeps t low finished s u h).now⟩
  | watchdogExpiry t finished => exact ⟨t, (execWatchdogExpiry_keeps t finished s u h).now⟩
  | pairOp t m => exact ⟨t, (execPairOp_keeps t m s u h).now⟩
  | winCommit t by_ n v => exact ⟨t, (execWinCommit_keeps t by_ n v s u h).now⟩
  | dirCtrl t v => exact ⟨t, (execDirCtrl_keeps t v s u h).now⟩
  | dirEntrySel t v => exact ⟨t, (execDirEntrySel_keeps t v s u h).now⟩
  | pubSel t v => exact ⟨t, (execPubSel_keeps t v s u h).now⟩
  | codExtSel t v => exact ⟨t, (execCodExtSel_keeps t v s u h).now⟩
  | mxeEngSel t v => exact ⟨t, (execMxeEngSel_keeps t v s u h).now⟩
  | mxeCompSel t v => exact ⟨t, (execMxeCompSel_keeps t v s u h).now⟩
  | sprCoreSel t v => exact ⟨t, (execSprCoreSel_keeps t v s u h).now⟩
  | colResSel t v => exact ⟨t, (execColResSel_keeps t v s u h).now⟩
  | drmChSel t v => exact ⟨t, (execDrmChSel_keeps t v s u h).now⟩
  | flsDieSel t v => exact ⟨t, (execFlsDieSel_keeps t v s u h).now⟩
  | intChSel t v => exact ⟨t, (execIntChSel_keeps t v s u h).now⟩
  | epPortSel t v => exact ⟨t, (execEpPortSel_keeps t v s u h).now⟩
  | epLdSel t v => exact ⟨t, (execEpLdSel_keeps t v s u h).now⟩
  | tamPortSel t v => exact ⟨t, (execTamPortSel_keeps t v s u h).now⟩
  | secSlotSel t v => exact ⟨t, (execSecSlotSel_keeps t v s u h).now⟩
  | pwrDomSel t v => exact ⟨t, (execPwrDomSel_keeps t v s u h).now⟩
  | ageDomSel t v => exact ⟨t, (execAgeDomSel_keeps t v s u h).now⟩
  | tableLoad t v => exact ⟨t, (execTableLoad_keeps t v s u h).now⟩
  | codGrantTable t v => exact ⟨t, (execCodGrantTable_keeps t v s u h).now⟩
  | recipeLoad t v => exact ⟨t, (execRecipeLoad_keeps t v s u h).now⟩
  | recipeClear t v => exact ⟨t, (execRecipeClear_keeps t v s u h).now⟩
  | missEngines t v => exact ⟨t, (execMissEngines_keeps t v s u h).now⟩
  | lsShare t v => exact ⟨t, (execLsShare_keeps t v s u h).now⟩
  | colClass t c v => exact ⟨t, (execColClass_keeps t c v s u h).now⟩
  | syncSend t v => exact ⟨t, (execSyncSend_keeps t v s u h).now⟩
  | fltReset t v finished => exact ⟨t, (execFltReset_keeps t v finished s u h).now⟩
  | secSlotAssign t v => exact ⟨t, (execSecSlotAssign_keeps t v s u h).now⟩
  | recoveryLoad t v finished => exact ⟨t, (execRecoveryLoad_keeps t v finished s u h).now⟩
  | detCtrl t v => exact ⟨t, (execDetCtrl_keeps t v s u h).now⟩
  | testClose t v => exact ⟨t, (execTestClose_keeps t v s u h).now⟩
  | prtGateDelay t lane v => exact ⟨t, (execPrtGateDelay_keeps t lane v s u h).now⟩
  | prtStage t idx v => exact ⟨t, (execPrtStage_keeps t idx v s u h).now⟩
  | symbolInject t v => exact ⟨t, (execSymbolInject_keeps t v s u h).now⟩
  | prtCodec t v => exact ⟨t, (execPrtCodec_keeps t v s u h).now⟩
  | registerWrite t by_ off width v => exact ⟨t, (execRegisterWrite_keeps t by_ off width v s u h).now⟩
  | _ => cases hc

/-- Settles O6: a command ends at the count at which it begins, and no command begins before the count that stands. -/
theorem countNeverDecreases : Obligations.CountNeverDecreases := by
  intro c s u h edge sync up aux shut
  have begun : ∃ t, u.cc.now = (s.start t).cc.now := by
    cases hc : setsSettings c with
    | true => exact exec_now_of_setsSettings hc h edge sync up aux shut
    | false =>
      obtain ⟨t, ht⟩ := exec_settings hc h
      exact ⟨t, congrArg Settings.now ht⟩
  obtain ⟨t, ht⟩ := begun
  exact ht ▸ (s.start_keeps t).2

/-! ### Expansion of 48-bit counts (R34) -/

/-- The expansion keeps the low 48 bits and lies in the window of its stamp. -/
theorem expand48_spec {S v : Nat} (hv : v < 2 ^ 48) : expand48 S v % 2 ^ 48 = v ∧
    if S < 2 ^ 47 then expand48 S v < 2 ^ 48 else S ≤ expand48 S v + 2 ^ 47 ∧ expand48 S v < S + 2 ^ 47 := by
  simp only [expand48]
  split <;> [omega; split <;> [omega; split <;> omega]]

/-- Settles O9: two values with the same low 48 bits in a window of 2^48 are the same. -/
theorem expandedCountIsTheOneInItsWindow : Obligations.ExpandedCountIsTheOneInItsWindow := by
  intro S v hv
  obtain ⟨low, window⟩ := expand48_spec (S := S) hv
  refine ⟨fun E => ⟨fun e => e ▸ ⟨low, window⟩, fun ⟨same, near⟩ => ?_⟩, fun bound => ?_⟩
  · by_cases early : S < 2 ^ 47
    · rw [if_pos early] at near window
      omega
    · rw [if_neg early] at near window
      omega
  · split at window <;> omega

end Sys2Proof.Machine

namespace Sys2Proof.Machine

open Sys2Proof

/-! ### What governs after a hard load (R7, R32, R472) -/

/-- The part after reset with LOAD of CC_CTRL set. -/
def State.loadArmed : State := { State.reset with cc := { CcBlk.init with ctrl := 4 } }

/-- The RW1C bits of CC_STATUS as they govern a write that clears them at the count that has come. -/
def State.clockFlags (s : State) : Reg32 := sget 0 s.old.flags 0x10014

/-- The sync event has set its bit of CC_STATUS before what governs is taken. -/
theorem State.loadArmed_syncEvent_clockFlags : (State.loadArmed.syncEvent 0 0).clockFlags = 8 := by decide

theorem State.loadArmed_governs_clockFlags : sget 0 State.loadArmed.governs.flags 0x10014 = 0 := by decide

/-- Refutes O21: at a LOAD without open work the bit of the sync event, clear before, is set in what governs the
requests of the loaded count, so that is not what governed before the event. -/
theorem not_commonCountRows : ¬ Obligations.CommonCountRows := by
  rintro ⟨-, syncEvents⟩
  obtain ⟨-, load, -⟩ := syncEvents State.loadArmed 0 0 _ rfl
  have loaded := (load rfl (by simp [State.loadArmed, State.reset]) (by simp [State.loadArmed, State.reset])).2
  have flags : (State.loadArmed.syncEvent 0 0).clockFlags = sget 0 State.loadArmed.governs.flags 0x10014 :=
    congrArg State.clockFlags loaded
  rw [State.loadArmed_syncEvent_clockFlags, State.loadArmed_governs_clockFlags] at flags
  exact absurd flags (by decide)

end Sys2Proof.Machine

/-! SUPPORT. Start-up from the auxiliary supply to READY (R27, R47, R123, R304, R324, R451, R452, R458, R461 to R466),
and what follows: O22 and O24. -/

namespace Sys2Proof.Machine

open Sys2Proof

/-! ### The phases before READY -/

section Phases

variable {s : State} {t : Nat}

theorem State.powered_iff (s : State) : s.powered = true ↔ s.gen.conv = true ∧ s.gen.held = none := by
  simp [State.powered]

theorem State.not_powered_iff (s : State) : s.powered = false ↔ s.gen.conv = false ∨ s.gen.held ≠ none := by
  rw [Bool.eq_false_iff, Ne, State.powered_iff, not_and_or, Bool.not_eq_true]

theorem exec_powerUp (s : State) (a : BitVec 3) : exec (.powerUp a) s = .next (
    if s.gen.aux then { s with out := [] }
    else { s with out := [], cc := CcBlk.init, gen := { s.gen with aux := true, addr := a, phase := 0 } }) := by
  change (if s.gen.aux = true then _ else _) = _
  split <;> rfl

theorem exec_mainConversionStart (s : State) (t : Nat) : exec (.mainConversionStart t) s = .next (
    if (s.start t).gen.aux ∧ (s.start t).cc.running ∧ ¬ (s.start t).gen.conv then { s.start t with
      gen := { (s.start t).gen with conv := true, wake := false }, pwr := { (s.start t).pwr with main := true } }
    else s.start t) := by
  change execMainConversionStart t s = _
  simp only [execMainConversionStart]
  split
  · rw [if_neg (by grind)]
  · rw [if_pos (by grind)]

theorem exec_pwrGood (s : State) (t : Nat) : exec (.pwrGood t) s = .next (
    if (s.start t).gen.conv ∧ (s.start t).gen.held = none ∧ ¬ (s.start t).gen.modRst ∧ ¬ (s.start t).gen.pwrGood then
      State.trainPorts { s.start t with
        gen := { (s.start t).gen with pwrGood := true, pwrGoodCc := (s.start t).now, phase := 1 }
        pwr := { (s.start t).pwr with powerOnSince := some (s.start t).now } }
    else s.start t) := by
  have off := (s.start t).not_powered_iff
  change execPwrGood t s = _
  simp only [execPwrGood]
  split
  · rw [if_neg (by grind)]
  · rw [if_pos (by grind)]

/-- No channel that can fail is listed, so none is retired. -/
theorem exec_dramTrainingDone_of_none {l : List Nat} (f : List Nat) (training : (s.start t).gen.phase = 3)
    (none : ∀ c ∈ l, 72 ≤ c ∨ (s.start t).drm.retired.contains c = true) :
    exec (.dramTrainingDone t l f) s = .next { s.start t with gen := { (s.start t).gen with phase := 4 } } := by
  have untouched (u : State) (l : List Nat) (g : State → Nat → State)
      (h : ∀ c ∈ l, 72 ≤ c ∨ u.drm.retired.contains c = true) :
      l.foldl (fun s c => if s.drm.retired.contains c ∨ 72 ≤ c then s else g s c) u = u := by
    induction l with
    | nil => rfl
    | cons c l ih =>
      rw [List.foldl_cons, if_pos (or_comm.1 (h c List.mem_cons_self))]
      exact ih fun d hd => h d (List.mem_cons_of_mem c hd)
  change execDramTrainingDone t l f s = _
  simp only [execDramTrainingDone]
  rw [if_neg (by simpa using training), untouched _ _ _ none]

/-- An event of start-up in another phase than its own does nothing. -/
theorem exec_dramTrainingDone_of_other_phase (l f : List Nat) (other : (s.start t).gen.phase ≠ 3) :
    exec (.dramTrainingDone t l f) s = .next (s.start t) :=
  if_pos (by simpa using other)

theorem exec_restoreDone_of_other_phase (other : (s.start t).gen.phase ≠ 4) :
    exec (.restoreDone t) s = .next (s.start t) :=
  if_pos (by simpa using other)

theorem exec_restoreDone_of_phase {x : State} (restoring : (s.start t).gen.phase = 4)
    (hx : x = State.unwrapKeys (State.replayJournal { s.start t with
      sec := { (s.start t).sec with
        erasePending := false, slotAssign := ((s.start t).slot (fld (s.start t).sec.slotSel 0 8)).assign }
      pwr := { (s.start t).pwr with ageStatus := ((s.start t).dom (fld (s.start t).pwr.ageSel 0 6)).ageWord } })) :
    exec (.restoreDone t) s = .next (
      let w := x.ext.tbl.foldl (fun s e => s.pinPages e.1 e.2 noEnv) x
      { w with gen := { w.gen with phase := 5 } }) := by
  subst hx
  exact if_neg (by simpa using restoring)

/-- An extent has the nonce that its copy in the system area unwraps to (R396). -/
theorem State.unwrapKeys_nonce {s : State} {e : Nat} {x : Extent} (h : (e, x) ∈ s.unwrapKeys.ext.tbl) :
    x.nonce = ((sfind s.sec.nonces e).bind unwrapKey).getD 0 := by
  obtain ⟨⟨d, y⟩, -, hy⟩ := List.mem_map.1 h
  obtain ⟨rfl, rfl⟩ : d = e ∧ _ = x := by simpa using hy
  rfl

/-- STARTUP_LATE by the bound of the phase that stands (R462). -/
theorem exec_startupLate (s : State) (t : Nat) {u : State} (hu : u = s.start t) :
    exec (.startupLate t) s = .next (if u.gen.pwrGood ∧ (
        (u.gen.phase = 1 ∧ u.gen.pwrGoodCc + 800000000 < u.now) ∨
          (u.gen.phase = 3 ∧ u.gen.pwrGoodCc + 2000000000 < u.now) ∨
        (u.gen.phase = 4 ∧ u.gen.pwrGoodCc + 8000000000 < u.now) ∨
        (u.gen.phase = 5 ∧ u.gen.pwrGoodCc + 16000000000 < u.now)) then { u with gen := { u.gen with late := true } }
      else u) := by
  subst hu
  change execStartupLate t s = _
  simp only [execStartupLate]
  generalize s.start t = u
  split
  next b bound =>
    split at bound
    case h_5 => cases bound
    all_goals
      cases bound
      refine congrArg _ (if_congr ?_ rfl rfl)
      simp [*]
  next bound =>
    split at bound
    case h_5 => rw [if_neg (by grind)]
    all_goals cases bound

/-- Loading map pages fills the cache and counts nothing. -/
theorem State.loadMaps_mapCached (l : List (Nat × Nat)) (s : State) :
    (l.foldl (fun s k => s.loadMap k) s).fls.mapCached = s.fls.mapCached := by
  have one (s : State) (k : Nat × Nat) : (s.loadMap k).fls.mapCached = s.fls.mapCached := by
    simp only [State.loadMap]
    split <;> rfl
  induction l generalizing s with
  | nil => rfl
  | cons k l ih => exact (ih _).trans (one s k)

theorem exec_mapLoading_of_loading {n : Nat} {w : State} (loading : (s.start t).fls.mapLoading = true)
    (hw : w = (((s.start t).mapPages.drop (s.start t).fls.mapCached).take n).foldl (fun s k => s.loadMap k)
      (s.start t)) :
    exec (.mapLoading t n) s = .next (
      let m := min (s.start t).mapPages.length ((s.start t).fls.mapCached + n)
      { w with fls := { w.fls with
        mapCached := m
        mapLoading := decide (m < (s.start t).mapPages.length) &&
          decide (w.fls.mapCache.length < mapCachePages) } }) := by
  change execMapLoading t n s = _
  simp only [execMapLoading]
  rw [if_neg (by simpa using loading), ← hw]
  have count : w.fls.mapCached = (s.start t).fls.mapCached := hw ▸ State.loadMaps_mapCached _ _
  rw [count]

theorem exec_mapLoading_of_done (n : Nat) (done : (s.start t).fls.mapLoading = false) :
    exec (.mapLoading t n) s = .next (s.start t) :=
  if_pos (by simpa using done)

end Phases

/-- Settles O22: each row by the phase that it needs. -/
theorem startUpRows : Obligations.StartUpRows := by
  rintro s _ t rfl
  refine ⟨exec_powerUp s, exec_mainConversionStart s t, exec_pwrGood s t,
    fun l training none f => exec_dramTrainingDone_of_none f training none,
    exec_dramTrainingDone_of_other_phase, ?_, fun w => ⟨rfl, fun _ _ => State.unwrapKeys_nonce⟩,
    exec_restoreDone_of_other_phase, exec_startupLate s t rfl, ?_, exec_mapLoading_of_done⟩
  · rintro restoring x _ hx rfl
    exact exec_restoreDone_of_phase restoring hx
  · rintro n _ w hw rfl loading
    exact exec_mapLoading_of_loading loading hw

/-! ### READY (R47, R304, R461, R464, R466) -/

/-- `t` is `s` but for what the outside is told: outputs, logical devices and ports, event rings and Tamian's block. -/
def State.Tells (s t : State) : Prop :=
  t = { s with out := t.out, ep := t.ep, allots := t.allots, tam := t.tam }

theorem State.Tells.refl (s : State) : s.Tells s := rfl

theorem State.Tells.trans {s t u : State} (h : s.Tells t) (g : t.Tells u) : s.Tells u := by
  unfold State.Tells at *
  rw [g, h]

theorem State.Tells.foldl {α : Type} {f : State → α → State} (h : ∀ (s : State) a, s.Tells (f s a)) (l : List α)
    (s : State) :
    s.Tells (l.foldl f s) := by
  induction l generalizing s with
  | nil => exact .refl s
  | cons a l ih => exact (h s a).trans (ih _)

theorem State.interrupt_tells (s : State) (n vec : Nat) : s.Tells (s.interrupt n vec) := by
  simp only [State.interrupt, State.updIntx]
  repeat' split
  all_goals rfl

theorem State.offer_tells (s : State) (n e base size : Nat) : s.Tells (s.offer n e base size) := by
  have logged (u : State) : u.Tells (u.dcdEvent n 0 e) := by
    simp only [State.dcdEvent]
    split
    · exact State.Tells.trans (t := u.modLd _ _) rfl (State.interrupt_tells _ _ _)
    · rfl
  exact (State.Tells.trans (t := s.modLd _ _) rfl (logged _)).trans rfl

theorem State.offerAll_tells (s : State) : s.Tells s.offerAll := by
  unfold State.offerAll
  refine State.Tells.foldl (fun s e => ?_) s.ext.tbl s
  exact State.Tells.foldl (fun s n => s.offer_tells n e.1 e.2.base e.2.size) e.2.holders s

theorem State.sendRates_tells (s : State) (b : Plan) : s.Tells (s.sendRates b) := by
  simp only [State.sendRates, State.portSend]
  repeat' split
  all_goals rfl

theorem State.setpoints_cons (s : State) (d : Nat) (l : List Nat) (f : Domain → Nat → Nat) :
  s.setpoints (d :: l) f =
      (State.modDom s.fresh.2 d fun x => { x with setpoint := f x (fld s.fresh.1 0 10) }).setpoints l f := by
  simp only [State.setpoints, List.foldl_cons]
theorem State.setpoints_eq (s : State) (l : List Nat) (f : Domain → Nat → Nat) :
    ∃ p n, s.setpoints l f = { s with pwr := p, free := n } := by
  induction l generalizing s with
  | nil => exact ⟨s.pwr, s.free, rfl⟩
  | cons d l ih =>
    obtain ⟨p, n, h⟩ := ih (State.modDom s.fresh.2 d fun x => { x with setpoint := f x (fld s.fresh.1 0 10) })
    refine ⟨p, n, ?_⟩
    rw [State.setpoints_cons, h]
    rfl

/-- A plan in force stands in the plan block with its level, and the log holds it (R49, R336). -/
theorem State.inForce_eq (s : State) (p : Plan) : ∃ d, s.inForce p = { s with
    plan := { s.plan with cur := p, stepping := false }, pwr := { s.pwr with level := p.level }, det := d } := by
  obtain ⟨d, hd⟩ := State.record_eq { s with
    plan := { s.plan with cur := p, stepping := false }, pwr := { s.pwr with level := p.level } }
    4 0 0 0xFFFF p.effective (at_ 0 16 p.ver + at_ 16 8 p.cause) 0 1 0
  obtain ⟨e, he⟩ := State.digestUpdate_eq { s with
    plan := { s.plan with cur := p, stepping := false }, pwr := { s.pwr with level := p.level }, det := d }
  exact ⟨e, (congrArg State.digestUpdate hd).trans he⟩

/-- What READY does last tells the outside and begins a scrub pass. -/
theorem State.startPass_of_tells {x y : State} (h : x.Tells y) : y.startPass.gen = x.gen ∧ y.startPass.plan = x.plan ∧
    y.startPass.fls = x.fls ∧ y.startPass.int.inPass = true ∧ y.startPass.cc = x.cc := by
  rw [State.Tells] at h
  rw [h]
  exact ⟨rfl, rfl, rfl, rfl, rfl⟩

theorem exec_ready_of_measured {s x y : State} {t l : Nat} {m : PlanInput} {p : Plan}
    (measured : (s.start t).gen.phase = 5) (hl : l = (s.start t).plan.heldLevel.getD (s.start t).pwr.level)
    (hx : x = State.setpoints { s.start t with plan := { (s.start t).plan with meas := m, heldLevel := none } }
      ((List.range 64).filter
        (State.domainOn { s.start t with plan := { (s.start t).plan with meas := m, heldLevel := none } }))
      fun d v => Nat.max v (levelFloor l + d.raise))
    (hp : p = { x.compute { Plan.none with
        level := l, lsShare := fld x.col.ctrl 0 10, miss := fld x.mxe.ctrl 0 5, stages := x.plan.cur.stages } with
      ver := (x.newVersion 6 x.now).1, cause := 6, effective := (x.newVersion 6 x.now).2.now })
    (hy : y = ((x.newVersion 6 x.now).2.inForce p).applyCuts false) :
    exec (.ready t m) s = .next (State.startPass (State.sendRates (State.offerAll { y with
      gen := { y.gen with phase := 6, readyCc := y.now }
      fls := { y.fls with mapLoading := true }
      ep := { y.ep with lds := y.ep.lds.map fun e => (e.1, { e.2 with memActive := e.2.memInfo }) } })
        y.plan.cur)) := by
  subst hl hx hp hy
  change execReady t m s = _
  simp only [execReady]
  rw [if_neg (by simpa using measured)]

/-- Settles O24: the setpoints, the plan in force and its cuts, then what the outside is told and the first pass. -/
theorem readyRow : Obligations.ReadyRow := by
  rintro s _ t m rfl
  refine ⟨fun other => if_pos (by simpa using other), fun measured => ?_⟩
  refine ⟨_, exec_ready_of_measured measured rfl rfl rfl rfl, ?_⟩
  generalize hx : State.setpoints _ _ _ = x
  obtain ⟨w, n, ex⟩ := State.setpoints_eq _ _ _
  rw [hx] at ex
  obtain ⟨d, hy⟩ := State.inForce_eq _ _
  rw [hy]
  obtain ⟨gen, plan, fls, pass, cc⟩ :=
    State.startPass_of_tells ((State.offerAll_tells _).trans (State.sendRates_tells _ _))
  rw [gen, plan, fls, pass, cc, ex]
  exact ⟨rfl, rfl, rfl, rfl, rfl, rfl, rfl, rfl, rfl⟩

end Sys2Proof.Machine

/-! SUPPORT. What the shutdown sequence and a reset leave (R27, R149, R323, R324, R363, R403, R424, R425), and what
follows: O26. -/

namespace Sys2Proof.Machine

open Sys2Proof

/-! ### The shutdown sequence (R149) -/

/-- `t` is `s` but for what the outside is told and what the sequence saves: the flash tier, the fault log, WAKE#, the
free values taken, and the summary of the life record. -/
def State.Saves (s t : State) : Prop :=
  t = { s with
    out := t.out, ep := t.ep, allots := t.allots, tam := t.tam, fls := t.fls, flt := t.flt, free := t.free
    gen := { s.gen with wake := t.gen.wake }
    pwr := { s.pwr with
      summaries := t.pwr.summaries, summaryAt := t.pwr.summaryAt, calSaved := t.pwr.calSaved } }

theorem State.Saves.refl (s : State) : s.Saves s := rfl

theorem State.Saves.trans {s t u : State} (h : s.Saves t) (g : t.Saves u) : s.Saves u := by
  unfold State.Saves at *
  rw [g, h]

theorem State.Saves.foldl {α : Type} {f : State → α → State} (h : ∀ (s : State) a, s.Saves (f s a)) (l : List α)
    (s : State) : s.Saves (l.foldl f s) := by
  induction l generalizing s with
  | nil => exact .refl s
  | cons a l ih => exact (h s a).trans (ih _)

theorem State.Tells.saves {s t : State} (h : s.Tells t) : s.Saves t := by
  unfold State.Tells at h
  rw [h]
  rfl

theorem State.post_tells (s : State) (n type : Nat) (fields : List (Nat × Nat × Nat)) :
    s.Tells (s.post n type fields) := by
  simp only [State.post]
  split
  · exact State.Tells.trans (t := State.emit (s.setAllot n _) _) rfl (State.interrupt_tells _ _ _)
  · split <;> rfl

theorem State.signalPme_saves (s : State) (k : Nat) : s.Saves (s.signalPme k) := by
  simp only [State.signalPme]
  repeat' split
  all_goals rfl

theorem State.fault0_saves (s : State) (unit reason num : Nat) : s.Saves (s.fault0 unit reason num) := by
  have posted (s : State) (n : Nat) : s.Saves (State.signalPme
      (s.post n 5 [(16, 1, unit), (17, 1, reason), (18, 2, num),
      (20, 2, 0xFFFF), (24, 8, 0)]) (s.ldOf n)) :=
    (s.post_tells _ _ _).saves.trans (State.signalPme_saves _ _)
  exact State.Saves.trans (t := s.plogPut _) rfl (.foldl posted [0] _)

theorem State.Saves.ite {s t u : State} {c : Prop} [Decidable c] (h : s.Saves t) (g : s.Saves u) :
    s.Saves (if c then t else u) := by
  split
  · exact h
  · exact g

theorem State.countProgram_saves (s : State) (host : Bool) : s.Saves (s.countProgram host) := by
  have counted (fls : FlsBlk) : s.Saves { s with fls := fls } := rfl
  simp only [State.countProgram]
  refine .ite (.trans ?_ (State.fault0_saves _ _ _ _)) ?_
  all_goals exact .ite ((counted _).trans (State.fault0_saves _ _ _ _)) (counted _)

theorem State.landImage_saves (s : State) (img : Image) (host : Bool) : s.Saves (s.landImage img host) := by
  have rowed (s : State) : s.Saves (s.addToRow img) := by
    simp only [State.addToRow]
    split <;> rfl
  have closed (s : State) : s.Saves (s.closeRow (dieGroup img.die) img.row) := by
    simp only [State.closeRow]
    split <;> rfl
  have switched (s : State) : s.Saves (s.switchMap img) := by
    simp only [State.switchMap]
    split <;> rfl
  exact (((s.countProgram_saves host).trans (rowed _)).trans (closed _)).trans (switched _)

/-- A shutdown saves, and ends programs, power-on time and PWR_GOOD (R149, R452). -/
theorem State.shutdown_eq (s : State) (f : Bool) : ∃ x, s.Saves x ∧ s.shutdown f = { x with
    fls := { x.fls with programs := [], unclean := !f }
    pwr := { x.pwr with powerOnBase := x.powerOn, powerOnSince := none }, gen := { x.gen with pwrGood := false } } := by
  refine ⟨_, ?_, rfl⟩
  refine .ite ?_ ?_
  · have landed := State.Saves.foldl (fun s (g : Program) => s.landImage_saves g.img g.host) s.issued s
    have rows (s : State) : s.Saves s.closeRows := .foldl (fun s r => by
      simp only [State.closeRow]
      split <;> rfl) _ s
    exact (landed.trans (rows _)).trans rfl
  · refine State.Saves.foldl (fun s g => ?_) s.issued s
    exact .ite (State.Saves.trans (t := s.fresh.2) rfl (State.landImage_saves _ _ _)) rfl

/-! ### Resets (R323, R324, R363, R425) -/

/-- A map that keeps the default commutes with reading an entry. -/
theorem sget_map {α β : Type} (f : α → β) (d : α) (m : Sparse α) (k : Nat) :
    sget (f d) (m.map fun e => (e.1, f e.2)) k = f (sget d m k) := by
  induction m with
  | nil => rfl
  | cons e m ih =>
    simp only [List.map_cons, sget]
    split
    · rfl
    split
    · rfl
    · exact ih

/-- A whole-part reset keeps the assignment of each key slot and loses its key (R324, R396). -/
theorem State.reboot_slot (s : State) (c : Nat) (h : Option Nat) (f : Bool) (k : Nat) :
    (s.reboot c h f).slot k = { (s.shutdown f).slot k with key := 0 } := by
  have kept := sget_map (fun x : KeySlot => { x with key := 0 }) .init (s.shutdown f).sec.slots k
  exact kept

/-- Settles O26: what the sequence saves, then what the reset keeps. -/
theorem resetsKeepWhatTheSystemAreaHolds : Obligations.ResetsKeepWhatTheSystemAreaHolds := by
  rintro s w c h f
  obtain ⟨x, saves, shut⟩ := s.shutdown_eq f
  rw [State.Saves] at saves
  refine ⟨?_, ?_, ?_⟩
  · rintro rfl
    have slots (k : Nat) : (s.reboot c h f).slot k = { s.slot k with key := 0 } := by
      rw [State.reboot_slot, shut, saves]
      rfl
    rw [State.reboot, shut, saves] at slots ⊢
    exact ⟨rfl, rfl, rfl, rfl, rfl, rfl, rfl, rfl, rfl, rfl, rfl, rfl, rfl, rfl, rfl, rfl, rfl, rfl, rfl, rfl, rfl, rfl,
      slots, rfl, rfl, rfl, rfl, rfl, rfl, rfl⟩
  · rintro rfl
    rw [State.mainLost, shut, saves]
    exact ⟨rfl, rfl, rfl, rfl, rfl⟩
  · rintro rfl
    exact ⟨rfl, rfl, rfl, rfl⟩

end Sys2Proof.Machine

/-! SUPPORT. The order in which the Ladle posts ordered commands (R217, R218, R327), and what follows: O19 fails. -/

namespace Sys2Proof.Machine

open Sys2Proof

/-- An ordered command whose work is done, `n`-th of queue 0. -/
def Cmd.orderedDone (n : Nat) : Cmd :=
  { State.reset.newCmd ⟨0, 0, n, 0, 0, 0⟩ {} false 0 0 false with id := n, ordered := true, phase := .paced }

/-- Two ordered commands are done and may be released. -/
def State.twoDone : State := { State.reset with cmds := [.orderedDone 0, .orderedDone 1] }

/-- An ordered command waits while one before it may be released (R217). -/
theorem exec_pacedRelease_of_behind {s : State} {t id : Nat} {c : Cmd} (h : (s.start t).cmd id = some c)
    (behind : (s.start t).ladleFirst c = false) : exec (.pacedRelease t id) s = .next (s.start t) := by
  change execPacedRelease t id s = _
  simp only [execPacedRelease, h, behind, Bool.false_eq_true, and_false, if_false]

theorem State.twoDone_releaseCmd_cmds :
    ((((State.twoDone.start 0).releaseCmd (.orderedDone 1)).fences 2).cmds.map (·.id)) = [0] := by decide +kernel

/-- Refutes O19: a paced command whose promise is reached is not released while an ordered one before it is ready. -/
theorem not_ringRows : ¬ Obligations.RingRows := by
  intro rows
  obtain ⟨-, -, -, -, -, -, -, -, release, -⟩ := rows State.twoDone _ 0 0 _ rfl rfl
  have released := release 1 (.orderedDone 1) (by decide +kernel) (by decide +kernel) (by decide +kernel)
  rw [exec_pacedRelease_of_behind (c := .orderedDone 1) (by decide +kernel) (by decide +kernel),
    Host.Outcome.next.injEq] at released
  have ids := congrArg (fun s : State => s.cmds.map (·.id)) released
  exact absurd (ids.trans State.twoDone_releaseCmd_cmds) (by decide +kernel)

end Sys2Proof.Machine

/-! SUPPORT. Samples of junctions, power and pace, the end of a re-plan and the beginning of a plan (R41, R49, R50,
R282, R283, R416, R419, R421, R422, R426, R427), and what follows: O28 and O29. -/

namespace Sys2Proof.Machine

open Sys2Proof

/-! ### Samples (R41, R416, R419, R421, R422, R426) -/

section Samples

variable {s : State} {t : Nat}

theorem State.readJunctions_gen (s : State) (l : List Nat) : (s.readJunctions l).gen = s.gen := by
  unfold State.readJunctions
  induction List.range 64 generalizing s with
  | nil => rfl
  | cons d ds ih => exact ih _

theorem exec_junctionSample_of_off (l : List Nat) (off : (s.start t).gen.conv = false) :
    exec (.junctionSample t l) s = .next (s.start t) :=
  congrArg _ (if_neg (by simpa using off))

theorem exec_junctionSample_of_on (l : List Nat) (on : (s.start t).gen.conv = true) :
    exec (.junctionSample t l) s = .next ((s.start t).readJunctions l).hottestActs :=
  congrArg _ (if_pos on)

/-- A sample of the governor changes what is read of the supply and the coolant first (R416, R426). -/
theorem exec_powerGovernorSample_of_powered (v w i o fl : Nat) {x : State} (on : (s.start t).powered = true)
    (hx : x = { s.start t with pwr := { (s.start t).pwr with
      input := BitVec.ofNat 32 (at_ 0 16 v + at_ 16 16 w)
      capNear := decide (97 * levelCap (s.start t).levelNow < 100 * w)
      coolant := BitVec.ofNat 32 (at_ 0 8 i + at_ 8 8 o + at_ 16 16 fl) } }) :
    exec (.powerGovernorSample t v w i o fl) s = .next (if 97 * levelCap (s.start t).levelNow < 100 * w then
      x.setpoints ((List.range 64).filter x.domainOn) fun d free =>
        min d.setpoint (max free (levelFloor x.levelNow + d.raise))
      else x) := by
  subst hx
  refine (if_neg (by simpa using on)).trans (congrArg _ (if_congr ?_ rfl rfl))
  exact decide_eq_true_iff

theorem exec_powerGovernorSample_of_unpowered (v w i o fl : Nat) (off : (s.start t).powered = false) :
    exec (.powerGovernorSample t v w i o fl) s = .next (s.start t) :=
  if_pos (by simpa using off)

theorem exec_paceSample_of_powered (l : List (BitVec 16)) (on : (s.start t).powered = true) :
    exec (.paceSample t l) s = .next ((List.range 64).foldl (fun s d => s.paceOne d (l.getD d 0)) (s.start t)) :=
  if_neg (by simpa using on)

theorem exec_paceSample_of_unpowered (l : List (BitVec 16)) (off : (s.start t).powered = false) :
    exec (.paceSample t l) s = .next (s.start t) :=
  if_pos (by simpa using off)

end Samples

/-- Settles O28: a junction sample by the power, the hold and the hottest domain; the others by the power. -/
theorem sampleRows : Obligations.SampleRows := by
  rintro s _ t rfl
  have on (conv : (s.start t).gen.conv = true) (held : (s.start t).gen.held = none) :=
    (s.start t).powered_iff.2 ⟨conv, held⟩
  have off := (s.start t).not_powered_iff.2
  refine ⟨exec_junctionSample_of_off, ?_, ?_,
    fun v w i o fl h => exec_powerGovernorSample_of_unpowered v w i o fl (off h),
    fun l conv held => exec_paceSample_of_powered l (on conv held),
    fun l h => exec_paceSample_of_unpowered l (off h), rfl⟩
  · rintro l _ conv rfl
    rw [exec_junctionSample_of_on l conv, ← (s.start t).readJunctions_gen l]
    rfl
  · rintro v w i o fl conv held x hx
    exact exec_powerGovernorSample_of_powered v w i o fl (on conv held) hx

/-! ### Re-plans and plans (R49, R50, R282, R283, R422, R427) -/

section Plans

variable {s : State} {t : Nat}

theorem State.fault0_replanCmds (s : State) (unit reason num : Nat) :
    (s.fault0 unit reason num).pwr.replanCmds = s.pwr.replanCmds := by
  have saved := s.fault0_saves unit reason num
  rw [State.Saves] at saved
  rw [saved]

/-- Raising setpoints leaves the REPLANs that wait. -/
theorem State.raiseOne_replanCmds (s : State) (d raise ref : Nat) :
    (s.raiseOne d raise ref).pwr.replanCmds = s.pwr.replanCmds := by
  simp only [State.raiseOne, State.raiseTo]
  split
  · exact State.fault0_replanCmds _ _ _ _
  · rfl

theorem State.raiseGroup_replanCmds (s : State) (g : Nat) : (s.raiseGroup g).pwr.replanCmds = s.pwr.replanCmds := by
  simp only [State.raiseGroup]
  split <;> rfl

theorem foldl_replanCmds {α : Type} {f : State → α → State}
    (h : ∀ (s : State) a, (f s a).pwr.replanCmds = s.pwr.replanCmds) (l : List α) (s : State) :
    (l.foldl f s).pwr.replanCmds = s.pwr.replanCmds := by
  induction l generalizing s with
  | nil => rfl
  | cons a l ih => exact (ih _).trans (h s a)

theorem exec_replanMeasureDone_of_idle (m : PlanInput) (r x : List Nat)
    (idle : (s.start t).pwr.replanning = false ∨ (s.start t).plan.cur.ver = 0) :
    exec (.replanMeasureDone t m r x) s = .next (s.start t) :=
  if_pos (by simpa using idle)

/-- A re-plan for which no REPLAN waits raises setpoints and issues its plan. -/
theorem exec_replanMeasureDone_of_replanning {m : PlanInput} {r x : List Nat} {a b : State}
    (busy : (s.start t).pwr.replanning = true) (planned : (s.start t).plan.cur.ver ≠ 0)
    (none : (s.start t).pwr.replanCmds = [])
    (ha : a = (List.range 64).foldl (fun s d => s.raiseOne d (nth x d) (nth r d)) (s.start t))
    (hb : b = (List.range 6).foldl (fun s g => s.raiseGroup g) a) :
    exec (.replanMeasureDone t m r x) s = .next (State.issue { b with
      plan := { b.plan with meas := m }
      pwr := { b.pwr with replanning := false, replanDone := true, lastReplan := b.powerOn, replanCmds := [] } } 2
      id) := by
  have waiting : b.pwr.replanCmds = [] := by
    rw [hb, foldl_replanCmds State.raiseGroup_replanCmds, ha,
      foldl_replanCmds (fun s d => s.raiseOne_replanCmds d _ _), none]
  change execReplanMeasureDone t m r x s = _
  simp only [execReplanMeasureDone]
  rw [if_neg (by rw [busy]; simpa using planned), ← ha, ← hb, waiting]
  rfl

theorem State.takeCuts_eq (s : State) : s.takeCuts = if ∃ c ∈ s.plan.cutAt, c ≤ s.now then
      let x := s.applyCuts true
      { x with plan := { x.plan with cutAt := x.plan.cutAt.filter fun c => decide (x.now < c) } }
    else s :=
  if_congr (by simp) rfl rfl

theorem exec_planEffective (s : State) (t : Nat) : exec (.planEffective t) s =
    match (s.start t).takeCuts.plan.pend with
    | none => .next (s.start t).takeCuts
    | some p => .next (if (s.start t).takeCuts.now < p.effective then (s.start t).takeCuts
        else (s.start t).takeCuts.takePlan p) := rfl

end Plans

/-- Settles O29: a re-plan by what waits for it, and a plan's beginning by the pending plan and its count. -/
theorem planRows : Obligations.PlanRows := by
  rintro s _ t rfl
  refine ⟨exec_replanMeasureDone_of_idle, ?_, ?_⟩
  · rintro m r x busy planned none a b ha hb
    exact exec_replanMeasureDone_of_replanning busy planned none ha hb
  · intro w hw
    have cuts : (s.start t).takeCuts = w := by
      rw [hw, State.takeCuts_eq]
    rw [exec_planEffective, cuts]
    refine ⟨fun none => ?_, fun p pend early => ?_, ?_⟩
    · rw [none]
    · rw [pend]
      exact congrArg _ (if_pos early)
    · intro p pend due x hx
      rw [pend, hx]
      exact congrArg _ (if_neg (Nat.not_lt.2 due))

end Sys2Proof.Machine

/-! SUPPORT. A packet from its delivery to its admission (R36, R42, R43, R95, R243 to R246, R260, R261, R264, R328), and
what follows: O58. -/

namespace Sys2Proof.Machine

open Sys2Proof

/-! ### Delivery (R243, R245, R260) -/

/-- The rows of the Barfin opcodes, each with its opcode. -/
def barfinRows (t q : Nat) (p : Packet) (env : ReadEnv) : List (Instr × Nat) :=
  [(.fill t q p env, 0x01), (.copy t q p env, 0x02), (.compare t q p env, 0x03), (.reduce t q p env, 0x10),
    (.scatterAdd t q p env, 0x11), (.gather t q p env, 0x12), (.recipe t q p env, 0x13), (.matmul t q p env, 0x14),
    (.synth t q p env, 0x15), (.hint t q p env, 0x20), (.pin t q p env, 0x21), (.unpin t q p env, 0x22),
    (.pageIn t q p env, 0x23), (.pageOut t q p env, 0x24), (.open_ t q p env, 0x30), (.publish t q p env, 0x31),
    (.close t q p env, 0x32), (.snapshot t q p env, 0x40), (.drain t q p env, 0x41), (.restore t q p env, 0x42),
    (.grant t q p env, 0x50), (.revoke t q p env, 0x51), (.resize t q p env, 0x52), (.query t q p env, 0x53),
    (.reserve t q p env, 0x60), (.release t q p env, 0x61), (.fence t q p env, 0x70), (.waitCount t q p env, 0x71),
    (.mark t q p env, 0x72), (.keyLoad t q p env, 0x80), (.keyDrop t q p env, 0x81), (.planSet t q p env, 0xF0),
    (.powerSet t q p env, 0xF1), (.replan t q p env, 0xF2), (.altReset t q p env, 0xF3),
    (.calendarSet t q p env, 0xF4), (.testOpen t q p env, 0xF5), (.replay t q p env, 0xF6), (.fwStage t q p env, 0xF7)]

/-- A row delivers one packet of its opcode, and its opcode is defined. -/
theorem exec_barfinRow {t q op : Nat} {p : Packet} {env : ReadEnv} {i : Instr} (h : (i, op) ∈ barfinRows t q p env)
    (s : State) : exec i s = .next (s.barfin t q op p env) ∧ knownOp op = true ∧ op < 2 ^ 8 := by
  have rows : ∀ e ∈ barfinRows t q p env, exec e.1 s = .next (s.barfin t q e.2 p env) := by
    simp only [barfinRows, List.forall_mem_cons, List.not_mem_nil, IsEmpty.forall_iff, implies_true, and_true]
    and_intros
    all_goals rfl
  have ops : ∀ o ∈ (barfinRows t q p env).map (·.2), knownOp o = true ∧ o < 2 ^ 8 := by
    simp only [barfinRows, List.map]
    decide
  exact ⟨rows (i, op) h, ops op (List.mem_map_of_mem h)⟩

theorem pkOp_withOp (p : Packet) {op : Nat} (h : op < 2 ^ 8) : pkOp (withOp p op) = op := by
  have mask : (~~~ BitVec.ofNat 512 ((2 ^ 8 - 1) <<< 0)).toNat % 2 ^ 8 = 0 := by decide +kernel
  have low : (BitVec.ofNat 512 (at_ 0 8 op)).toNat % 2 ^ 8 = op := by
    rw [BitVec.toNat_ofNat, Nat.mod_mod_of_dvd _ (Nat.pow_dvd_pow 2 (by decide : 8 ≤ 512)), at_, Nat.shiftLeft_zero,
      Nat.mod_mod, Nat.mod_eq_of_lt h]
  simp only [pkOp, pk, bytesN, fld, withOp, setFld, Nat.mul_zero, Nat.shiftRight_zero, BitVec.toNat_or,
    BitVec.toNat_and,
    Nat.mul_one, Nat.or_mod_two_pow, Nat.and_mod_two_pow]
  rw [mask, low, Nat.and_zero, Nat.zero_or]

section Delivery

variable {s u : State} {v : Queue} {t q op : Nat} {p : Packet} {env : ReadEnv}

/-- One packet of an outstanding read arrives at a queue that takes packets (R243, R252). -/
theorem State.deliver_one (hv : v = u.queue q) (reading : 1 ≤ v.fetching) (kept : v.fetchDrop = false)
    (taking : v.state = 1 ∨ v.state = 2) : u.deliver q [p] env = u.fetched q p env := by
  obtain ⟨k, hk⟩ : ∃ k, v.fetching = k + 1 := ⟨v.fetching - 1, by omega⟩
  subst hv
  have open_ : ¬((u.queue q).fetchDrop || ((u.queue q).state != 1 && (u.queue q).state != 2)) = true := by
    rcases taking with h | h <;> simp [kept, h]
  simp only [State.deliver]
  rw [if_neg (by simp [hk]), if_neg open_, hk, List.take_succ_cons, List.take_nil, List.foldl_cons, List.foldl_nil]

theorem State.barfin_of_reading (hu : u = s.startTies t env) (hv : v = u.queue q) (reading : 1 ≤ v.fetching)
    (kept : v.fetchDrop = false) (taking : v.state = 1 ∨ v.state = 2) :
    s.barfin t q op p env = u.fetched q (withOp p op) env := by
  have outstanding : ¬(u.queue q).fetching = 0 := by
    rw [← hv]
    omega
  simp only [State.barfin]
  rw [← hu, if_neg outstanding]
  exact State.deliver_one hv reading kept taking

end Delivery

/-! ### The checks in order (R261) -/

section Checks

variable {s : State} {q n : Nat} {p : Packet} {stamp : Count} {ok again : Bool} {d e : Option Count} {env : ReadEnv}
  {c : Ask}

theorem State.packet_of_no_plan (hc : c = ⟨(s.queue q).allotment, q, n, p, stamp, e.getD stamp⟩)
    (none : s.plan.cur.ver = 0) : s.packet q n p stamp ok again d e env = s.refuseCmd c 0x0F 0 0 again := by
  subst hc
  exact if_pos none

theorem State.packet_of_barred (hc : c = ⟨(s.queue q).allotment, q, n, p, stamp, e.getD stamp⟩)
    (planned : s.plan.cur.ver ≠ 0) (known : knownOp (pkOp p) = true)
    (barred : (0xF0 ≤ pkOp p ∧ (s.queue q).allotment ≠ 0) ∨ (s.allot (s.queue q).allotment).state = 3) :
    s.packet q n p stamp ok again d e env = s.refuseCmd c 0x0C 0 0 again := by
  subst hc
  simp only [State.packet]
  rw [if_neg planned, if_neg (by simp [known]), if_pos (by simpa using barred)]

/-- A packet that has passed the checks before the header's: a plan, a defined opcode, an allotment that may use it. -/
structure State.Passes (s : State) (q : Nat) (p : Packet) : Prop where
  planned : s.plan.cur.ver ≠ 0
  known : knownOp (pkOp p) = true
  may : pkOp p < 0xF0 ∨ (s.queue q).allotment = 0
  sound : (s.allot (s.queue q).allotment).state ≠ 3

theorem State.Passes.not_barred (h : s.Passes q p) :
    ¬((0xF0 ≤ pkOp p ∧ ((s.queue q).allotment != 0) = true) ∨ (s.allot (s.queue q).allotment).state = 3) := by
  rintro (⟨management, other⟩ | faulted)
  · rcases h.may with h | h
    · omega
    · simp [h] at other
  · exact h.sound faulted

theorem State.packet_of_header (hc : c = ⟨(s.queue q).allotment, q, n, p, stamp, e.getD stamp⟩) (h : s.Passes q p)
    (bad : d = none ∨ e = none ∨ ok = false ∨ headReserved p = true) :
    s.packet q n p stamp ok again d e env = s.refuseCmd c 0x0B 0 0 again := by
  subst hc
  simp only [State.packet]
  rw [if_neg h.planned, if_neg (by simp [h.known]), if_neg h.not_barred]
  rcases d with - | l
  · rfl
  rcases e with - | f
  · rfl
  exact if_pos (by simpa using bad)

theorem State.packet_of_sound {l f : Count} (hc : c = ⟨(s.queue q).allotment, q, n, p, stamp, f⟩) (h : s.Passes q p)
    (next : ok = true) (plain : headReserved p = false) :
    s.packet q n p stamp ok again (some l) (some f) env = s.judge c l again env := by
  subst hc
  simp only [State.packet]
  rw [if_neg h.planned, if_neg (by simp [h.known]), if_neg h.not_barred]
  exact if_neg (by simp [next, plain])

theorem State.judge_of_refused {x : State} {st : Nat} {res : BitVec 96} {l : Count}
    (h : s.checkOp c env = (.refuse st res, x)) : s.judge c l again env = x.refuseCmd c st res 0 again := by
  simp only [State.judge, h]

theorem State.judge_of_ok {x : State} {want : Want} {l : Count} (h : s.checkOp c env = (.ok want, x))
    (near : asksHome c.p = false) : s.judge c l again env = x.putIn c want l again env := by
  simp [State.judge, h, near]

/-- The Colander decides of a command of a part that is not paired. -/
theorem State.putIn_of_unpaired {want : Want} {l : Count} (one : s.tam.pair ≠ 1) (five : s.tam.pair ≠ 5) :
    s.putIn c want l again env = match s.colander c.a (pkClass c.p) (s.isPaced c.p) c.eff l want with
      | .refused st res pr y => y.refuseCmd c st res pr again
      | .admitted inB prio pr y =>
        let b := y.newCmd c want inB prio pr again
        let z := State.admitOp (State.stampWrites { (y.recordCmd c 0 pr again) with
          cmds := (y.recordCmd c 0 pr again).cmds ++ [b]
          nextCmd := (y.recordCmd c 0 pr again).nextCmd + 1 } want.writes c.stamp) b want
        if z.now < c.eff then z else z.startCmd b.id env := by
  have alone : ¬((s.tam.pair = 1 ∨ s.tam.pair = 5) ∧ isPairOp (pkOp c.p) = true) := by simp [one, five]
  simp only [State.putIn]
  rw [if_neg alone] <;> rfl

end Checks

/-- Settles O58: the row delivers its packet, which joins a tie or meets the checks of R261 one after the other. -/
theorem packetsAreJudged : Obligations.PacketsAreJudged := by
  rintro s u w t q op p k env v i d e a row hu hv wf reading kept taking rfl rfl hd he hw
  obtain ⟨delivers, known, small⟩ := exec_barfinRow row s
  have opcode : pkOp (withOp p op) = op := pkOp_withOp p small
  have issuer : (w.queue q).allotment = v.allotment := by
    simp only [hw, State.queue, sget_sput_self _ _ _ _ wf]
    rfl
  rw [delivers, State.barfin_of_reading hu hv reading kept taking]
  have judged : u.fetched q (withOp p op) env = if w.packetWaits v.allotment (withOp p op) = true then
      w.tie ⟨u.now, v.allotment, q, v.fetched, .packet (withOp p op) (pkSeq (withOp p op) == v.seq), env, u.old⟩
      else w.packet q v.fetched (withOp p op) u.now (pkSeq (withOp p op) == v.seq) false d e env := by
    rw [hw, hd, he, hv]
    rfl
  have plan : w.plan = u.plan := by rw [hw]
  have allot : w.allot = u.allot := by rw [hw]; rfl
  refine ⟨fun waits => congrArg _ (judged.trans (if_pos waits)), fun free c hc => ?_⟩
  rw [judged, if_neg (by simp [free])]
  have asked : c = ⟨(w.queue q).allotment, q, v.fetched, withOp p op, u.now, e.getD u.now⟩ := by rw [issuer, hc]
  refine ⟨fun none => ?_, fun planned barred => ?_, fun planned may sound => ?_⟩
  · rw [State.packet_of_no_plan asked (by rw [plan]; exact none)]
  · rw [State.packet_of_barred asked (by rw [plan]; exact planned) (by rw [opcode]; exact known)
      (by rw [opcode, issuer, allot]; exact barred)]
  have passes : w.Passes q (withOp p op) :=
    ⟨by rw [plan]; exact planned, by rw [opcode]; exact known, by rw [opcode, issuer]; exact may,
      by rw [issuer, allot]; exact sound⟩
  refine ⟨fun bad => ?_, fun dl ef hdl hef seq plain => ?_⟩
  · rw [State.packet_of_header asked passes (by simpa using bad)]
  subst hef hdl
  rw [State.packet_of_sound (f := ef) asked passes (by simp [seq]) plain]
  refine ⟨fun st res x refused => congrArg _ (State.judge_of_refused refused), fun x y want passed near one five => ?_⟩
  have decides := (State.judge_of_ok (l := dl) (again := false) passed (by rw [hc]; exact near)).trans
    (State.putIn_of_unpaired one five)
  refine ⟨fun st res pr decided => ?_, fun inB prio pr b z decided hb hz => ?_⟩
  · have decision : x.colander c.a (pkClass c.p) (x.isPaced c.p) c.eff dl want = .refused st res pr y := by
      rw [hc]
      exact decided
    rw [decides, decision]
  · have decision : x.colander c.a (pkClass c.p) (x.isPaced c.p) c.eff dl want = .admitted inB prio pr y := by
      rw [hc]
      exact decided
    rw [decides, decision, hz, hb, hc]
    rfl

end Sys2Proof.Machine

/-! SUPPORT. The end of a command while lines that it wrote are on their way to the other part of its pair (R383, R386),
and what follows: O59 fails. -/

namespace Sys2Proof.Machine

open Sys2Proof

/-- A command whose work runs, neither paced nor ordered. -/
def Cmd.plain : Cmd := { State.reset.newCmd ⟨0, 0, 0, 0, 0, 0⟩ {} false 0 0 false with phase := .running }

/-- A line that command 0 has written and that the partner does not hold yet. -/
def HostReq.farLine : HostReq := { HostReq.blank 0 5 0 0 0 0 0 false with after := 1 }

/-- The part with that command and that line. -/
def State.farWriting : State := { State.reset with cmds := [.plain], waiting := [.farLine] }

/-- The command is kept until the partner holds its lines. -/
theorem State.farWriting_finishOne_cmds : ((State.farWriting.finishOne 0 0 false 0).cmds.map (·.id)) = [0] := by
  decide +kernel

theorem State.farWriting_releaseCmd_cmds :
    ((State.farWriting.releaseCmd { Cmd.plain with phase := .paced }).cmds.map (·.id)) = [] := by decide +kernel

/-- Refutes O59: done work is not released while lines that it wrote wait for the other part, though no request of the
pair's commands is open. -/
theorem not_workBeginsAndEnds : ¬ Obligations.WorkBeginsAndEnds := by
  rintro ⟨-, -, -, ends⟩
  obtain ⟨-, release, -⟩ := ends State.farWriting 0 0 false 0 .plain _ rfl rfl
  have released := release (.inl (by decide +kernel)) (by decide +kernel)
  have ids := congrArg (fun s : State => s.cmds.map (·.id)) released
  rw [State.farWriting_finishOne_cmds] at ids
  exact absurd (ids.trans State.farWriting_releaseCmd_cmds) (by decide)

end Sys2Proof.Machine

/-! SUPPORT. Reports of engines, cores and stations, the counts that work waits for, and what ends then (R20, R36, R44,
R65 to R69, R94, R104, R143, R182, R191, R199, R208, R216, R217, R234, R280, R328, R340), and what follows: O54. -/

namespace Sys2Proof.Machine

open Sys2Proof

/-! ### Engines (R182, R191, R199) -/

section Engines

variable {s : State} {t id eng : Nat} {env : ReadEnv}

theorem exec_synthJobDone_of_none (b : Bool)
    (none : (s.startEnv t env).mxe.jobs.find? (fun j => j.id == id && j.eng == some eng) = none) :
    exec (.synthJobDone t id eng b env) s = .next (s.startEnv t env) := by
  change execSynthJobDone t id eng b env s = _
  simp only [execSynthJobDone, none]

theorem exec_synthJobDone_of_some (b : Bool) {j : SynthJob}
    (found : (s.startEnv t env).mxe.jobs.find? (fun j => j.id == id && j.eng == some eng) = some j) :
    exec (.synthJobDone t id eng b env) s = .next (
      if b then ((s.startEnv t env).engineError eng j.restarted).restartJob id eng
      else ((s.startEnv t env).countJob eng).finishJob id env) := by
  change execSynthJobDone t id eng b env s = _
  simp only [execSynthJobDone, found]
  exact (apply_ite _ _ _ _).symm

/-- An error counts, and past the limit of an interval, again, or within a second it retires the engine (R199). -/
theorem State.engineError_eq {n : Nat} {w : State} (again : Bool)
    (hn : n = if s.mxe.restarts.1 = s.now / 1000000 then s.mxe.restarts.2 else 0)
    (hw : w = { s with mxe := { s.mxe with
      errors := sput 0 s.mxe.errors eng (min (sget 0 s.mxe.errors eng + 1) 65535)
      retries := min (s.mxe.retries + 1) (2 ^ 32 - 1), restarts := (s.now / 1000000, n + 1)
      retryLimit := s.mxe.retryLimit || decide (64 ≤ n), firstErr := sins s.mxe.firstErr eng s.now } }) :
    s.engineError eng again = if 64 ≤ n ∨ again = true ∨
      (∃ f, sfind s.mxe.firstErr eng = some f ∧ s.now < f + 1000000000) then w.retireEngine eng else w := by
  subst hn hw
  unfold State.engineError
  refine if_congr ?_ rfl rfl
  cases h : sfind s.mxe.firstErr eng <;> simp [or_assoc]

end Engines

/-! ### Cores (R208, R216) -/

section Cores

variable {s : State} {t id core : Nat} {env : ReadEnv} {c : Cmd}

theorem State.mayRun_iff (s : State) (c : Cmd) (station : Nat) :
    s.mayRun c station = true ↔ s.cmdBlocked c = false ∧ s.promiseFirst c station = true := by
  simp [State.mayRun]

theorem State.unitsOf_eq (s : State) (c : Cmd) (core : Nat) : s.unitsOf c core =
    if c.phase = .running ∧ isSprig (pkOp c.pkt) = true then
      c.left.filter fun k => s.coreOf (c.unitAddr k) == some core
    else [] := by
  unfold State.unitsOf
  exact if_congr (by simp) rfl rfl

theorem exec_sprigBatchAck_of_none (b : Bool) (none : (s.startEnv t env).cmd id = none) :
    exec (.sprigBatchAck t core id b env) s = .next (s.startEnv t env) := by
  change execSprigBatchAck t core id b env s = _
  simp only [execSprigBatchAck, none]

theorem exec_sprigBatchAck_of_some (b : Bool) (found : (s.startEnv t env).cmd id = some c) :
    exec (.sprigBatchAck t core id b env) s = .next (
      if (s.startEnv t env).unitsOf c core = [] ∨ (s.startEnv t env).mayRun c (core / 132) = false then s.startEnv t env
      else if b then (s.startEnv t env).coreError core
      else if ((s.startEnv t env).proxyWait c env).1 then ((s.startEnv t env).proxyWait c env).2
      else ((s.startEnv t env).proxyWait c env).2.runBatch c core env) := by
  change execSprigBatchAck t core id b env s = _
  simp only [execSprigBatchAck, found]
  simp only [apply_ite Host.Outcome.next]
  exact if_congr (by simp) rfl rfl

/-- Work that misses no tile is done, and what it read from output buffers is given up (R24, R182). -/
theorem State.withTiles_of_present {run : State → State} (promise : Count) (present : (run s).mxe.want = []) :
    s.withTiles id promise run = (true, { run s with mxe := { (run s).mxe with
      outs := (run s).mxe.outs.filter fun o => o.cmd != id } }) := by
  simp only [State.withTiles, present, List.isEmpty_nil, if_true]

theorem State.runBatch_of_present {x : State}
    (hx : x = ((s.unitsOf c core).take 4).foldl (fun s k => s.doSprig c.id k env) s) (present : x.mxe.want = []) :
    s.runBatch c core env = { x with
      mxe := { x.mxe with outs := x.mxe.outs.filter fun o => o.cmd != c.id }
      spr := { x.spr with restarting := x.spr.restarting.filter (· != core) } } := by
  subst hx
  have done := State.withTiles_of_present (id := c.id)
    (run := fun s => ((s.unitsOf c core).take 4).foldl (fun s k => s.doSprig c.id k env) s) c.promise present
  simp only [State.runBatch, done, if_true]

theorem State.coreBusy_iff (s : State) (core : Nat) : s.coreBusy core = true ↔ ∃ c ∈ s.cmds, s.unitsOf c core ≠ [] := by
  simp [State.coreBusy]

/-- An error counts, and past the limit of an interval, again, or within a second it retires the core (R216). -/
theorem State.coreError_eq {k : Nat} {w : State}
    (hk : k = if s.spr.restarts.1 = s.now / 1000000 then s.spr.restarts.2 else 0)
    (hw : w = { s with spr := { s.spr with
      errors := sput 0 s.spr.errors core (min (sget 0 s.spr.errors core + 1) 65535)
      retries := min (s.spr.retries + 1) (2 ^ 32 - 1), restarts := (s.now / 1000000, k + 1)
      retryLimit := s.spr.retryLimit || decide (256 ≤ k), firstErr := sins s.spr.firstErr core s.now
      restarting := core :: s.spr.restarting.filter (· != core) } }) :
    s.coreError core = if 256 ≤ k ∨ core ∈ s.spr.restarting ∨
      (∃ f, sfind s.spr.firstErr core = some f ∧ s.now < f + 1000000000) then w.retireCore core else w := by
  subst hk hw
  unfold State.coreError
  refine if_congr ?_ rfl rfl
  cases h : sfind s.spr.firstErr core <;> simp [or_assoc]

end Cores

/-! ### Stations (R182, R209, R217) -/

section Stations

variable {s u : State} {t id st : Nat} {env : ReadEnv} {c d : Cmd}

theorem State.cmd_id (found : s.cmd id = some c) : c.id = id := by
  simpa using List.find?_some found

/-- What a change of one command leaves it. -/
theorem State.cmd_modCmd {f : Cmd → Cmd} (keeps : ∀ c, (f c).id = c.id) (found : s.cmd id = some c) :
    (s.modCmd id f).cmd id = some (f c) := by
  have same : (fun d : Cmd => d.id == id) ∘ (fun d : Cmd => if d.id == id then f d else d) = fun d => d.id == id := by
    funext d
    by_cases h : d.id = id <;> simp [h, keeps]
  unfold State.cmd at found
  simp only [State.cmd, State.modCmd, List.find?_map, same, found, Option.map_some]
  simp [State.cmd_id found]

theorem exec_stationReport_of_none (hu : u = s.startTies t env) (none : u.cmd id = none) :
    exec (.stationReport t id st env) s = .next u := by
  subst hu
  change execStationReport t id st env s = _
  simp only [execStationReport, none]

theorem exec_stationReport_of_some (hu : u = s.startTies t env) (found : u.cmd id = some c) :
    exec (.stationReport t id st env) s = .next (
      if c.phase ≠ .running ∨ st ∉ c.stations ∨ u.cmdBlocked c = true ∨ u.promiseFirst c st = false then u
      else (u.stationRun c st env).drainOrder env) := by
  subst hu
  change execStationReport t id st env s = _
  simp only [execStationReport, found, apply_ite Host.Outcome.next]
  exact if_congr (by simp [State.mayRun, or_iff_not_imp_left]) rfl rfl

/-- A station that misses no tile does its part, and reports when nothing of it is left. -/
theorem State.stationRun_of_present {w x : State} (here : s.proxyWait c env = (false, w))
    (hx : x = w.stationWork c st env) (present : x.mxe.want = [])
    (hu : u = { x with mxe := { x.mxe with outs := x.mxe.outs.filter fun o => o.cmd != c.id } })
    (found : u.cmd c.id = some d) :
    s.stationRun c st env = if d.phase = .running ∧ d.stationDone st = true then u.report c.id st else u := by
  subst hx
  have done := State.withTiles_of_present (id := c.id) (run := fun s => s.stationWork c st env) c.promise present
  rw [← hu] at done
  simp only [State.stationRun, here, done, found, Bool.false_eq_true, if_false]
  exact if_congr (by simp) rfl rfl

theorem State.report_eq (found : s.cmd id = some c) (hu : u = { s with cmds := s.cmds.map fun c =>
      if c.id = id then { c with stations := c.stations.filter (· != st) } else c }) :
    s.report id st = if c.stations.filter (· != st) = [] then u.endWork id else u := by
  have left := State.cmd_modCmd (f := fun c => { c with stations := c.stations.filter (· != st) }) (fun _ => rfl) found
  have same : s.modCmd id (fun c => { c with stations := c.stations.filter (· != st) }) = u := by
    subst hu
    simp [State.modCmd]
  unfold State.report
  rw [same] at left ⊢
  simp only [left]
  exact if_congr (by simp) rfl rfl

end Stations

/-! ### Launch counts and replays (R36, R328, R340) -/

section Launches

variable {s u : State} {t id : Nat} {env : ReadEnv} {c : Cmd}

theorem exec_launchCountReached_of_none (hu : u = s.startTies t env) (none : u.cmd id = none) :
    exec (.launchCountReached t id env) s = .next u := by
  subst hu
  change execLaunchCountReached t id env s = _
  simp only [execLaunchCountReached, none]

theorem exec_launchCountReached_of_early (hu : u = s.startTies t env) (found : u.cmd id = some c)
    (early : c.phase ≠ .held ∨ u.now < c.eff) : exec (.launchCountReached t id env) s = .next u := by
  subst hu
  change execLaunchCountReached t id env s = _
  simp only [execLaunchCountReached, found]
  exact if_pos (by simpa using early)

theorem exec_launchCountReached_of_held (hu : u = s.startTies t env) (found : u.cmd id = some c)
    (held : c.phase = .held) (reached : c.eff ≤ u.now) : exec (.launchCountReached t id env) s = .next (
      if c.keyed = true then (sortBy Cmd.keyBefore (u.cmds.filter fun d => d.phase == .held &&
        (d.id == id || (d.keyed && d.keyBefore c)))).foldl (fun s d => s.launch d.id env) u
      else u.launch c.id env) := by
  subst hu
  change execLaunchCountReached t id env s = _
  simp only [execLaunchCountReached, found]
  rw [if_neg (by simpa [held] using reached)]
  split <;> rfl

theorem exec_replayInject_of_none (hu : u = s.startTies t env) (none : u.det.replay = none) :
    exec (.replayInject t env) s = .next u := by
  subst hu
  change execReplayInject t env s = _
  simp only [execReplayInject, none]

theorem exec_replayInject_of_early {r : LogRec} {l : List LogRec} {d : Nat} (hu : u = s.startTies t env)
    (next : u.det.replay = some (r :: l, d)) (early : u.now < r.stamp + d) :
    exec (.replayInject t env) s = .next u := by
  subst hu
  change execReplayInject t env s = _
  simp only [execReplayInject, next, early, if_true]

/-- The next record is taken at its count, and the replay goes on with the one after it. -/
theorem exec_replayInject_of_due {r r' : LogRec} {l : List LogRec} {d : Nat} (hu : u = s.startTies t env)
    (next : u.det.replay = some (r :: r' :: l, d)) (due : r.stamp + d ≤ u.now) :
    exec (.replayInject t env) s = .next
      (State.injectRecord { u with det := { u.det with replay := some (r' :: l, d) } } r d (r.stamp + d) env) := by
  subst hu
  change execReplayInject t env s = _
  simp only [execReplayInject, next, if_neg due.not_gt, List.isEmpty_cons, Bool.false_eq_true, if_false]

theorem State.injectRecord_of_skipped {r : LogRec} {d k : Nat} (skipped : s.skipsRecord r = true) :
    s.injectRecord r d k env = { s with det := { s.det with
      skipped := min (s.det.skipped + 1) (2 ^ 32 - 1), skippedBit := true } } := by
  simp only [State.injectRecord, skipped, if_true]
  rfl

/-- A record with a deadline of its own and no launch count is a packet at its count. -/
theorem State.injectRecord_of_relative {r : LogRec} {d k : Nat} (taken : s.skipsRecord r = false)
    (relative : pkFlag r.pkt 2 = true) (unheld : pkFlag r.pkt 3 = false) :
    s.injectRecord r d k env = State.packet { s with
      det := { s.det with replayPos := r.stamp }
      queues := sput .init s.queues r.queue { s.queue r.queue with inflight := (s.queue r.queue).inflight + 1 } }
      r.queue r.n r.pkt k true true (deadlineOf r.pkt k) (some k) env := by
  simp only [State.injectRecord, taken, relative, unheld, Bool.false_eq_true, if_false, if_true]
  rfl

end Launches

/-! ### What ends at a count, or when earlier work is done (R66 to R69, R94, R96, R143, R234, R280) -/

section Ends

variable {s u : State} {t id e : Nat} {env : ReadEnv} {c : Cmd} {x : Extent}

theorem exec_resizeMoveComplete_of_none (hu : u = s.startEnv t env) (none : (u.cmds.find? fun c =>
      c.phase == .running && pkOp c.pkt == 0x52 && pk c.pkt 32 2 == e) = none) :
    exec (.resizeMoveComplete t e env) s = .next u := by
  subst hu
  change execResizeMoveComplete t e env s = _
  simp only [execResizeMoveComplete, none]

theorem exec_resizeMoveComplete_of_some (hu : u = s.startEnv t env) (found : (u.cmds.find? fun c =>
      c.phase == .running && pkOp c.pkt == 0x52 && pk c.pkt 32 2 == e) = some c) :
    exec (.resizeMoveComplete t e env) s = .next (if u.busyBefore e c then u else u.endResize c env) := by
  subst hu
  change execResizeMoveComplete t e env s = _
  simp only [execResizeMoveComplete, found]

theorem exec_sprigCoreTimeout_eq (hu : u = s.start t) (core : Nat) : exec (.sprigCoreTimeout t core) s = .next (
    if u.coreBusy core then u.coreError core else u) := by
  subst hu
  rfl

theorem exec_waitCountReached_of_none (hu : u = s.start t) (none : u.cmd id = none) :
    exec (.waitCountReached t id) s = .next u := by
  subst hu
  change execWaitCountReached t id s = _
  simp only [execWaitCountReached, none]

theorem exec_waitCountReached_of_some (hu : u = s.start t) (found : u.cmd id = some c) :
    exec (.waitCountReached t id) s = .next (
      if pkOp c.pkt = 0x71 ∧ c.phase = .running ∧ nth c.aux 0 ≤ u.now then
        u.finishCmd c.id 0 false (result [(20, 6, nth c.aux 0)])
      else u) := by
  subst hu
  change execWaitCountReached t id s = _
  simp only [execWaitCountReached, found, State.endWait]

theorem exec_snapshotRelease_of_none (hu : u = s.start t) (none : u.cmd id = none) :
    exec (.snapshotRelease t id) s = .next u := by
  subst hu
  change execSnapshotRelease t id s = _
  simp only [execSnapshotRelease, none]

theorem exec_snapshotRelease_of_some (hu : u = s.start t) (found : u.cmd id = some c) :
    exec (.snapshotRelease t id) s = .next (
      if pkOp c.pkt ≠ 0x40 ∨ c.phase ≠ .running ∨ c.left ≠ [] then u
      else State.programsSettle (((u.unlock id).pruneLocks).modCmd id fun c =>
        { c with result := result [(20, 6, u.now)] }) id) := by
  subst hu
  change execSnapshotRelease t id s = _
  simp only [execSnapshotRelease, found, apply_ite Host.Outcome.next]
  exact if_congr (by simp) rfl rfl

theorem exec_revokeComplete_of_none (hu : u = s.start t) (none : u.cmd id = none) :
    exec (.revokeComplete t id) s = .next u := by
  subst hu
  change execRevokeComplete t id s = _
  simp only [execRevokeComplete, none]

theorem exec_revokeComplete_of_revoke (hu : u = s.start t) (found : u.cmd id = some c) (running : c.phase = .running)
    (op : pkOp c.pkt = 0x51) : exec (.revokeComplete t id) s = .next (
      if pk c.pkt 24 1 = 0 then u.endRevoke c (pk c.pkt 32 2)
      else u.endMembership c (pk c.pkt 32 2) (pk c.pkt 25 1)) := by
  subst hu
  change execRevokeComplete t id s = _
  simp [execRevokeComplete, found, running, op]

theorem exec_revokeComplete_of_resize (hu : u = s.start t) (found : u.cmd id = some c) (running : c.phase = .running)
    (op : pkOp c.pkt = 0x52) (he : e = pk c.pkt 32 2) (hx : u.extent e = some x) :
    exec (.revokeComplete t id) s = .next (
      if u.busyBefore e c = true ∨ x.hasPlane = true then u else u.endResize c noEnv) := by
  subst hu he
  change execRevokeComplete t id s = _
  simp [execRevokeComplete, found, running, op, hx]

theorem State.endRevoke_of_some (hx : s.extent e = some x) : s.endRevoke c e =
    if s.busyExtent e = true then s
    else State.digestUpdate (State.finishCmd (x.holders.foldl (fun s n => s.extentEvent n 3 e x) (s.dropExtent e))
      c.id 0 false (result [(20, 6, c.eff)])) := by
  simp only [State.endRevoke, hx, countResult]

theorem State.endMembership_of_some {m : Nat} {w : State} (hx : s.extent e = some x)
    (hw : w = (s.dropMember e m x).setExtent e { x with
      members := x.members.filter (·.1 != m)
      endedViews := x.endedViews.map fun v => if v.1 = m then (m, 0) else v }) : s.endMembership c e m =
    if s.busyMember e m = true then s
    else State.finishCmd (State.release (State.takeBack (x.holders.foldl (fun s n => s.extentEvent n 4 e x) w)
      m e x.base x.size) e) c.id 0 false (result [(20, 6, c.eff)]) := by
  subst hw
  simp only [State.endMembership, hx, countResult]

theorem exec_publishCommit_of_none (hu : u = s.start t) (none : u.cmd id = none) :
    exec (.publishCommit t id) s = .next u := by
  subst hu
  change execPublishCommit t id s = _
  simp only [execPublishCommit, none]

/-- A proxy's set goes home once the writes before its cut are done. -/
theorem exec_publishCommit_of_cutWaits (hu : u = s.start t) (found : u.cmd id = some c) (running : c.phase = .running)
    (op : pkOp c.pkt = 0x31) (he : e = pk c.pkt 24 2) (hx : u.extent e = some x) (waits : c.cutWaits = true) :
    exec (.publishCommit t id) s = .next (
      if u.writesBefore e c.allot (x.cmdSet c.allot e []) x c.eff id = true then u
      else State.drainOrder
        (State.beginPublish (u.modCmd id fun c => { c with left := [] }) { c with left := [] } noEnv) noEnv) := by
  subst hu he
  change execPublishCommit t id s = _
  simp [execPublishCommit, found, running, op, hx, waits, apply_ite Host.Outcome.next]

theorem exec_publishCommit_of_pending {k : PendPub} {l : List PendPub} (hu : u = s.start t) (found : u.cmd id = some c)
    (running : c.phase = .running) (op : pkOp c.pkt = 0x31) (he : e = pk c.pkt 24 2) (hx : u.extent e = some x)
    (waits : c.cutWaits = false) (pending : x.pubs = k :: l) :
    exec (.publishCommit t id) s = .next (
      if k.cmd ≠ id ∨ u.now < c.eff ∨ u.writesBefore e c.allot k.set x c.eff id = true then u
      else u.settlePublish c e x k) := by
  subst hu he
  change execPublishCommit t id s = _
  simp [execPublishCommit, found, running, op, hx, waits, pending, apply_ite Host.Outcome.next]

theorem State.settlePublish_of_bad {k : PendPub} (bad : k.bad = true) :
    s.settlePublish c e x k = (s.unpublish e k).finishCmd c.id 2 false (result [(20, 4, x.ver), (28, 4, 5)]) := by
  simp only [State.settlePublish, bad, if_true]

theorem State.settlePublish_of_open {k : PendPub} (good : k.bad = false)
    (unfrozen : x.freezing c.allot (pk c.pkt 28 4) = false) :
    s.settlePublish c e x k = ((s.commit e k false).remoteCommits e x.pubs.length).finishCmd c.id 0 false
      (result [(20, 4, k.ver), (24, 4, (s.dir.frames.filter fun f =>
        f.2.ext == e && f.2.cut && f.2.fillVer == k.ver).length)]) := by
  simp [State.settlePublish, good, unfrozen]

theorem State.settlePublish_of_freezing {k : PendPub} (good : k.bad = false)
    (freezes : x.freezing c.allot (pk c.pkt 28 4) = true) (ring : c.queue < 4096) :
    s.settlePublish c e x k = ((s.commit e k true).remoteCommits e x.pubs.length).finishCmd c.id 0 false
      (result [(20, 4, k.ver), (24, 4, 0)]) := by
  simp [State.settlePublish, good, freezes, ring.ne]

theorem exec_reservationEffective_eq {w : State} {n cls : Nat} {due : List Cmd} (hw : w = (s.start t).settleShare n cls)
    (hdue : (w.cmds.filter fun c => c.allot == n && c.phase == .running &&
      (pkOp c.pkt == 0x60 || pkOp c.pkt == 0x61) && decide (nth c.aux 0 ≤ w.now)) = due) :
    exec (.reservationEffective t n cls) s = .next
      (due.foldl (fun s c => s.finishCmd c.id 0 false (result [(20, 6, nth c.aux 0)])) w) := by
  subst hw hdue
  rfl

/-- Where no OPEN waits, only the lines leave the filter, and requests that wait for it go on. -/
theorem exec_bisnpResponse_of_noOpen {w : State} {port ld : Nat} {lines : List Nat} {d : Ld} {h : HostPort}
    (hu : u = s.start t) (hd : d = u.ld (ldKey port ld)) (hh : h = u.hport port) (hw : w = { u with ep := { u.ep with
      lds := sput .init u.ep.lds (ldKey port ld) { d with bisnp := d.bisnp.filter fun n => !lines.contains n }
      ports := sput .init u.ep.ports port { h with
        snoop := h.snoop.filter fun e => !(e.1 == ld && lines.contains e.2) } } })
    (closed : ∀ c ∈ u.cmds, pkOp c.pkt ≠ 0x30) :
    exec (.bisnpResponse t port ld lines) s = .next (w.wake .filter 0 noEnv) := by
  subst hd hh
  have noOpen : (w.cmds.filter fun c => pkOp c.pkt == 0x30 && c.phase == .running &&
      w.ldOf c.allot == ldKey port ld && !c.left.isEmpty) = [] := by
    rw [List.filter_eq_nil_iff]
    intro c hc
    subst hw
    simp [closed c hc]
  subst hu
  change execBisnpResponse t port ld lines s = _
  unfold execBisnpResponse
  generalize s.start t = u at *
  have same : (u.modLd (ldKey port ld) fun d => { d with bisnp := d.bisnp.filter fun n => !lines.contains n }).modHport
      port (fun h => { h with snoop := h.snoop.filter fun (l, n) => !(l == ld && lines.contains n) }) = w := by
    subst hw
    rfl
  simp only [same, noOpen, List.foldl_nil]

end Ends

/-- Settles O54: each report is one of the equations above, and the shared rule of tiles, of retirement and of the end
of a command says what follows. -/
theorem workRows : Obligations.WorkRows := by
  unfold Obligations.WorkRows
  refine ⟨fun s u v t id eng core st env hu hv => ⟨?_, ?_, ?_, ?_, ?_, ?_, ?_, ?_, ?_, ?_, ?_, ?_⟩,
    fun s u t id core n cls hu => ⟨?_, ?_, ?_, ?_, ?_, ?_, ?_⟩⟩
  · subst hu
    exact fun none b => exec_synthJobDone_of_none b none
  · subst hu
    intro j found
    refine ⟨?_, fun n w x hn hw hx => ?_⟩
    · rw [exec_synthJobDone_of_some false found, if_neg (by decide)]
      simp [State.countJob]
    · rw [exec_synthJobDone_of_some true found, if_pos rfl, State.engineError_eq j.restarted hn hw, ← hx]
      simp [State.restartJob]
  · subst hu
    exact fun none b => exec_sprigBatchAck_of_none b none
  · exact fun none => ⟨exec_stationReport_of_none hv none, exec_launchCountReached_of_none hv none⟩
  · subst hu
    intro c found
    refine ⟨State.unitsOf_eq _ c core, fun blocked b => ?_, fun units free earliest => ⟨?_, fun w waits => ?_,
      fun w x here hx present => ?_⟩⟩
    · rw [exec_sprigBatchAck_of_some b found, if_pos]
      simpa [State.mayRun, or_iff_not_imp_left] using blocked
    all_goals
      have runs : ¬((s.startEnv t env).unitsOf c core = [] ∨ (s.startEnv t env).mayRun c (core / 132) = false) := by
        simp [State.mayRun, units, free, earliest]
    · rw [exec_sprigBatchAck_of_some true found, if_neg runs, if_pos rfl]
    · rw [exec_sprigBatchAck_of_some false found, if_neg runs, waits]
      rfl
    · rw [exec_sprigBatchAck_of_some false found, if_neg runs, here, ← State.runBatch_of_present hx present]
      rfl
  · intro c found
    refine ⟨fun blocked => ?_, fun w x y d running stands free earliest here hx present hy hd => ?_, fun early => ?_,
      fun held reached unkeyed => ?_, fun held reached keyed => ?_⟩
    · rw [exec_stationReport_of_some hv found, if_pos blocked]
    · have reports : exec (.stationReport t id st env) s = .next ((v.stationRun c st env).drainOrder env) := by
        rw [exec_stationReport_of_some hv found, if_neg (by simp [running, stands, free, earliest])]
      rw [reports, State.stationRun_of_present here hx present hy hd]
      refine ⟨fun undone => ?_, fun q running done hq => ?_⟩
      · rw [if_neg (by rintro ⟨running, done⟩; simp [running, done] at undone)]
      · rw [State.cmd_id found] at hd ⊢
        rw [if_pos ⟨running, done⟩, State.report_eq hd hq]
    · exact exec_launchCountReached_of_early hv found early
    · rw [exec_launchCountReached_of_held hv found held reached, if_neg (by simp [unkeyed])]
      exact ⟨fun synced => by rw [State.launch, if_pos synced], fun unsynced => by simp [State.launch, unsynced]⟩
    · rw [exec_launchCountReached_of_held hv found held reached, if_pos keyed]
  · exact fun e none => exec_resizeMoveComplete_of_none hu none
  · exact fun e c found => exec_resizeMoveComplete_of_some hu found
  · exact exec_replayInject_of_none hv
  · exact fun r l d next early => exec_replayInject_of_early hv next early
  · intro r r' l d next due skipped
    rw [exec_replayInject_of_due hv next due, State.injectRecord_of_skipped (by exact skipped)]
  · intro r r' l d next due taken relative unheld
    rw [exec_replayInject_of_due hv next due, State.injectRecord_of_relative (by exact taken) relative unheld]
    rfl
  · intro idle
    rw [exec_sprigCoreTimeout_eq hu, if_neg fun busy => ?_]
    obtain ⟨c, hc, units⟩ := (u.coreBusy_iff core).mp busy
    exact units (idle c hc)
  · intro k w c hc units hk hw
    rw [exec_sprigCoreTimeout_eq hu, if_pos ((u.coreBusy_iff core).mpr ⟨c, hc, units⟩), State.coreError_eq hk hw]
  · exact fun none => ⟨exec_waitCountReached_of_none hu none, exec_publishCommit_of_none hu none,
      exec_revokeComplete_of_none hu none, exec_snapshotRelease_of_none hu none⟩
  · intro c found
    refine ⟨fun early => ?_, fun op running reached => ?_, fun x e running op he hx => ⟨fun waits => ⟨?_, ?_⟩,
        fun k l waits pending => ?_⟩, fun unsettled => ?_, fun op running left => ?_,
      fun x e running op he hx => ⟨fun whole => ?_, fun m member hm => ?_⟩, fun x e running op he hx => ?_⟩
    · rw [exec_waitCountReached_of_some hu found, if_neg]
      rintro ⟨op, running, reached⟩
      simp [op, running, reached.not_gt] at early
    · rw [exec_waitCountReached_of_some hu found, if_pos ⟨op, running, reached⟩]
    · intro unsettled
      rw [exec_publishCommit_of_cutWaits hu found running op he hx waits, if_pos unsettled]
    · intro clear
      rw [exec_publishCommit_of_cutWaits hu found running op he hx waits, if_neg (by simp [clear])]
    · have settles := exec_publishCommit_of_pending hu found running op he hx waits pending
      refine ⟨fun unsettled => settles.trans (by rw [if_pos unsettled]), fun earliest reached clear => ?_⟩
      rw [settles, if_neg (by simp [earliest, reached, clear])]
      refine ⟨fun bad => ?_, fun good unfrozen => ?_, fun good freezes ring => ?_⟩
      · rw [State.settlePublish_of_bad bad]
      · rw [State.settlePublish_of_open good unfrozen, pending, List.length_cons]
      · rw [State.settlePublish_of_freezing good freezes ring, pending, List.length_cons]
    · rw [exec_snapshotRelease_of_some hu found, if_pos unsettled]
    · rw [exec_snapshotRelease_of_some hu found, if_neg (by simp [op, running, left])]
    · rw [exec_revokeComplete_of_revoke hu found running op, if_pos whole, ← he, State.endRevoke_of_some hx]
      exact ⟨fun busy => by rw [if_pos busy], fun idle => by rw [if_neg (by simp [idle])]⟩
    · rw [exec_revokeComplete_of_revoke hu found running op, if_neg member, ← he, ← hm]
      refine ⟨fun busy => ?_, fun w idle hw => ?_⟩
      · rw [State.endMembership_of_some hx rfl, if_pos busy]
      · rw [State.endMembership_of_some hx hw, if_neg (by simp [idle])]
    · exact exec_revokeComplete_of_resize hu found running op he hx
  · subst hu
    intro w hw early
    refine (exec_reservationEffective_eq hw (List.filter_eq_nil_iff.mpr fun c hc due => ?_)).trans rfl
    simp only [Bool.and_eq_true, Bool.or_eq_true, beq_iff_eq, decide_eq_true_eq] at due
    obtain ⟨⟨⟨whose, running⟩, op⟩, reached⟩ := due
    exact absurd (early c hc whose running op) reached.not_gt
  · subst hu
    intro w c hw due
    exact exec_reservationEffective_eq hw due
  · intro port ld lines d h w hd hh hw closed
    have woken := exec_bisnpResponse_of_noOpen (lines := lines) hu hd hh hw closed
    refine ⟨woken, fun quiet => woken.trans ?_⟩
    have none : ∀ r ∈ w.waiting, r.wait ≠ .order ∧ (r.wait = .filter → r.on ≠ 0) := by
      subst hw
      exact fun r hr => ⟨(quiet r hr).2, fun waits => absurd waits (quiet r hr).1⟩
    rw [State.wake_of_none noEnv none]

end Sys2Proof.Machine

/-! SUPPORT. Writes of the selectors (R86, R106, R126, R151, R175, R200, R219, R237, R306, R367, R389, R412, R426, R427),
and what follows: O12. -/

namespace Sys2Proof.Machine

open Sys2Proof

/-! ### Writes through management BAR0 -/

theorem State.viaBar_of_managed {s : State} (hs : s.managed) (t off : Nat) (f : State → State) :
    (s.start t).viaBar 0 off f = f (s.start t) := by
  obtain ⟨hbar, hrec⟩ := hs
  exact State.viaBar_of_barOn (by simpa using hbar) (.inr (by simpa using hrec)) off f

/-- A command that is a write through management BAR0 has the effect of that write, on a part that is managed. -/
theorem exec_of_managed {s : State} {c : Instr} {t off : Nat} {f : State → State} (hs : s.managed)
    (way : exec c s = .next ((s.start t).viaBar 0 off f)) : exec c s = .next (f (s.start t)) := by
  rw [way, State.viaBar_of_managed hs]

/-! ### Selectors -/

@[simp] theorem State.start_die (s : State) (t : Count) (n : Nat) : (s.start t).die n = s.die n := by
  simp [State.die]

/-- Settles O12: each selector is a write through management BAR0, and what it selects decides the branch. -/
theorem selectorsTakeTheirSnapshot : Obligations.SelectorsTakeTheirSnapshot := by
  intro s t v hs
  refine ⟨?_, fun x found => ?_, fun absent => ?_, fun r found => ?_, fun absent => ?_, fun le => ?_, fun lt => ?_, ?_,
    fun le => ?_, fun lt => ?_, fun x found => ?_, fun absent => ?_, fun le => ?_, fun lt => ?_, ?_, fun le => ?_,
    fun lt => ?_, ?_, ?_, ?_, ?_, ?_, ?_⟩
  all_goals refine (exec_of_managed hs rfl).trans ?_
  · simp only [State.selectEntry, State.start_dir]
  · simp only [State.selectTable, found, State.start_cod]
  · simp only [State.selectTable, absent, State.start_cod]
    rfl
  · simp only [State.selectReservation, found]
  · simp only [State.selectReservation, absent]
  · simp only [State.selectChannel, if_neg (Nat.not_lt.2 le), State.start_drm, State.start_chan]
  · simp only [State.selectChannel, if_pos lt]
  · simp only [State.selectDie, State.fresh, State.start_fls, State.start_die, State.start_free]
  · simp only [State.selectBucket, if_neg (Nat.not_lt.2 le), State.start_int, State.start_chan]
  · simp only [State.selectBucket, if_pos lt]
  · simp only [State.selectVersion, found, State.start_ext]
  · simp only [State.selectVersion, absent, State.start_ext]
  · simp only [State.selectEngine, if_neg (Nat.not_lt.2 le), State.start_mxe]
  · simp only [State.selectEngine, if_pos lt]
  · simp only [State.selectComposite, State.start_mxe]
  · simp only [State.selectCore, if_neg (Nat.not_lt.2 le), State.start_spr]
  · simp only [State.selectCore, if_pos lt]
  · simp only [State.selectPort, State.start_ep, State.start_hport]
  · simp only [State.selectLd, State.start_ep, State.start_ld]
  · simp only [State.selectTam, State.start_tam, State.start_tport]
  · simp only [State.selectSlot, State.start_sec, State.start_slot]
  · simp only [State.selectPower, State.start_pwr, State.start_dom]
  · simp only [State.selectAge, State.start_pwr, State.start_dom]

end Sys2Proof.Machine

/-! SUPPORT. Writes of the working floor, the code tables and the recipes (R77, R86, R154, R156, R175, R203, R204, R219,
R336), and what follows: O13. -/

namespace Sys2Proof.Machine

open Sys2Proof

/-! ### One bit of a written word -/

theorem bitOf_setBit {w : Nat} (v : BitVec w) {i j : Nat} (b : Bool) (h : j < w) :
    bitOf (setBit v i b) j = if j = i then b else bitOf v j := by
  have mask : (BitVec.ofNat w (1 <<< i)).getLsbD j = decide (i = j) := by
    rw [BitVec.getLsbD_ofNat, Nat.one_shiftLeft, Nat.testBit_two_pow]
    simp [h]
  have put : at_ i 1 (cond b 1 0) = cond b (1 <<< i) 0 := by cases b <;> simp [at_]
  have bits : bitOf (setBit v i b) j = (bitOf v j && !decide (i = j) || decide (i = j) && b) := by
    rw [bitOf, setBit, setFld, put, Nat.pow_one, BitVec.getLsbD_or, BitVec.getLsbD_and, BitVec.getLsbD_not, mask]
    cases b <;> simp [bitOf, mask, h, -BitVec.getLsbD_eq_getElem]
  rw [bits]
  rcases eq_or_ne i j with rfl | e
  · simp
  · simp [e, e.symm]

/-! ### Slots that may be written -/

/-- A slot takes nothing when it is below the first that may be written, is in use, or is given a bad image. -/
theorem slotRefused_iff (first k users : Nat) (ok : Bool) :
    (k < first ∨ users != 0 ∨ !ok) ↔ ¬(first ≤ k ∧ users = 0 ∧ ok = true) := by
  simp only [bne_iff_ne, Bool.not_eq_true', not_and_or, Nat.not_le, Bool.not_eq_true, ne_eq]

/-! ### Code tables (R154, R156) -/

/-- A LOAD takes ELEM, and with it the selected slot or the error bit. -/
theorem State.tableCtrl_of_load {s : State} {v : Reg32} (load : bitOf v 0 = true) {k : Nat}
    (hk : k = fld s.cod.tblSel 0 10) :
    s.tableCtrl v = if 2 ≤ k ∧ s.tableBound k = 0 ∧ s.bufferOk = true then
        State.digestUpdate { s with cod := { s.cod with
          elem := bitOf v 1, slots := sins s.cod.slots k (bitOf v 1, s.cod.buf) } }
      else { s with cod := { s.cod with elem := bitOf v 1, status := setBit s.cod.status 1 true } } := by
  subst hk
  rw [State.tableCtrl, load, if_neg (by decide)]
  exact (if_congr (slotRefused_iff 2 _ (s.tableBound _) s.bufferOk) rfl rfl).trans (ite_not ..)

/-- A binding remembers the slot that it replaces, and a second one at the same count the slot of before both (R156). -/
theorem State.rebind_of_bound {s : State} {v : Reg32} {x : Extent} (found : s.extent s.cod.extSel.toNat = some x)
    (exp : x.codec = 1) (table : (s.codeTable (fld v 0 10)).isSome = true) (unwritten : x.written = none) :
    s.rebind v = State.digestUpdate { s with
      ext := { s.ext with tbl := sins s.ext.tbl s.cod.extSel.toNat { x with
        slot := fld v 0 10
        rebound := some (s.now, match x.rebound with
          | some (c, j) => if c = s.now then j else x.slot
          | none => x.slot) } }
      cod := { s.cod with extTable := setFld s.cod.extTable 0 10 (fld v 0 10) } } := by
  simp only [State.rebind, found]
  rw [if_neg (by simp [exp, unwritten, ← Option.not_isSome, table])]
  rfl

theorem State.rebind_of_refused {s : State} {v : Reg32}
    (bad : ∀ x, s.extent s.cod.extSel.toNat = some x →
      x.codec ≠ 1 ∨ (s.codeTable (fld v 0 10)).isSome = false ∨ x.written ≠ none) :
    s.rebind v = s.codBit 2 := by
  rw [State.rebind]
  split
  · rfl
  · next x found =>
    refine if_pos ?_
    simpa [← Option.isSome_iff_ne_none, or_assoc] using bad x found

/-! ### Recipes (R203, R204, R219) -/

theorem State.loadRecipe_eq {s : State} {k : Nat} (hk : k = fld s.spr.rcpSel 0 6) :
    s.loadRecipe = if 16 ≤ k ∧ s.recipeUsers k = 0 ∧ imageOk s.spr.buf = true then
        State.digestUpdate { s with spr := { s.spr with
          slots := sins s.spr.slots k s.spr.buf, allow := sput (BitVec.allOnes 64) s.spr.allow k 1 } }
      else { s with spr := { s.spr with rcpErr := true } } := by
  subst hk
  exact (if_congr (slotRefused_iff ..) rfl rfl).trans (ite_not ..)

theorem State.clearRecipe_eq {s : State} {k : Nat} (hk : k = fld s.spr.rcpSel 0 6) :
    s.clearRecipe = if 16 ≤ k ∧ s.recipeUsers k = 0 then
        State.digestUpdate { s with spr := { s.spr with slots := sdel s.spr.slots k } }
      else { s with spr := { s.spr with rcpErr := true } } := by
  have refuses : (k < 16 ∨ s.recipeUsers k != 0) ↔ ¬(16 ≤ k ∧ s.recipeUsers k = 0) := by
    simp only [bne_iff_ne, not_and_or, Nat.not_le, ne_eq]
  subst hk
  exact (if_congr refuses rfl rfl).trans (ite_not ..)

theorem State.recipeCtrl_of_load {s : State} {v : Reg32} (load : bitOf v 0 = true) (clear : bitOf v 1 = false) :
    s.recipeCtrl v = s.loadRecipe := by
  simp [State.recipeCtrl, load, clear]

theorem State.recipeCtrl_of_clear {s : State} {v : Reg32} (load : bitOf v 0 = false) (clear : bitOf v 1 = true) :
    s.recipeCtrl v = s.clearRecipe := by
  simp [State.recipeCtrl, load, clear]

/-! ### The obligation -/

/-- Settles O13: each write of a managed part passes the check of its register or sets the error bit of its block. -/
theorem tableAndRecipeWrites : Obligations.TableAndRecipeWrites := by
  rintro s _ t v hs rfl
  refine ⟨fun least most w hw => ?_, fun out => ?_, fun k hk => ?_, ?_, fun x found exp table unwritten => ?_,
    fun bad => ?_, fun k hk alone => ?_, fun k hk alone => ?_⟩
  all_goals refine (exec_of_managed hs rfl).trans (congrArg _ ?_)
  · subst hw
    exact if_neg (by omega)
  · exact if_pos out
  · rw [State.tableCtrl_of_load (by simp [bitOf_setBit]) hk]
    simp [bitOf_setBit]
  · rw [State.grantTable]
    split <;> rfl
  · exact State.rebind_of_bound found exp table unwritten
  · exact State.rebind_of_refused bad
  · rw [State.recipeCtrl_of_load (by simp [bitOf_setBit]) (by simp [bitOf_setBit, alone]), State.loadRecipe_eq hk]
  · rw [State.recipeCtrl_of_clear (by simp [bitOf_setBit, alone]) (by simp [bitOf_setBit]), State.clearRecipe_eq hk]

end Sys2Proof.Machine

/-! SUPPORT. Writes of bindings, aperture sizes and windows (R54 to R56, R73, R74, R84, R85, R351), and what follows:
O15. -/

namespace Sys2Proof.Machine

open Sys2Proof

/-! ### Bindings and apertures (R54 to R56, R84, R351) -/

section Allotments

variable {s : State} {t n : Nat} (v : Reg32)

theorem State.altBind_of_pos (h : 0 < n) : s.altBind n v =
    if s.bindBad n v then s.bindError n
    else
      let w := s.modAllot n fun a => { a with
        bind := v &&& 0x1F7, state := if 2 ≤ a.state then a.state else if bitOf v 8 then 1 else 0 }
      w.sizeAperture (w.ldOf n) := by
  rw [State.altBind, if_neg (Nat.ne_of_gt h)]

theorem exec_altBind_of_managed (hs : s.managed) (h : n < 64) :
    exec (.altBind t n v) s = .next ((s.start t).altBind n v) := by
  change execAltBind t n v s = _
  rw [execAltBind, if_neg (Nat.not_le.2 h), State.viaBar_of_managed hs]

theorem exec_altCtrl_of_managed (hs : s.managed) (h : n < 64) :
    exec (.altCtrl t n v) s = .next ((s.start t).altCtrl n v) := by
  change execAltCtrl t n v s = _
  rw [execAltCtrl, if_neg (Nat.not_le.2 h), State.viaBar_of_managed hs]

theorem exec_altBind_of_no_allotment (h : 64 ≤ n) : exec (.altBind t n v) s = .next (s.start t) := if_pos h

theorem exec_altCtrl_of_no_allotment (h : 64 ≤ n) : exec (.altCtrl t n v) s = .next (s.start t) := if_pos h

end Allotments

theorem State.sizeAperture_eq (s : State) (k : Nat) : s.sizeAperture k =
    if (s.ld k).mse then s.setLd k (s.ld k) else s.setLd k { s.ld k with aperture := s.wantAperture k } :=
  apply_ite (s.setLd k) ..

/-! ### Windows (R73, R74, R85) -/

section Windows

variable {s : State} {t n : Nat}

/-- A commit through management BAR0 is a 64-bit write of a register that keeps its low half (R9, R85). -/
theorem exec_winCommit_of_managed (hs : s.managed) (h : n < 64) (x : Reg64) :
    exec (.winCommit t 0 n x) s = .next (((s.start t).wrote64 (0x48000 + 0x20 * n) true x).winCommit 0 n
      (0x48000 + 0x20 * n) x) := by
  change execWinCommit t 0 n x s = _
  rw [execWinCommit, if_neg (Nat.not_le.2 h), State.ownVia, if_pos (.inl rfl)]
  exact congrArg _ (State.viaBar_of_managed hs ..)

theorem exec_winCommitCountReached_of_due {c : Count} {x : Sparse Window}
    (pending : ((s.start t).allot n).winPend = some (c, x)) (due : c ≤ (s.start t).now) :
    exec (.winCommitCountReached t n) s = .next ((s.start t).modAllot n fun a => { a with
      live := x, winLive := BitVec.ofNat 64 c, winPend := none, winDead := 0 }) := by
  change execWinCommitCountReached t n s = _
  simp only [execWinCommitCountReached, pending, if_pos due]

theorem exec_winCommitCountReached_of_early
    (early : ∀ c x, ((s.start t).allot n).winPend = some (c, x) → (s.start t).now < c) :
    exec (.winCommitCountReached t n) s = .next (s.start t) := by
  change execWinCommitCountReached t n s = _
  rw [execWinCommitCountReached]
  split
  · next c x pending => rw [if_neg (Nat.not_le.2 (early c x pending))]
  · rfl

end Windows

/-! ### The obligation -/

/-- Settles O15: a write of a managed part by the allotment that it names, and a pending set by its count. -/
theorem bindingAndWindowWrites : Obligations.BindingAndWindowWrites := by
  rintro s _ t v hs rfl
  refine ⟨exec_altBind_of_managed v hs (by decide), fun n pos h => ?_, fun n h => ?_,
    fun n h => ⟨exec_altBind_of_no_allotment v h, exec_altCtrl_of_no_allotment v h⟩, State.sizeAperture_eq,
    fun n x o h ho w hw => ?_, fun n c x => exec_winCommitCountReached_of_due,
    fun n => exec_winCommitCountReached_of_early⟩
  · rw [exec_altBind_of_managed v hs h, State.altBind_of_pos v pos]
    rfl
  · rw [exec_altCtrl_of_managed v hs h, State.altCtrl]
    rfl
  · subst ho hw
    rw [exec_winCommit_of_managed hs h, State.winCommit]
    rfl

end Sys2Proof.Machine

/-! SUPPORT. The way of mailbox and FM API commands (R346 to R348, R352, R463), and what follows: O35. -/

namespace Sys2Proof.Machine

open Sys2Proof

/-! ### The mailbox of a logical device (R347, R348, R352) -/

section Mailbox

variable {s : State} {p l : Nat}

theorem State.mailbox_of_closed
    (h : s.allotOf (ldKey p l) = none ∨ ∃ n, s.allotOf (ldKey p l) = some n ∧ s.barOn n = false)
    (f : Nat → Nat → State → State) : s.mailbox p l f = s.emit (.unsupported 0) := by
  rcases h with h | ⟨n, h, off⟩
  · simp [State.mailbox, h]
  · simp [State.mailbox, h, off]

theorem State.mailbox_of_barOn {n : Nat} (bound : s.allotOf (ldKey p l) = some n) (on : s.barOn n = true)
    (f : Nat → Nat → State → State) : s.mailbox p l f = f (ldKey p l) n s := by
  simp [State.mailbox, bound, on]

/-- A mailbox command has its own effect on a logical device whose BARs decode. -/
theorem exec_of_mailbox {c : Instr} {t n : Nat} {f : Nat → Nat → State → State}
    (bound : (s.start t).allotOf (ldKey p l) = some n) (on : (s.start t).barOn n = true)
    (way : exec c s = .next ((s.start t).mailbox p l f)) : exec c s = .next (f (ldKey p l) n (s.start t)) := by
  rw [way, State.mailbox_of_barOn bound on]

end Mailbox

/-! ### Answers -/

/-- An event log of a number other than 0 and 4 does not exist (R348). -/
theorem Ld.eventLog_of_other (d : Ld) {log : Nat} (h0 : log ≠ 0) (h4 : log ≠ 4) : d.eventLog log = none := by
  rw [Ld.eventLog, if_neg h0, if_neg h4]

/-- One answer of two, as the output that the command leaves. -/
theorem State.start_reply_ite (s : State) (t : Nat) (c : Prop) [Decidable c] (a b : Nat) (x y : List Nat) :
    (if c then (s.start t).reply a x else (s.start t).reply b y) =
      { s.start t with out := [if c then .reply a x [] else .reply b y []] } := by
  split <;> rfl

/-! ### The obligation -/

/-- Settles O35: a closed mailbox is unsupported, an open one answers, and the FM API answers by the port's mode. -/
theorem mailboxQueries : Obligations.MailboxQueries := by
  rintro s _ t p l _ rfl rfl
  refine ⟨fun closed log => ⟨?_, ?_⟩, fun n bound on => ?_, ?_, ?_, ?_, fun mld => ?_, fun other => ?_⟩
  · exact congrArg _ (State.mailbox_of_closed closed _)
  · exact congrArg _ (State.mailbox_of_closed closed _)
  · refine ⟨?_, ?_, ?_, fun log h0 h4 => ?noSuchLog, ?_, ?_, ?_, fun off len above => ?beyondLog,
      fun off len within => ?withinLog, ?_, ?capacity, ?capacityExtents⟩
    all_goals refine (exec_of_mailbox bound on rfl).trans (congrArg _ ?_)
    case noSuchLog =>
      rw [Ld.eventLog_of_other _ h0 h4]
      rfl
    case beyondLog => exact if_pos above
    case withinLog => exact if_neg (Nat.not_lt.2 within)
    case capacity => exact State.start_reply_ite ..
    case capacityExtents => exact State.start_reply_ite ..
    all_goals rfl
  · exact congrArg _ (State.start_reply_ite ..)
  · exact congrArg _ (State.start_reply_ite ..)
  · exact congrArg _ (State.start_reply_ite ..)
  · exact congrArg _ (if_pos mld)
  · exact congrArg _ (if_neg other)

end Sys2Proof.Machine

/-! SUPPORT. Where addresses lie: slivers, and the lines of a frame that a channel holds (R108, R201), and what follows:
O11. -/

namespace Sys2Proof.Machine

open Sys2Proof

/-! ### Slivers (R201) -/

theorem sliver_eq (a : Nat) :
    sliver a = (a / 65536 ^^^ (a / 65536) / 2 ^ 12 ^^^ (a / 65536) / 2 ^ 24) % 4096 := by
  simp only [sliver, Nat.shiftRight_eq_div_pow]

/-- The upper bits of a span of an aligned run are those of the run. -/
theorem alignedRun_div_two_pow {k m b i : Nat} (hk : k ≤ m) (hi : i < 2 ^ k) :
    (2 ^ k * b + i) / 2 ^ m = b / 2 ^ (m - k) := by
  rw [← pow_mul_pow_sub 2 hk, ← Nat.div_div_eq_div_mul, Nat.mul_add_div (Nat.two_pow_pos k),
    Nat.div_eq_of_lt hi, Nat.add_zero]

/-- Within an aligned run of `2 ^ k` spans the lowest `k` bits of the sliver are the span's number in the run, XORed
with bits that are the same for the whole run. -/
theorem sliver_mod_of_run {k b i : Nat} (hk : k ≤ 12) (hi : i < 2 ^ k) :
    sliver (65536 * (2 ^ k * b + i)) % 2 ^ k = i ^^^ (b / 2 ^ (12 - k) ^^^ b / 2 ^ (24 - k)) % 2 ^ k := by
  rw [sliver_eq, Nat.mul_div_cancel_left _ (by decide), alignedRun_div_two_pow hk hi,
    alignedRun_div_two_pow (by omega) hi, Nat.mod_mod_of_dvd _ (Nat.pow_dvd_pow 2 hk), Nat.xor_assoc,
    Nat.xor_mod_two_pow, Nat.mul_add_mod, Nat.mod_eq_of_lt hi]

/-- Two spans of an aligned run whose slivers agree in these bits are one. -/
theorem eq_of_sliver_mod_eq {k b i j : Nat} (hk : k ≤ 12) (hi : i < 2 ^ k) (hj : j < 2 ^ k)
    (h : sliver (65536 * (2 ^ k * b + i)) % 2 ^ k = sliver (65536 * (2 ^ k * b + j)) % 2 ^ k) : i = j := by
  rw [sliver_mod_of_run hk hi, sliver_mod_of_run hk hj] at h
  exact Nat.xor_left_injective h

/-! ### The lines of a chunk (R108) -/

theorem lostLines_of_pos {g p : Nat} (hp : p < 9) (f : Nat) : lostLines (9 * g + p) f = linesAt f p := by
  rw [lostLines, Nat.mul_add_mod, Nat.mod_eq_of_lt hp]

/-- A data run holds the 128 lines of its number. -/
theorem mem_linesAt_runPos (f j l : Nat) : l ∈ linesAt f (runPos f j) ↔ l / 128 = j := by
  have notCheck : runPos f j ≠ checkPos f := by grind [runPos]
  have number : (if runPos f j < checkPos f then runPos f j else runPos f j - 1) = j := by grind [runPos]
  simp only [linesAt, if_neg notCheck, number, List.mem_map, List.mem_range]
  constructor
  · rintro ⟨i, hi, rfl⟩
    omega
  · intro h
    exact ⟨l % 128, by omega, by omega⟩

/-- Settles O11: a sliver within its run, and the lines of a frame by the position of the chunk. -/
theorem addressesAreSpread : Obligations.AddressesAreSpread := by
  refine ⟨sliver_eq, fun b i j hi hj same => ?_, fun b i j => eq_of_sliver_mod_eq (k := 5) (by decide), ?_⟩
  · exact eq_of_sliver_mod_eq (k := 12) (by decide) hi hj (congrArg (· % 4096) same)
  · rintro f _ - rfl
    have check : f / 8 % 9 < 9 := Nat.mod_lt _ (by decide)
    refine ⟨?_, fun j hj l => ?_⟩
    · rw [lostLines_of_pos check]
      exact if_pos rfl
    · rw [lostLines_of_pos (by split <;> omega)]
      exact mem_linesAt_runPos f j l

end Sys2Proof.Machine

/-! SUPPORT. Channels: what is read of one that was set, and when its refreshes, pauses and slices may start (R114 to
R117, R119, R362), and what follows: O46. -/

namespace Sys2Proof.Machine

open Sys2Proof

/-! ### A channel that is set -/

/-- The part with channel `ch` as `c`. -/
def State.setChan (s : State) (ch : Nat) (c : Chan) : State :=
  { s with drm := { s.drm with chans := sput .init s.drm.chans ch c } }

section SetChan

variable (s : State) (ch : Nat) (c : Chan)

theorem State.modChan_eq_setChan (f : Chan → Chan) : s.modChan ch f = s.setChan ch (f (s.chan ch)) := rfl

@[simp] theorem State.setChan_now : (s.setChan ch c).now = s.now := rfl

@[simp] theorem State.setChan_recorded : (s.setChan ch c).drm.recorded = s.drm.recorded := rfl

variable {s}

@[simp] theorem State.setChan_chan (wf : swf s.drm.chans = true) : (s.setChan ch c).chan ch = c :=
  sget_sput_self _ _ _ _ wf

@[simp] theorem State.setChan_swf (wf : swf s.drm.chans = true) : swf (s.setChan ch c).drm.chans = true :=
  swf_sput _ _ _ _ wf

end SetChan

/-! ### What holds back refreshes, pauses and slices (R116, R117, R119, R362) -/

theorem State.chanRests_iff (s : State) (ch : Nat) :
    s.chanRests ch = true ↔ (s.chan ch).st = 4 ∨ (s.chan ch).st = 5 ∨ s.ep.lowPower = true := by
  simp [State.chanRests, Chan.out, or_assoc]

theorem State.chanRests_of_serving {s : State} {ch : Nat} (not4 : (s.chan ch).st ≠ 4) (not5 : (s.chan ch).st ≠ 5)
    (awake : s.ep.lowPower = false) : s.chanRests ch = false := by
  simp [State.chanRests, Chan.out, not4, not5, awake]

theorem Chan.near_iff (c : Chan) (now : Count) : c.near now = true ↔ c.lastMaint ≠ 0 ∧ now < c.lastMaint + 2000 := by
  simp [Chan.near]

theorem Chan.near_of_late {c : Chan} {now : Count} (late : c.lastMaint = 0 ∨ c.lastMaint + 2000 ≤ now) :
    c.near now = false := by
  simpa [Chan.near, imp_iff_not_or] using late

theorem Chan.holdTrain_iff (c : Chan) (ch : Nat) (now : Count) : c.holdTrain ch now = true ↔
    (c.lastTrain ≠ 0 ∧ now < c.lastTrain + 2000) ∨ c.nextStop ch now < now + 2000 := by
  simp [Chan.holdTrain]

theorem Chan.holdTrain_of_late {c : Chan} {ch : Nat} {now : Count}
    (trainLate : c.lastTrain = 0 ∨ c.lastTrain + 2000 ≤ now) (stopLate : now + 2000 ≤ c.nextStop ch now) :
    c.holdTrain ch now = false := by
  simpa [Chan.holdTrain, imp_iff_not_or] using And.intro trainLate stopLate

/-- The next pause of a channel is the first count from now on at its place in the 1,000,000 CC (R117). -/
theorem nextPause_spec {ch : Nat} (now : Nat) (h : ch < 72) :
    now ≤ nextPause ch now ∧ nextPause ch now % 1000000 = ch * 13888 ∧ nextPause ch now < now + 1000000 := by
  have place : (now / 1000000 * 1000000 + ch * 13888) % 1000000 = ch * 13888 := by omega
  have above : now ≤ now / 1000000 * 1000000 + ch * 13888 + 1000000 := by omega
  have below : now / 1000000 * 1000000 + ch * 13888 < now + 1000000 := by omega
  simp only [nextPause]
  split
  next ahead => exact ⟨ahead, place, below⟩
  next past => exact ⟨above, (Nat.add_mod_right ..).trans place, Nat.add_lt_add_right (Nat.lt_of_not_le past) _⟩

/-! ### Refreshes (R114 to R116) -/

section Refresh

variable {s u : State} {t ch : Nat} {c : Chan} (hu : u = s.start t) (hc : c = u.chan ch)
include hu

theorem exec_refreshDue_of_rest (busy : Bool) (rests : u.chanRests ch = true) :
    exec (.refreshDue t ch busy) s = .next u := by
  subst hu
  exact if_pos (.inl rests)

theorem exec_pullInRefresh_of_held (n : Nat) (busy : Bool) (held : busy = true ∨ u.chanRests ch = true) :
    exec (.pullInRefresh t ch n busy) s = .next u := by
  subst hu
  exact if_pos (by simpa using held)

include hc

theorem exec_refreshDue_of_early (busy : Bool) (early : u.now < c.due) :
    exec (.refreshDue t ch busy) s = .next u := by
  subst hu hc
  exact if_pos (.inr early)

theorem exec_pullInRefresh_of_idle (n : Nat) (serves : u.chanRests ch = false) :
    exec (.pullInRefresh t ch n false) s = .next (u.setChan ch { c with
      owed := c.owed - n, ahead := min u.pullInMax (c.ahead + (n - c.owed)) }) := by
  subst hu hc
  exact if_neg (by simp [serves])

/-- What becomes of a refresh that has fallen due: taken from those issued ahead, issued on an idle channel, postponed,
issued within an interruption, postponed to one that is near, or forced (R115, R116). -/
theorem exec_refreshDue_of_due {d : Chan} (busy : Bool) (wf : swf u.drm.chans = true) (serves : u.chanRests ch = false)
    (due : c.due ≤ u.now) (hd : d = { c with due := (if c.due = 0 then u.now else c.due) + c.interval }) :
    exec (.refreshDue t ch busy) s = .next ((u.setChan ch d).setChan ch (
      if 0 < c.ahead then { d with ahead := c.ahead - 1 }
      else if busy = false then { d with owed := 0 }
      else if c.owed + 1 < u.postponeMax then { d with owed := c.owed + 1 }
      else if c.near u.now then { d with owed := 0 }
      else if c.holdTrain ch u.now then { d with owed := c.owed + 1 }
      else { d with owed := 0, forced := min (c.forced + 1) 65535, lastTrain := u.now })) := by
  have set : (u.setChan ch d).chan ch = d := State.setChan_chan ch d wf
  change execRefreshDue t ch busy s = _
  simp only [execRefreshDue, ← hu, ← hc, State.modChan_eq_setChan, ← hd, set]
  rw [if_neg (by simp [serves, due])]
  subst hd
  simp only [apply_ite (State.setChan _ ch), apply_ite (Host.Outcome.next (φ := Fault) (ρ := Refusal)),
    Bool.not_eq_true']
  rfl

end Refresh

/-- Settles O46: a refresh by what keeps the channel from it, and one that is due by the first of R115's and R116's
conditions that holds. -/
theorem refreshRows : Obligations.RefreshRows := by
  rintro s u t ch c _ hu hc wf rfl
  refine ⟨fun rests busy n => ?_, fun n => exec_pullInRefresh_of_held hu n true (.inl rfl), fun early busy =>
    exec_refreshDue_of_early hu hc busy early, fun not4 not5 awake => ⟨fun n => ?_, ?_⟩, fun running h => ?_⟩
  · have rests : u.chanRests ch = true := (u.chanRests_iff ch).2 (hc ▸ rests)
    exact ⟨exec_refreshDue_of_rest hu busy rests, exec_pullInRefresh_of_held hu n busy (.inr rests)⟩
  · exact exec_pullInRefresh_of_idle hu hc n (State.chanRests_of_serving (hc ▸ not4) (hc ▸ not5) awake)
  · rintro due d _ rfl hd
    have fallsDue (busy : Bool) := exec_refreshDue_of_due hu hc busy wf
      (State.chanRests_of_serving (hc ▸ not4) (hc ▸ not5) awake) due hd
    refine ⟨fun ahead busy => ?_, fun none => ?_, fun none (below : c.owed + 1 < u.postponeMax) => ?_,
      fun none (full : u.postponeMax ≤ c.owed + 1) => ⟨fun begun recent => ?_,
        fun late => ⟨fun hold => ?_, fun trainLate stopLate => ?_⟩⟩⟩
    all_goals rw [fallsDue]
    · rw [if_pos ahead]
      rfl
    all_goals rw [if_neg (Nat.not_lt.2 none.le)]
    · rfl
    all_goals rw [if_neg (by decide)]
    · rw [if_pos below]
      rfl
    all_goals rw [if_neg (Nat.not_lt.2 full)]
    · rw [if_pos ((c.near_iff _).2 ⟨begun, recent⟩)]
      rfl
    all_goals rw [if_neg (by simp [Chan.near_of_late late])]
    · rw [if_pos ((c.holdTrain_iff ch _).2 hold)]
      rfl
    · rw [if_neg (by simp [Chan.holdTrain_of_late trainLate stopLate])]
      rfl
  · rw [Chan.nextStop, if_neg running]
    exact nextPause_spec u.now h

end Sys2Proof.Machine

/-! SUPPORT. Training pauses, sweep slices and escalations (R116, R117, R119, R120), and what follows: O47. -/

namespace Sys2Proof.Machine

open Sys2Proof

/-! ### When a pause or a slice starts -/

theorem State.pauseDue_iff (s : State) (ch : Nat) : s.pauseDue ch = true ↔
    (s.now % 1000000 = ch * 13888 ∧ (s.chan ch).lastMaint ≠ s.now) ∨
    (ch ∈ s.prt.pauses ∧ ((s.chan ch).lastMaint = 0 ∨ (s.chan ch).lastMaint + 2000 ≤ s.now) ∧
      ((s.chan ch).lastTrain = 0 ∨ (s.chan ch).lastTrain + 2000 ≤ s.now)) := by
  simp [State.pauseDue, Chan.near, and_assoc]

theorem State.pauseDue_of_held {s : State} {ch : Nat} (other : s.now % 1000000 ≠ ch * 13888)
    (held : ch ∉ s.prt.pauses ∨ ((s.chan ch).lastMaint ≠ 0 ∧ s.now < (s.chan ch).lastMaint + 2000)) :
    s.pauseDue ch = false := by
  rw [Bool.eq_false_iff, Ne, State.pauseDue_iff]
  rintro (⟨place, -⟩ | ⟨asked, late, -⟩)
  · exact other place
  · rcases held with unasked | ⟨begun, recent⟩
    · exact unasked asked
    · exact late.elim begun (Nat.not_le.2 recent)

theorem Chan.sliceDue_of_late {c : Chan} {now : Count} (sliceLate : c.lastSlice = 0 ∨ c.lastSlice + 4000 ≤ now)
    (late : c.lastMaint = 0 ∨ c.lastMaint + 2000 ≤ now) (trainLate : c.lastTrain = 0 ∨ c.lastTrain + 2000 ≤ now) :
    c.sliceDue now = true := by
  simpa [Chan.sliceDue, Chan.near, imp_iff_not_or, and_assoc] using And.intro sliceLate (And.intro late trainLate)

theorem Chan.sliceDue_of_early {c : Chan} {now : Count} (begun : c.lastSlice ≠ 0) (early : now < c.lastSlice + 4000) :
    c.sliceDue now = false := by
  simp [Chan.sliceDue, begun, Nat.not_le.2 early]

/-! ### What a pause and a slice do -/

/-- What would pass POSTPONE_MAX within a pause or slice is issued in it (R116). -/
theorem State.modChan_issueOwed {s : State} {ch : Nat} {f : Chan → Chan} {d e : Chan} (wf : swf s.drm.chans = true)
    (hd : f (s.chan ch) = d)
    (he : e = { d with owed := if s.postponeMax ≤ d.owed + 2000 / d.interval then 0 else d.owed }) :
    (s.modChan ch f).issueOwed ch = (s.setChan ch d).setChan ch e := by
  rw [State.issueOwed, State.modChan_eq_setChan, State.modChan_eq_setChan, hd, State.setChan_chan ch d wf, he]
  rfl

theorem State.chan_of_drm_eq {s w : State} (h : w.drm = s.drm) (ch : Nat) : w.chan ch = s.chan ch :=
  congrArg (fun drm : DrmBlk => sget Chan.init drm.chans ch) h

theorem marginOk_iff (margin : Nat) : marginOk margin = true ↔ 8 ≤ margin := decide_eq_true_iff

section Training

variable {s u w : State} {t ch : Nat} {c d e : Chan} (hu : u = s.start t) (hc : c = u.chan ch)
include hu

theorem exec_retrainingPause_of_held (margin : Nat) (hot : Bool)
    (held : (u.chan ch).st = 1 ∨ u.chanRests ch = true ∨ u.pauseDue ch = false) :
    exec (.retrainingPause t ch margin hot) s = .next u := by
  subst hu
  exact if_pos (by simpa using held)

theorem exec_sweepSlice_of_held (margin : Nat)
    (held : (u.chan ch).st ≠ 1 ∨ u.ep.lowPower = true ∨ (u.chan ch).sliceDue u.now = false) :
    exec (.sweepSlice t ch margin) s = .next u := by
  subst hu
  exact if_pos (by simpa using held)

include hc

/-- A pause reads temperature and margin, issues what is owed, and escalates a channel whose margin fails (R114, R116,
R117). -/
theorem exec_retrainingPause_of_due {margin : Nat} {hot : Bool} (wf : swf u.drm.chans = true) (running : c.st ≠ 1)
    (serves : u.chanRests ch = false) (due : u.pauseDue ch = true)
    (hw : w = if u.now % 1000000 = ch * 13888 then u else
      { u with prt := { u.prt with pauses := u.prt.pauses.erase ch } })
    (hd : d = { c with hot := hot, margin := margin % 256, lastMaint := u.now })
    (he : e = { d with owed := if u.postponeMax ≤ d.owed + 2000 / d.interval then 0 else d.owed }) :
    exec (.retrainingPause t ch margin hot) s = .next (if 8 ≤ margin then
      ((w.setChan ch d).setChan ch e).setChan ch { e with retrains := (c.retrains + 1) % 2 ^ 32 }
      else ((w.setChan ch d).setChan ch e).escalate ch) := by
  have drm : w.drm = u.drm := by rw [hw]; split <;> rfl
  have now : w.now = u.now := by rw [hw]; split <;> rfl
  have wf : swf w.drm.chans = true := by rw [drm, wf]
  have old : w.chan ch = c := (State.chan_of_drm_eq drm ch).trans hc.symm
  have postpone : w.postponeMax = u.postponeMax := congrArg (fun drm : DrmBlk => fld drm.ctrl 0 4) drm
  have set : ((w.setChan ch d).setChan ch e).chan ch = e := State.setChan_chan ch e (State.setChan_swf ch d wf)
  have kept : e.retrains = c.retrains := by rw [he, hd]
  change execRetrainingPause t ch margin hot s = _
  simp only [execRetrainingPause, ← hu, ← hc]
  rw [if_neg (by simp [running, serves, due]), ← hw, State.modChan_issueOwed wf (d := d) (by rw [old, now, hd])
    (postpone ▸ he), State.modChan_eq_setChan, set, kept]
  simp only [marginOk_iff]

/-- A slice ends the escalation when it passes, the step after the step's last slice, and the channel after the limp
step's last (R119 to R122). -/
theorem exec_sweepSlice_of_due {margin : Nat} (wf : swf u.drm.chans = true) (escalating : c.st = 1)
    (awake : u.ep.lowPower = false) (due : c.sliceDue u.now = true)
    (hd : d = { c with slices := c.slices + 1, lastMaint := u.now, lastSlice := u.now, margin := margin % 256 })
    (he : e = { d with owed := if u.postponeMax ≤ d.owed + 2000 / d.interval then 0 else d.owed })
    (hw : w = (u.setChan ch d).setChan ch e) :
    exec (.sweepSlice t ch margin) s = .next (
      if 8 ≤ margin then
        if c.sweep < 4 then w.setChan ch { e with st := 0, slices := 0, lastChange := u.now }
        else (w.setChan ch { e with
          st := 2, slices := 0, copied := none, switched := 0, lastChange := u.now }).retireChannel ch 0x11
      else if c.slices + 1 < stepSlices c.sweep then w
      else if c.sweep < 4 then w.setChan ch { e with sweep := c.sweep + 1, slices := 0 }
      else w.channelLost ch) := by
  have set : w.chan ch = e := by rw [hw, State.setChan_chan ch e (State.setChan_swf ch d wf)]
  have now : w.now = u.now := by rw [hw, State.setChan_now, State.setChan_now]
  have kept : e.sweep = c.sweep := by rw [he, hd]
  change execSweepSlice t ch margin s = _
  simp only [execSweepSlice, ← hu, ← hc]
  rw [if_neg (by simp [escalating, awake, due]), State.modChan_issueOwed wf (d := d) (by rw [← hc, hd]) he, ← hw]
  simp only [State.modChan_eq_setChan, set, now, kept, marginOk_iff,
    apply_ite (Host.Outcome.next (φ := Fault) (ρ := Refusal))]

end Training

/-! ### Escalations (R119, R120) -/

/-- The newest of four starts is within the span of the first exactly when all four count. -/
theorem four_le_length_recent_iff {a b d now span : Nat} (ab : a ≤ b) (bd : b ≤ d) :
    4 ≤ (recent [a, b, d] now span).length ↔ now < a + span := by
  by_cases first : now < a + span
  · have second : now < b + span := by omega
    have third : now < d + span := by omega
    simp [recent, first, second, third]
  · have others := List.length_filter_le (fun c => decide (now < c + span)) [b, d]
    rw [recent, List.filter_cons_of_neg (by simpa using first), List.length_append]
    exact iff_of_false (Nat.not_le.2 (Nat.add_lt_add_right (Nat.lt_succ_of_le others) 1)) first

theorem length_recent_le (l : List Count) (now span : Count) : (recent l now span).length ≤ l.length + 1 := by
  simp [recent, List.length_filter_le]

theorem State.escalate_of_other {s : State} {c : Nat} (other : (s.chan c).st ≠ 0) : s.escalate c = s :=
  if_pos (by simpa using other)

/-- The step that an escalation of a NORMAL channel begins with. -/
theorem State.escalate_chan_of_normal {s : State} {c : Nat} (normal : (s.chan c).st = 0)
    (wf : swf s.drm.chans = true) : ((s.escalate c).chan c).st = 1 ∧
      ((s.escalate c).chan c).sweep = if 4 ≤ (recent (s.chan c).escStarts s.now dayCc).length then 4 else 1 := by
  rw [State.escalate, if_neg (by simp [normal]), State.modChan_eq_setChan, State.setChan_chan _ _ wf]
  exact ⟨rfl, rfl⟩

/-- Settles O47: a pause and a slice by whether they may start and by the margin, and an escalation by the starts that
are kept. -/
theorem sweepRows : Obligations.SweepRows := by
  refine ⟨?_, rfl, fun s c => ⟨State.escalate_of_other, fun normal wf a b d ab bd _ =>
    ⟨fun starts => ?_, fun few => ?_⟩⟩⟩
  · rintro s u t ch margin c _ hu hc wf rfl
    refine ⟨fun held hot => ?_, fun other held hot => ?_, fun not1 not4 not5 awake due => ?_, fun held => ?_,
      fun escalating awake sliceLate late trainLate => ?_⟩
    · refine exec_retrainingPause_of_held hu margin hot ?_
      rw [State.chanRests_iff, ← hc]
      grind
    · exact exec_retrainingPause_of_held hu margin hot (.inr (.inr (State.pauseDue_of_held other (hc ▸ held))))
    · rintro hot d e w hw hd he
      have paused := exec_retrainingPause_of_due (e := e) hu hc wf not1
        (State.chanRests_of_serving (hc ▸ not4) (hc ▸ not5) awake)
        ((u.pauseDue_iff ch).2 (hc ▸ due.imp_right And.right)) hw hd (by rw [he, hd]; rfl)
      refine ⟨fun pass => ?_, fun fail => ?_⟩
      · rw [paused, if_pos pass]
        rfl
      · rw [paused, if_neg (Nat.not_le.2 fail)]
        rfl
    · refine exec_sweepSlice_of_held hu margin ?_
      rw [← hc]
      exact held.imp_right (Or.imp_right fun h => Chan.sliceDue_of_early h.1 h.2)
    · rintro d e w hd he hw
      have swept := exec_sweepSlice_of_due (e := e) hu hc wf escalating awake
        (Chan.sliceDue_of_late sliceLate late trainLate) hd (by rw [he, hd]; rfl) hw
      refine ⟨fun pass swp => ?_, fun pass limp => ?_, fun fail n step => ?_⟩
      · rw [swept, if_pos pass, if_pos swp]
        rfl
      · rw [swept, if_pos pass, if_neg (Nat.not_lt.2 limp)]
        rfl
      · have slices : stepSlices c.sweep = n := by
          rcases step with ⟨step, rfl⟩ | ⟨step, rfl⟩ | ⟨step, rfl⟩ | ⟨step, rfl⟩ <;> rw [step] <;> rfl
        rw [swept, if_neg (Nat.not_le.2 fail), slices]
        refine ⟨fun more => ?_, fun last swp => ?_, fun last limp => ?_⟩
        · rw [if_pos more]
        · rw [if_neg (Nat.not_lt.2 last), if_pos swp]
          rfl
        · rw [if_neg (Nat.not_lt.2 last), if_neg (by rw [limp]; decide)]
  · obtain ⟨st, sweep⟩ := State.escalate_chan_of_normal normal wf
    rw [starts] at sweep
    exact ⟨st, sweep.trans (if_congr (four_le_length_recent_iff ab bd) rfl rfl)⟩
  · obtain ⟨st, sweep⟩ := State.escalate_chan_of_normal normal wf
    have short := length_recent_le (s.chan c).escStarts s.now dayCc
    exact ⟨st, sweep.trans (if_neg (by omega))⟩

end Sys2Proof.Machine

/-! SUPPORT. The evacuation of a channel (R121, R124), and what follows: O48. -/

namespace Sys2Proof.Machine

open Sys2Proof

/-! ### Chunks to be copied -/

theorem mem_insBy {α : Type} (lt : α → α → Bool) (x a : α) (l : List α) : a ∈ insBy lt x l ↔ a = x ∨ a ∈ l := by
  induction l with
  | nil => simp [insBy]
  | cons y l ih =>
    rw [insBy]
    split
    · exact List.mem_cons
    · rw [List.mem_cons, ih, List.mem_cons, or_left_comm]

theorem mem_sortBy {α : Type} (lt : α → α → Bool) (a : α) (l : List α) : a ∈ sortBy lt l ↔ a ∈ l := by
  induction l with
  | nil => rfl
  | cons x l ih => rw [sortBy, mem_insBy, ih, List.mem_cons]

/-- A channel has to copy the chunk positions where chunks of listed frames stand (R121). -/
theorem State.mem_chunksOn_iff (s : State) (ch i : Nat) :
    i ∈ s.chunksOn ch ↔ ∃ x ∈ s.dir.frames, ∃ p, p < 9 ∧ s.chunkAt x.1 p = (ch, i) := by
  have stands (f p : Nat) : (if (s.chunkAt f p).1 = ch then some (s.chunkAt f p).2 else none) = some i ↔
      s.chunkAt f p = (ch, i) := by
    rw [Option.ite_none_right_eq_some, Option.some.injEq, Prod.ext_iff]
  simp only [State.chunksOn, mem_sortBy, List.mem_eraseDups, List.mem_flatMap, List.mem_filterMap, List.mem_range,
    stands]

/-! ### Copies and switches -/

theorem State.recordChannel_eq (s : State) (ch : Nat) : s.recordChannel ch = { s with drm := { s.drm with
    recorded := if ch ∈ s.drm.recorded then s.drm.recorded else s.drm.recorded ++ [ch] } } := by
  simp only [State.recordChannel, List.contains_iff_mem]

theorem State.evacuated_eq (s : State) (ch : Nat) : s.evacuated ch =
    (s.setChan ch { s.chan ch with st := 4, copied := none, lastChange := s.now }).recordChannel ch := rfl

/-- A copy finds channel `ch` as `d` in `w`: one in EVACUATING goes on, and one in LIMP begins (R121). -/
def State.Evacuates (u : State) (ch : Nat) (d : Chan) (w : State) : Prop :=
  ((u.chan ch).st = 3 ∧ d = u.chan ch ∧ w = u) ∨
  ((u.chan ch).st = 2 ∧ d = { u.chan ch with st := 3, readFails := (0, 0), lastChange := u.now } ∧ w = u.setChan ch d)

theorem State.Evacuates.chan_eq {u w : State} {ch : Nat} {d : Chan} (evac : u.Evacuates ch d w)
    (wf : swf u.drm.chans = true) : w.chan ch = d := by
  rcases evac with ⟨-, rfl, rfl⟩ | ⟨-, -, rfl⟩
  · rfl
  · exact State.setChan_chan ch d wf

theorem State.Evacuates.now_eq {u w : State} {ch : Nat} {d : Chan} (evac : u.Evacuates ch d w) : w.now = u.now := by
  rcases evac with ⟨-, -, rfl⟩ | ⟨-, -, rfl⟩ <;> rfl

theorem State.Evacuates.recorded_eq {u w : State} {ch : Nat} {d : Chan} (evac : u.Evacuates ch d w) :
    w.drm.recorded = u.drm.recorded := by
  rcases evac with ⟨-, -, rfl⟩ | ⟨-, -, rfl⟩ <;> rfl

/-- What the first copy leaves of a channel in LIMP, and any other of one in EVACUATING. -/
theorem State.Evacuates.begun_eq {u w : State} {ch : Nat} {d : Chan} (evac : u.Evacuates ch d w) :
    (if (u.chan ch).st = 2 then u.modChan ch fun c => { c with st := 3, readFails := (0, 0), lastChange := u.now }
      else u) = w := by
  rcases evac with ⟨going, -, rfl⟩ | ⟨limp, rfl, rfl⟩
  · exact if_neg (by rw [going]; decide)
  · exact if_pos limp

section Evacuation

variable {s u : State} {t ch : Nat} {c : Chan} (hu : u = s.start t) (hc : c = u.chan ch)
include hu hc

theorem exec_evacuationChunkCopy_of_held (at_ : Nat) (held : (c.st ≠ 2 ∧ c.st ≠ 3) ∨ c.copied ≠ none) :
    exec (.evacuationChunkCopy t ch at_) s = .next u := by
  subst hu hc
  exact if_pos (by simpa [Option.isSome_iff_ne_none] using held)

/-- A copy is of the first chunk of those to be copied, and none left is the end (R121). -/
theorem exec_evacuationChunkCopy_of_evacuates {d : Chan} {w : State} (at_ : Nat) (wf : swf u.drm.chans = true)
    (free : c.copied = none) (evac : u.Evacuates ch d w) :
    (c.todo = [] → exec (.evacuationChunkCopy t ch at_) s = .next (w.evacuated ch)) ∧
    ∀ i r, c.todo = i :: r → exec (.evacuationChunkCopy t ch at_) s = .next (w.setChan ch { d with
      copied := some (i, max at_ u.now) }) := by
  have serving : (u.chan ch).st = 2 ∨ (u.chan ch).st = 3 := evac.symm.imp And.left And.left
  change (_ → execEvacuationChunkCopy t ch at_ s = _) ∧ ∀ _ _, _ → execEvacuationChunkCopy t ch at_ s = _
  rw [hc] at free ⊢
  simp only [execEvacuationChunkCopy, ← hu]
  rw [if_neg (by rcases serving with st | st <;> simp [st, free]), evac.begun_eq]
  refine ⟨fun left => ?_, fun i r left => ?_⟩
  · simp only [left]
  · simp only [left, State.modChan_eq_setChan, evac.chan_eq wf, evac.now_eq]

theorem exec_chunkSwitch_of_none (none : c.copied = none) : exec (.chunkSwitch t ch) s = .next u := by
  change execChunkSwitch t ch s = _
  simp only [execChunkSwitch, ← hu, ← hc, none]

/-- A switch waits for its count, and the last one is the end (R121). -/
theorem exec_chunkSwitch_of_some {i at_ : Nat} {d : Chan} (wf : swf u.drm.chans = true)
    (copied : c.copied = some (i, at_))
    (hd : d = { c with todo := c.todo.filter (· != i), copied := none, switched := c.switched + 1 }) :
    exec (.chunkSwitch t ch) s = .next (if u.now < at_ then u
      else if d.todo = [] then (u.setChan ch d).evacuated ch else u.setChan ch d) := by
  have set : (u.setChan ch d).chan ch = d := State.setChan_chan ch d wf
  change execChunkSwitch t ch s = _
  simp only [execChunkSwitch, ← hu, ← hc, copied, State.modChan_eq_setChan, ← hd, set, List.isEmpty_iff,
    apply_ite (Host.Outcome.next (φ := Fault) (ρ := Refusal))]

end Evacuation

/-- Settles O48: a copy by the channel's state and by what is left, a switch by its count, and what has to be copied by
where the frames' chunks stand. -/
theorem evacuationRows : Obligations.EvacuationRows := by
  refine ⟨?_, State.mem_chunksOn_iff⟩
  rintro s u t ch c _ kept hu hc wf rfl hk
  refine ⟨fun held at_ => exec_evacuationChunkCopy_of_held hu hc at_ held, fun d w x at_ free evac => ?_,
    exec_chunkSwitch_of_none hu hc, fun i at_ copied => ?_⟩
  · rw [hc] at evac
    have evac : u.Evacuates ch d w := evac
    obtain ⟨last, copy⟩ := exec_evacuationChunkCopy_of_evacuates hu hc at_ wf free evac
    refine ⟨copy, fun hx none => ?_⟩
    · rw [last none, State.evacuated_eq, evac.chan_eq wf, evac.now_eq, State.recordChannel_eq,
        State.setChan_recorded, evac.recorded_eq, ← hk, hx]
      rfl
  · have switch (d : Chan) := exec_chunkSwitch_of_some (d := d) hu hc wf copied
    refine ⟨fun early => ?_, fun due d hd => ⟨fun left => ?_, fun last x hx => ?_⟩⟩
    · rw [switch _ rfl, if_pos early]
    · rw [switch d hd, if_neg (Nat.not_lt.2 due), if_neg left]
      rfl
    · have free : d.copied = none := by rw [hd]
      rw [switch d hd, if_neg (Nat.not_lt.2 due), if_pos last, State.evacuated_eq, State.setChan_chan ch d wf, ← free,
        State.recordChannel_eq, State.setChan_recorded, State.setChan_recorded, ← hk, hx]
      rfl

end Sys2Proof.Machine

/-! SUPPORT. Where a die sits and its parity group (R127): O10. -/

namespace Sys2Proof.Machine

open Sys2Proof

/-- Groups are the runs of 16 dies in the order of their numbers. -/
theorem dieGroup_eq (d : Nat) : dieGroup d = d / 16 := by
  simp only [dieGroup, dieChannel]
  omega

/-- The 16 channels of a group's dies are one half of the 32. -/
theorem dieChannel_add_group_inj {g i j : Nat} (hi : i < 16) (hj : j < 16)
    (same : dieChannel (i + 16 * g) = dieChannel (j + 16 * g)) : i = j := by
  simp only [dieChannel] at same
  omega

/-- Settles O10: a die's number is its channel, package and position in mixed radix, and a group a run of 16 numbers. -/
theorem diesStandWhereTheirNumberSays : Obligations.DiesStandWhereTheirNumberSays := by
  refine ⟨fun d hd => ⟨rfl, rfl, rfl, ?_, fun e _ => ?_⟩, fun g d _ _ => ?_, fun d _ => ⟨?_, ?_⟩⟩
  · rw [dieGroup_eq]
    omega
  · simp only [dieChannel, diePackage, diePosition]
    omega
  · rw [dieGroup_eq]
    omega
  · simp [groupDies]
  · rw [groupDies, List.map_map]
    refine List.nodup_range.map_on fun i hi j hj same => ?_
    exact dieChannel_add_group_inj (List.mem_range.1 hi) (List.mem_range.1 hj) same

end Sys2Proof.Machine

/-! SUPPORT. Resets of the whole part by their cause (R149, R319, R323, R393, R419, R420, R451, R453), and what follows:
O25. -/

namespace Sys2Proof.Machine

open Sys2Proof

section Resets

variable {s : State} {t : Nat}

/-! ### MOD_RST# and the watchdog (R319, R453) -/

theorem exec_modRst_of_short {low : Nat} (f : Bool) (short : low < 100) :
    exec (.modRst t low f) s = .next (s.start t) :=
  if_pos short

theorem exec_modRst_of_long {low : Nat} (f : Bool) (long : 1000 ≤ low) (aux : (s.start t).gen.aux = true) :
    exec (.modRst t low f) s = .next
      (let w := if (s.start t).gen.conv then (s.start t).reboot 1 (some 1) f else s.start t
      { w with gen := { w.gen with modRst := true } }) := by
  change execModRst t low f s = _
  simp only [execModRst]
  rw [if_neg (by omega), if_neg (by omega), if_neg (by simpa using aux)]

/-- MOD_RST# ends only the hold that it began (R453). -/
theorem exec_modRstRelease (s : State) (t : Nat) : exec (.modRstRelease t) s = .next { s.start t with
    gen := { (s.start t).gen with
      modRst := false, held := if (s.start t).gen.held = some 1 then none else (s.start t).gen.held } } := by
  have kept (h : Option Nat) : h.filter (· != 1) = if h = some 1 then none else h := by
    cases h with
    | none => rfl
    | some c => by_cases one : c = 1 <;> simp [Option.filter, one]
  change execModRstRelease t s = _
  simp only [execModRstRelease, kept]

/-- The watchdog runs from DRAM_TRAINING on (R319, R462). -/
theorem exec_watchdogExpiry (s : State) (t : Nat) (f : Bool) : exec (.watchdogExpiry t f) s = .next (
    if 3 ≤ (s.start t).gen.phase ∧ (s.start t).gen.conv ∧ (s.start t).gen.held = none then
      (s.start t).reboot 3 none f else s.start t) := by
  change execWatchdogExpiry t f s = _
  simp only [execWatchdogExpiry, State.powered_iff]

/-! ### Recovery images (R393) -/

/-- A part in recovery state decodes its recovery blocks (R394). -/
theorem State.viaBar_of_recoveryOffset {off : Nat} (on : s.barOn 0 = true) (decoded : recoveryOffset off = true)
    (f : State → State) : s.viaBar 0 off f = f s := by
  simp [State.viaBar, on, decoded]

theorem State.recoveryGo_of_go {v : Reg32} (go : bitOf v 0 = true) (f : Bool) : s.recoveryGo v f =
    if s.sec.recovery = false ∨ s.sec.rcvStatus = 6 then s
    else
      let b := sbytes s.sec.window (fld s.sec.rcvLen 0 25)
      if verifyImage s.sec.svn.toNat b = 0 then State.reboot { s with sec := { s.sec with image := b } } 2 none f
      else { s with sec := { s.sec with rcvStatus := verifyImage s.sec.svn.toNat b } } := by
  simp only [State.recoveryGo, go]
  split
  next normal => exact (if_pos (.inl (by simpa using normal))).symm
  next recovering =>
    split
    next puf => exact (if_pos (.inr puf)).symm
    next loads => exact (if_neg (by simpa [loads] using recovering)).symm

/-! ### The sequence by its cause (R149) -/

theorem exec_shutdownSequence_of_unpowered (c : ResetCause) (f : Bool) (off : (s.start t).powered = false) :
    exec (.shutdownSequence t c f) s = .next (s.start t) :=
  if_pos (by simpa using off)

theorem exec_shutdownSequence_of_powered (c : ResetCause) (f : Bool) (on : (s.start t).powered = true) :
    exec (.shutdownSequence t c f) s = .next (match c with
      | .powerUp => s.start t
      | .modRst => (s.start t).reboot 1 (some 1) f
      | .fltReset => (s.start t).reboot 2 none f
      | .watchdog => (s.start t).reboot 3 none f
      | .therm => (s.start t).trip f
      | .input | .d3cold => (s.start t).mainLost f
      | .aux => (s.start t).auxLost f) := by
  change execShutdownSequence t c f s = _
  simp only [execShutdownSequence]
  rw [if_neg (by simp [on])]
  cases c <;> rfl

end Resets

/-- Settles O25: each cause by its row, the pulse by its length, and the sequence by the power. -/
theorem resetRows : Obligations.ResetRows := by
  rintro s _ t f v rfl
  refine ⟨fun low short => exec_modRst_of_short f short, ?_, exec_modRstRelease s t, exec_watchdogExpiry s t f,
    fun hs => exec_of_managed hs rfl, fun on => ?_, fun c off => ?_, fun c conv held => ?_⟩
  · rintro low _ long aux rfl
    exact exec_modRst_of_long f long aux
  · have way : exec (.recoveryLoad t v f) s =
        .next ((s.start t).viaBar 0 0x130044 fun s => s.recoveryGo (setBit v 0 true) f) := rfl
    rw [way, State.viaBar_of_recoveryOffset (by simpa using on) (by decide),
      State.recoveryGo_of_go (by simp [bitOf_setBit])]
  · exact exec_shutdownSequence_of_unpowered c f ((s.start t).not_powered_iff.2 off)
  · exact exec_shutdownSequence_of_powered c f ((s.start t).powered_iff.2 ⟨conv, held⟩)

end Sys2Proof.Machine

/-! SUPPORT. The input voltage, the auxiliary supply, the hold-up and the hourly summary (R149, R150, R420, R424 to
R426), and what follows: O27. -/

namespace Sys2Proof.Machine

open Sys2Proof

section Supplies

variable {s : State} {t : Nat}

/-! ### Supplies (R149, R420) -/

theorem exec_inputLow (s : State) (t n : Nat) : exec (.inputLow t n) s = .next (
    if n < 4000 ∧ (s.start t).gen.conv then State.fault0 { s.start t with pwr := { (s.start t).pwr with
      inputLow := true, input := setFld (s.start t).pwr.input 0 16 n } } 7 0x83 0
    else s.start t) :=
  (apply_ite (Host.Outcome.next (φ := Fault) (ρ := Refusal)) _ _ _).symm

theorem exec_inputHigh (s : State) (t n : Nat) : exec (.inputHigh t n) s = .next (
    if 6000 < n ∧ (s.start t).gen.conv then State.fault0 { s.start t with pwr := { (s.start t).pwr with
      inputHigh := true, input := setFld (s.start t).pwr.input 0 16 n } } 7 0x84 0
    else s.start t) :=
  (apply_ite (Host.Outcome.next (φ := Fault) (ρ := Refusal)) _ _ _).symm

/-! ### The hold-up (R150) -/

/-- A measured hold-up (R150, R426); HOLDUP_LOW follows it (assumption 100). -/
def State.holdupTo (s : State) (n : Nat) : State :=
  if n < 20000 then State.fault0 { s with
    fls := { s.fls with holdup := n % 65536, holdupLow := true }, plan := { s.plan with holdup := max n 1 } } 7 0x75 0
  else { s with
    fls := { s.fls with holdup := n % 65536, holdupLow := false }, plan := { s.plan with holdup := 0 } }

theorem exec_holdupMeasure_of_measuring (n : Nat)
    (measuring : (s.start t).gen.phase = 5 ∨ (s.start t).pwr.replanning = true) :
    exec (.holdupMeasure t n) s = .next
      (((s.start t).holdupTo n).fls.programs.foldl (fun s _ => s.issueNext) ((s.start t).holdupTo n)) := by
  change execHoldupMeasure t n s = _
  simp only [execHoldupMeasure]
  rw [if_neg (by grind)]
  by_cases low : n < 20000
  · simp only [State.holdupTo, low, decide_true, if_true]
  · simp only [State.holdupTo, low, decide_false, if_false]
    rfl

theorem exec_holdupMeasure_of_not_measuring (n : Nat) (other : (s.start t).gen.phase ≠ 5)
    (settled : (s.start t).pwr.replanning = false) : exec (.holdupMeasure t n) s = .next (s.start t) :=
  if_pos (by grind)

/-! ### The life record (R424) -/

theorem exec_lifeRecordSummary (s : State) (t : Nat) : exec (.lifeRecordSummary t) s = .next (
    if (s.start t).pwr.powerOnSince ≠ none ∧ (s.start t).pwr.summaryAt + 3600 ≤ (s.start t).powerOn then
      (s.start t).summary
    else s.start t) := by
  change execLifeRecordSummary t s = _
  simp only [execLifeRecordSummary, Option.isSome_iff_ne_none]

end Supplies

/-- Settles O27: each row by its threshold and by whether the part is on, measures or has its summary due. -/
theorem supplyRows : Obligations.SupplyRows := by
  rintro s _ t n f rfl
  refine ⟨fun low on => ?_, fun fine => ?_, fun high on => ?_, fun fine => ?_, rfl, rfl, ?_,
    exec_holdupMeasure_of_not_measuring n, fun on due => ?_, fun early => ?_⟩
  · rw [exec_inputLow, if_pos ⟨low, on⟩]
  · rw [exec_inputLow, if_neg (by grind)]
  · rw [exec_inputHigh, if_pos ⟨high, on⟩]
  · rw [exec_inputHigh, if_neg (by grind)]
  · rintro measuring _ rfl
    exact exec_holdupMeasure_of_measuring n measuring
  · rw [exec_lifeRecordSummary, if_pos ⟨on, due⟩]
    rfl
  · rw [exec_lifeRecordSummary, if_neg (by grind)]

end Sys2Proof.Machine

/-! SUPPORT. The flash tier's reads, programs, rebuilds and relocations (R26, R128, R131, R132, R134, R135, R150), and
what follows: O50. -/

namespace Sys2Proof.Machine

open Sys2Proof

/-! ### What flash work leaves of the directory -/

theorem State.Saves.dir_eq {s t : State} (h : s.Saves t) : t.dir = s.dir := by
  rw [State.Saves] at h
  rw [h]

theorem State.evtPut_tells (s : State) (n : Nat) (e : EventEntry) (more : Bool) : s.Tells (s.evtPut n e more) :=
  State.Tells.trans (t := State.emit (s.setAllot n _) _) rfl (State.interrupt_tells _ _ _)

theorem State.evtStep_tells (s : State) (n : Nat) : s.Tells (s.evtStep n) := by
  have put (a : Allot) (e : EventEntry) (more : Bool) : s.Tells ((s.setAllot n a).evtPut n e more) :=
    State.Tells.trans (t := s.setAllot n a) rfl (State.evtPut_tells _ _ _ _)
  simp only [State.evtStep]
  split
  · split
    · exact put _ _ _
    · split <;> exact put _ _ _
    · exact put _ _ _
    · split
      · exact put _ _ _
      · exact .refl s
  · exact .refl s

theorem State.evtDrain_tells (n k : Nat) (s : State) : s.Tells (State.evtDrain n k s) := by
  induction k generalizing s with
  | zero => exact .refl s
  | succ k ih =>
    rw [State.evtDrain]
    split
    · exact .refl s
    · exact (s.evtStep_tells n).trans (ih _)

theorem State.postGroup_saves (s : State) (n : Nat) (es : List EventEntry) : s.Saves (s.postGroup n es) := by
  have begun (a : Allot) : s.Saves (State.evtDrain n 18 ((s.setAllot n a).evtStep n)) :=
    State.Saves.trans (t := s.setAllot n a) rfl ((State.evtStep_tells _ n).trans (State.evtDrain_tells _ _ _)).saves
  exact .ite (begun _) rfl

theorem State.postPlan_saves (s : State) (p : Plan) (eff : Count) (b : Bool) (l : List Reservation) :
    s.Saves (s.postPlan p eff b l) :=
  .foldl (fun s' n => s'.postGroup_saves n _) _ s

@[simp] theorem State.withdraw_dir (s : State) : s.withdraw.dir = s.dir := by
  simp only [State.withdraw]
  split <;> rfl

@[simp] theorem State.newVersion_dir (s : State) (cause : Nat) (eff : Count) :
    (s.newVersion cause eff).2.dir = s.dir := rfl

@[simp] theorem State.inForce_dir (s : State) (p : Plan) : (s.inForce p).dir = s.dir := by
  obtain ⟨d, h⟩ := s.inForce_eq p
  rw [h]

@[simp] theorem State.postPlan_dir (s : State) (p : Plan) (eff : Count) (b : Bool) (l : List Reservation) :
    (s.postPlan p eff b l).dir = s.dir := (s.postPlan_saves p eff b l).dir_eq

@[simp] theorem State.sendRates_dir (s : State) (b : Plan) : (s.sendRates b).dir = s.dir :=
  (s.sendRates_tells b).saves.dir_eq

@[simp] theorem State.applyCuts_dir (s : State) (b : Bool) : (s.applyCuts b).dir = s.dir := rfl

@[simp] theorem State.issueAs_dir (s : State) (cause : Nat) (b : Plan) (keep : Option Count) :
    (s.issueAs cause b keep).dir = s.dir := by
  simp only [State.issueAs]
  split <;> simp

@[simp] theorem State.retirePlan_dir (s : State) : s.retirePlan.dir = s.dir := by
  simp only [State.retirePlan]
  split
  · rfl
  · split <;> simp

/-! ### Places and images -/

/-- A change of the flash tier is one of what is saved. -/
theorem State.Saves.fls {s t : State} (h : s.Saves t) (x : FlsBlk) : s.Saves { t with fls := x } := h.trans rfl

theorem State.placeIn_saves (s : State) (gs : List Nat) : s.Saves (s.placeIn gs).2 := by
  simp only [State.placeIn]
  split
  · rfl
  · split <;> rfl

theorem State.closeRow_saves (s : State) (g row : Nat) : s.Saves (s.closeRow g row) := by
  simp only [State.closeRow]
  split <;> rfl

/-- A state that passes along a fold with a result beside it is saved when each step saves it. -/
theorem State.Saves.foldl_snd {α β : Type} {f : β × State → α → β × State}
    (h : ∀ (p : β × State) a, p.2.Saves (f p a).2) (l : List α) (p : β × State) : p.2.Saves (l.foldl f p).2 := by
  induction l generalizing p with
  | nil => exact .refl p.2
  | cons a l ih => exact (h p a).trans (ih _)

theorem State.moveImages_saves (s : State) (gs : List Nat) (l : List Image) : s.Saves (s.moveImages gs l) := by
  have counted (s : State) (fls : FlsBlk) (n : Nat) :
      s.Saves ((State.countProgram { s with fls := fls } false).countInternal n) :=
    (((State.Saves.refl s).fls fls).trans (State.countProgram_saves _ _)).fls _
  simp only [State.moveImages]
  refine .trans (.trans (.foldl_snd ?_ l ([], s)) (.foldl ?_ _ _)) (.foldl ?_ _ _)
  · exact fun acc i => (acc.2.placeIn_saves gs).fls _
  · exact fun s p => counted s _ _
  · exact fun s p => s.closeRow_saves _ _

theorem State.faultTo_saves (s : State) (dests : List Nat) (unit reason num ext addr : Nat) :
    s.Saves (s.faultTo dests unit reason num ext addr) := by
  refine State.Saves.trans (t := s.plogPut _) rfl (.foldl (fun s n => ?_) dests _)
  exact (s.post_tells _ _ _).saves.trans (State.signalPme_saves _ _)

theorem State.putImage_saves (s : State) (img : Image) (host : Bool) : s.Saves (s.putImage img host) :=
  ((s.placeIn_saves _).fls _).trans (State.landImage_saves _ _ _)

theorem State.loseImage_saves (s : State) (i : Image) : s.Saves (s.loseImage i) := by
  have flash := (State.Saves.refl s).fls
  simp only [State.loseImage]
  split
  · exact (flash _).trans (State.putImage_saves _ _ _)
  · split
    · exact (flash _).trans (State.faultTo_saves _ _ _ _ _ _ _)
    · exact flash _

theorem State.leaveDie_saves (s : State) (d : Nat) : s.Saves (s.leaveDie d) :=
  ((State.Saves.refl s).fls _).trans (.foldl (fun s _ => (s.placeIn_saves _).fls _) _ _)

@[simp] theorem State.retireDie_dir (s : State) (d : Nat) : (s.retireDie d).dir = s.dir := by
  have lost (s : State) (l : List Image) : (l.foldl (fun s i => s.loseImage i) s).dir = s.dir :=
    (State.Saves.foldl State.loseImage_saves l s).dir_eq
  have left (s : State) (d : Nat) : (s.leaveDie d).dir = s.dir := (s.leaveDie_saves d).dir_eq
  have fault (s : State) (unit reason num : Nat) : (s.fault0 unit reason num).dir = s.dir :=
    (s.fault0_saves unit reason num).dir_eq
  have mod (s : State) (d : Nat) (f : Die → Die) : (s.modDie d f).dir = s.dir := rfl
  simp only [State.retireDie, apply_ite State.dir, lost, left, fault, mod, State.retirePlan_dir, ite_self]

/-! ### Reads (R26, R132, R134) -/

section Flash

variable {s : State} {t : Nat}

theorem exec_flashReadDone_of_filling {ext page cw step n : Nat} {f : Frame}
    (found : ((s.start t).framesOf ext page).find? (fun f => f.2.st == 3) = some (n, f)) (short : step ≠ 4) :
    exec (.flashReadDone t ext page cw step) s = .next
      (((s.start t).decodeCodeword n cw (decide (4 < step))).wake .fill n noEnv) := by
  change execFlashReadDone t ext page cw step s = _
  cases image : (s.start t).codewordImage ext page with
  | none => simp only [execFlashReadDone, image, found]
  | some i => simp only [execFlashReadDone, image, short, false_and, if_false, found]

theorem exec_flashReadDone_of_no_frame {ext page cw step : Nat}
    (none : ((s.start t).framesOf ext page).find? (fun f => f.2.st == 3) = none)
    (plain : step ≠ 4 ∨ (s.start t).codewordImage ext page = .none) :
    exec (.flashReadDone t ext page cw step) s = .next (s.start t) := by
  change execFlashReadDone t ext page cw step s = _
  cases image : (s.start t).codewordImage ext page with
  | none => simp only [execFlashReadDone, image, none]
  | some i =>
    have short : step ≠ 4 := plain.resolve_right (by simp [image])
    simp only [execFlashReadDone, image, short, false_and, if_false, none]

/-- A codeword that FILLING lacks joins its lines (R26). -/
theorem State.decodeCodeword_of_new {n k : Nat} {f : Frame} (lost : Bool) (hf : s.frame n = some f)
    (filling : f.st = 3) (new : k ∉ f.decoded) : s.decodeCodeword n k lost = s.setFrame n { f with
      lines := decodeLines s.now f.lines (s.source f.ext f.page f.fillVer) lost k
      lens := match s.source f.ext f.page f.fillVer with
        | some i => (List.range 4).foldl (fun m b => sput 0 m (4 * k + b) (sget 0 i.lens (4 * k + b))) f.lens
        | none => f.lens
      decoded := k :: f.decoded } := by
  simp only [State.decodeCodeword, hf]
  exact if_neg (by simp [filling, new])

/-- Reconstruction rewrites an image and may retire its die; it moves no frame (R132, R134). -/
@[simp] theorem State.reconstructed_dir (s : State) (i : Image) : (s.reconstructed i).dir = s.dir := by
  have moved (s : State) (gs : List Nat) (l : List Image) : (s.moveImages gs l).dir = s.dir :=
    (s.moveImages_saves gs l).dir_eq
  simp only [State.reconstructed, apply_ite State.dir, State.retireDie_dir, moved, ite_self]
  rfl

theorem State.modDie_of_die {d : Nat} {x : Die} (f : Die → Die) (h : s.die d = x) :
    s.modDie d f = s.modDie d fun _ => f x := by
  simp only [State.modDie, h]

/-- What is counted of a die stands when the times are set. -/
theorem State.reconstructed_eq {i : Image} {d : Die} {l : List Count} {w : State} (hd : d = s.die i.die)
    (wf : swf s.fls.dies = true) (hl : l = recent d.reconTimes s.now 1000000000)
    (hw : w = State.modDie (s.modDie i.die fun _ => { d with recon := min (d.recon + 1) 65535 }) i.die fun _ => { d with
      recon := min (d.recon + 1) 65535, reconTimes := l }) :
    s.reconstructed i =
      if 64 < l.length then (w.moveImages w.anyGroup [i]).retireDie i.die else w.moveImages w.anyGroup [i] := by
  subst hd hl hw
  have counted : (s.countRecon i.die 1).die i.die =
      { s.die i.die with recon := min ((s.die i.die).recon + 1) 65535 } := sget_sput_self _ _ _ _ wf
  simp only [State.reconstructed]
  rw [State.modDie_of_die _ counted]
  rfl

/-- A codeword of no FILLING frame is reconstructed from its row. -/
theorem exec_flashReadDone_of_reconstructed {ext page cw : Nat} {i : Image}
    (none : ((s.start t).framesOf ext page).find? (fun f => f.2.st == 3) = none)
    (image : (s.start t).codewordImage ext page = some i) (serving : ((s.start t).die i.die).st = 0) :
    exec (.flashReadDone t ext page cw 4) s = .next ((s.start t).reconstructed i) := by
  have unmoved : ((s.start t).reconstructed i).framesOf ext page = (s.start t).framesOf ext page := by
    simp only [State.framesOf, State.reconstructed_dir]
  change execFlashReadDone t ext page cw 4 s = _
  simp only [execFlashReadDone, image, serving, and_self, if_true, unmoved, none]

/-! ### Programs (R131, R134, R150) -/

theorem exec_flashProgramDone_of_none {id : Nat} (o : Nat)
    (none : ((s.start t).fls.programs.find? fun g => g.id == id && g.issued) = none) :
    exec (.flashProgramDone t id o) s = .next (s.start t) := by
  change execFlashProgramDone t id o s = _
  simp only [execFlashProgramDone, none]

section Found

variable {id : Nat} {g : Program}
  (found : ((s.start t).fls.programs.find? fun g => g.id == id && g.issued) = some g)

include found

theorem exec_flashProgramDone_of_unanswered :
    exec (.flashProgramDone t id 3) s = .next ((s.start t).retireDie g.img.die) := by
  change execFlashProgramDone t id 3 s = _
  simp only [execFlashProgramDone, found, if_true]

theorem exec_flashProgramDone_of_failed {o : Nat} {w : State} {q : (Nat × Nat) × State} (failed : o = 1 ∨ o = 2)
    (hw : w = (s.start t).retireBlock g.img.die g.img.row) (hq : q = w.nextPlace) :
    exec (.flashProgramDone t id o) s = .next { q.2 with fls := { q.2.fls with
      programs := q.2.fls.programs.map fun h =>
        if h.id = id then { h with img := { h.img with die := q.1.1, row := q.1.2 }, suspends := 0 } else h } } := by
  subst hw hq
  change execFlashProgramDone t id o s = _
  simp only [execFlashProgramDone, found]
  rw [if_neg (by omega), if_pos failed]

/-- Nothing waits for the program of a frame but the DRAINs that took it over (R148). -/
theorem exec_flashProgramDone_of_done {w y : State} (free : g.cmd = none)
    (hw : w = { s.start t with fls := { (s.start t).fls with
      programs := (s.start t).fls.programs.filter (·.id != id) } })
    (hy : y = (w.programLands g).issueNext) (undrained : ∀ c ∈ y.cmds, pkOp c.pkt ≠ 0x41) :
    exec (.flashProgramDone t id 0) s = .next y := by
  subst hw
  have unwaited : y.cmds.filter (fun c => g.cmd == some c.id || (pkOp c.pkt == 0x41 && c.aux.contains id)) = [] := by
    refine List.filter_eq_nil_iff.2 fun c hc => ?_
    simp [free, undrained c hc]
  change execFlashProgramDone t id 0 s = _
  simp only [execFlashProgramDone, found]
  rw [if_neg (by decide), if_neg (by decide), ← hy, unwaited]
  rfl

end Found

/-- The program of a frame's image lands and cleans the frame (R79, R131). -/
theorem State.programLands_of_frame {g : Program} {n : Nat} {x : Extent} (hx : s.extent g.img.ext = some x)
    (frame : g.frame = some n) (free : g.cmd = none) :
    s.programLands g = (s.landImage g.img g.host).frameCleaned n g.id := by
  simp [State.programLands, hx, frame, free]

/-! ### Rebuilds and relocations (R131, R135) -/

theorem exec_rebuildImage_of_not_rebuilding {d : Nat} (other : ((s.start t).die d).st ≠ 1) :
    exec (.rebuildImage t d) s = .next (s.start t) :=
  if_pos (bne_iff_ne.2 other)

theorem exec_rebuildImage_of_empty {d : Nat} (rebuilding : ((s.start t).die d).st = 1)
    (none : ((s.start t).fls.images.find? fun i => i.die == d && !i.lost) = none) :
    exec (.rebuildImage t d) s = .next ((s.start t).modDie d fun v => { v with st := 2 }) := by
  have empty : (s.start t).fls.images.any (fun i => i.die == d && !i.lost) = false := by
    simpa only [List.find?_eq_none, List.any_eq_false] using none
  change execRebuildImage t d s = _
  simp only [execRebuildImage, rebuilding, none, empty, bne_self_eq_false, Bool.false_eq_true, if_false]

theorem exec_rebuildImage_of_image {d : Nat} {i : Image} {w : State} (rebuilding : ((s.start t).die d).st = 1)
    (found : ((s.start t).fls.images.find? fun i => i.die == d && !i.lost) = some i)
    (hw : w = (s.start t).moveImages [dieGroup d] [i]) :
    exec (.rebuildImage t d) s = .next (if w.fls.images.any fun i => i.die == d && !i.lost then w
      else w.modDie d fun v => { v with st := 2 }) := by
  subst hw
  change execRebuildImage t d s = _
  simp only [execRebuildImage, rebuilding, found, bne_self_eq_false, Bool.false_eq_true, if_false]

end Flash

/-- Settles O50: a read by its frame and its step, a program by its outcome, a rebuild by what the die holds. -/
theorem flashRows : Obligations.FlashRows := by
  rintro s _ t _ rfl rfl
  refine ⟨fun ext page cw step none plain => exec_flashReadDone_of_no_frame none plain, ?_, ?_,
    fun id o none => exec_flashProgramDone_of_none o none, fun id g found => ⟨?_, ?_, ?_⟩, fun n id f hf => ?_,
    fun d other => exec_rebuildImage_of_not_rebuilding other, fun d rebuilding none => ?_,
    fun d i w rebuilding found hw => ?_, ?_⟩
  · rintro ext page cw step n f found hf filling short new _ rfl
    have decoded := State.decodeCodeword_of_new (decide (4 < step)) hf filling new
    exact (exec_flashReadDone_of_filling found short).trans
      (congrArg (fun w : State => Host.Outcome.next (w.wake .fill n noEnv)) decoded)
  · rintro ext page cw i l d _ none image hd serving wf hl rfl
    rw [hd] at serving
    rw [exec_flashReadDone_of_reconstructed none image serving, State.reconstructed_eq hd wf hl rfl]
    rfl
  · exact exec_flashProgramDone_of_unanswered found
  · exact fun o w q failed hw hq => exec_flashProgramDone_of_failed found failed hw hq
  · rintro n x hx frame free w y hw hy undrained
    have lands : w.programLands g = (w.landImage g.img g.host).frameCleaned n g.id :=
      State.programLands_of_frame (by rw [hw]; exact hx) frame free
    refine exec_flashProgramDone_of_done found free hw ?_ undrained
    rw [lands, State.landImage, dieGroup_eq, hy]
  · exact State.modFrame_of_some _ hf
  · exact exec_rebuildImage_of_empty rebuilding none
  · exact exec_rebuildImage_of_image rebuilding found (by rw [dieGroup_eq, hw])
  · rintro d b n _ rfl
    rfl

end Sys2Proof.Machine

/-! SUPPORT. Writes of MISS_ENGINES, LS_SHARE, the budgets and the classes (R190, R222, R226, R237), and what follows:
O14. -/

namespace Sys2Proof.Machine

open Sys2Proof

section Scheduler

variable {s : State} {v : Reg32}

/-! ### MISS_ENGINES (R190) -/

theorem State.missEngines_of_change (legal : fld v 0 5 ≤ 16) (change : fld v 0 5 ≠ fld s.mxe.ctrl 0 5) :
    s.missEngines v = ({ s with mxe := { s.mxe with ctrl := BitVec.ofNat 32 (fld v 0 5) } } : State).issueLive 4
      fun b => { b with miss := fld v 0 5 } :=
  if_neg (not_or.2 ⟨Nat.not_lt.2 legal, change⟩)

theorem State.missEngines_of_ignored (ignored : 16 < fld v 0 5 ∨ fld v 0 5 = fld s.mxe.ctrl 0 5) :
    s.missEngines v = s :=
  if_pos ignored

/-! ### Share and budgets within 90% of the allowance (R222, R226) -/

/-- The check of R226 is made against a plan in force. -/
@[simp] theorem State.drawTooHigh_iff (s : State) (allow : Nat) :
    s.drawTooHigh allow = true ↔ s.plan.cur.ver ≠ 0 ∧ 9 * allow < 10 * s.draw := by
  simp [State.drawTooHigh]

theorem State.lsShare_of_change {n : Nat} (hn : n = fld v 0 10) (least : 100 ≤ n) (most : n ≤ 500)
    (change : n ≠ fld s.col.ctrl 0 10) :
    s.lsShare v =
      if allowOf (nth s.plan.cur.rates 0) n < s.plan.cur.allow ∧ s.plan.cur.ver ≠ 0 ∧
          9 * allowOf (nth s.plan.cur.rates 0) n < 10 * s.draw then s.budgetError
      else ({ s with col := { s.col with ctrl := BitVec.ofNat 32 n } } : State).issueLive 4
        fun b => { b with lsShare := n } := by
  subst hn
  rw [State.lsShare, if_neg (by omega)]
  simp only [State.drawTooHigh_iff]

theorem State.lsShare_of_ignored (ignored : fld v 0 10 < 100 ∨ 500 < fld v 0 10 ∨ fld v 0 10 = fld s.col.ctrl 0 10) :
    s.lsShare v = s :=
  if_pos ignored

/-- A budget is refused when it raises the guaranteed draw beyond 90% of the allowance in force. -/
theorem State.colBudget_eq {w : State} (s : State) (i : Nat) (v : Reg32)
    (hw : w = { s with col := { s.col with budget := sput 0 s.col.budget i (v &&& 0x0FFF0FFF) } }) :
    s.colBudget i v =
      if s.plan.cur.ver ≠ 0 ∧ 9 * s.plan.cur.allow < 10 * w.draw ∧ s.draw < w.draw then s.budgetError else w := by
  subst hw
  simp only [State.colBudget, State.drawTooHigh_iff, and_assoc]

/-! ### Classes (R222, R226, R237) -/

/-- Kind 3 is no kind, and a class with a reservation stays guaranteed; a class that becomes guaranteed keeps the draw
within 90% of the allowance. -/
theorem State.colClass_eq {w : State} (s : State) (c : Nat) (v : Reg32)
    (hw : w = { s with col := { s.col with cls := sput 0 s.col.cls c (v &&& 0x73) } }) :
    s.colClass c v =
      if fld v 0 2 = 3 ∨ (fld v 0 2 ≠ 2 ∧ s.kind c = 2 ∧ (s.col.res.any fun r => r.cls == c) = true) then s.classError
      else if fld v 0 2 = 2 ∧ s.kind c ≠ 2 ∧ s.plan.cur.ver ≠ 0 ∧ 9 * s.plan.cur.allow < 10 * w.draw then
        s.classError.budgetError
      else w := by
  subst hw
  simp only [State.colClass, State.drawTooHigh_iff, bne_iff_ne]

/-! ### Indices of the arrays -/

variable {t i c : Nat}

theorem exec_colBudget_of_managed (hs : s.managed) (h : i < 1024) :
    exec (.colBudget t i v) s = .next ((s.start t).colBudget i v) := by
  change execColBudget t i v s = _
  rw [execColBudget, if_neg (Nat.not_le.2 h), State.viaBar_of_managed hs]

theorem exec_colClass_of_managed (hs : s.managed) (h : c < 16) :
    exec (.colClass t c v) s = .next ((s.start t).colClass c v) := by
  change execColClass t c v s = _
  rw [execColClass, if_neg (Nat.not_le.2 h), State.viaBar_of_managed hs]

theorem exec_colBudget_of_no_budget (h : 1024 ≤ i) : exec (.colBudget t i v) s = .next (s.start t) := if_pos h

theorem exec_colClass_of_no_class (h : 16 ≤ c) : exec (.colClass t c v) s = .next (s.start t) := if_pos h

end Scheduler

/-! ### The obligation -/

/-- Settles O14: a write of a managed part by its range, by the value in force and by the draw that it leaves. Model
choices among the clauses (assumption 71): the value in force issues no plan, a refusal by R226 sets both error bits of
COL_CLASS, and a budget that lowers the draw is taken. -/
theorem schedulerWrites : Obligations.SchedulerWrites := by
  rintro s _ t v hs rfl
  refine ⟨fun legal change w hw => ?_, fun ignored => ?_, fun n a hn ha least most change w hw => ?_,
    fun ignored => ?_, fun i h w hw => ?_, fun i => exec_colBudget_of_no_budget, fun c h w hw => ?_,
    fun c => exec_colClass_of_no_class⟩
  · rw [hw, exec_of_managed hs rfl, State.missEngines_of_change legal change]
    rfl
  · rw [exec_of_managed hs rfl, State.missEngines_of_ignored ignored]
  · rw [hw, ha, exec_of_managed hs rfl, State.lsShare_of_change hn least most change]
    rfl
  · rw [exec_of_managed hs rfl, State.lsShare_of_ignored ignored]
  · rw [exec_colBudget_of_managed hs h, State.colBudget_eq _ i v hw]
    rfl
  · rw [exec_colClass_of_managed hs h, State.colClass_eq _ c v hw]
    rfl

end Sys2Proof.Machine

/-! SUPPORT. Queues: what is read of one that was set, and what writes of QUE_OWNER, of QUE_CTRL and of a doorbell do
(R238, R239, R241, R242, R251), and what follows: O16 and O17. -/

namespace Sys2Proof.Machine

open Sys2Proof

/-! ### A queue that is set -/

section SetQueue

variable {s : State} (q : Nat) (v : Queue)

@[simp] theorem State.setQueue_queue (wf : swf s.queues = true) : (s.setQueue q v).queue q = v :=
  sget_sput_self _ _ _ _ wf

@[simp] theorem State.setQueue_swf (wf : swf s.queues = true) : swf (s.setQueue q v).queues = true :=
  swf_sput _ _ _ _ wf

theorem State.modQueue_eq_setQueue (s : State) (f : Queue → Queue) : s.modQueue q f = s.setQueue q (f (s.queue q)) :=
  rfl

end SetQueue

/-! ### Fields beside a bit that is set -/

theorem testBit_fld {w : Nat} (v : BitVec w) (lo n i : Nat) :
    (fld v lo n).testBit i = (decide (i < n) && bitOf v (lo + i)) := by
  rw [fld, Nat.testBit_mod_two_pow, Nat.testBit_shiftRight, bitOf, BitVec.getLsbD]

theorem fld_setBit {w : Nat} (v : BitVec w) {i lo n : Nat} (b : Bool) (below : i < lo) (fits : lo + n ≤ w) :
    fld (setBit v i b) lo n = fld v lo n := by
  refine Nat.eq_of_testBit_eq fun j => ?_
  rw [testBit_fld, testBit_fld]
  by_cases hj : j < n
  · rw [bitOf_setBit v b (by omega), if_neg (by omega)]
  · simp [hj]

/-! ### QUE_OWNER (R238) -/

section Queues

variable {s : State} {t q : Nat} {v : Reg32}

/-- A queue that is not DISABLED, and a pair of allotment and local index that another queue has, refuse the write. -/
theorem State.queOwner_eq (s : State) (q : Nat) (v : Reg32) : s.queOwner q v = s.setQueue q (
    if (s.queue q).state ≠ 0 ∨ (bitOf v 31 = true ∧ ∃ p, s.queueOf (fld v 0 6) (fld v 16 9) = some p ∧ p ≠ q) then
      { s.queue q with assignErr := true }
    else { s.queue q with owner := v &&& 0x81FF003F }) := by
  cases found : s.queueOf (fld v 0 6) (fld v 16 9) <;> simp [State.queOwner, found, apply_ite (s.setQueue q)]

/-! ### QUE_CTRL (R239, R251) -/

/-- Through management BAR0 a managed part takes the write of any queue. -/
theorem State.queVia_of_managed (hs : s.managed) (t q reg : Nat) (f : State → State) :
    (s.start t).queVia 0 q reg f = f (s.start t) := by
  rw [State.queVia, if_pos (.inl rfl), State.viaBar_of_managed hs]

theorem exec_queEnable_of_managed (hs : s.managed) (t q : Nat) (v : Reg32) :
    exec (.queEnable t 0 q v) s = .next ((s.start t).queCtrl q v) :=
  congrArg _ (State.queVia_of_managed hs ..)

theorem exec_queRestart_of_managed (hs : s.managed) (t q : Nat) (v : Reg32) :
    exec (.queRestart t 0 q v) s = .next ((s.start t).queCtrl q (setBit v 1 true)) :=
  congrArg _ (State.queVia_of_managed hs ..)

theorem ringSizes_iff : ringSizes v = true ↔ (4 ≤ fld v 4 5 ∧ fld v 4 5 ≤ 16) ∧ 4 ≤ fld v 9 5 ∧ fld v 9 5 ≤ 16 := by
  simp [ringSizes, and_assoc]

/-- A DISABLED queue that may be enabled leaves DISABLED with what it is given. -/
theorem State.queCtrl_of_legal (off : (s.queue q).state = 0) (on : bitOf v 0 = true)
    (owned : (s.queue q).assigned = true) (sizes : ringSizes v = true) :
    s.queCtrl q v = (s.setQueue q { s.queue q with ctrl := queFields true v }).enableQueue q := by
  simp [State.queCtrl, off, on, owned, sizes]

theorem State.queCtrl_of_unassigned (off : (s.queue q).state = 0) (on : bitOf v 0 = true)
    (unowned : (s.queue q).assigned = false) :
    s.queCtrl q v = s.setQueue q { s.queue q with ctrl := queFields false v, cfgErr := true } := by
  simp [State.queCtrl, off, on, unowned]

/-- A queue that is enabled already keeps its sizes and its vector. -/
theorem State.queCtrl_of_kept (live : (s.queue q).state ≠ 0) (kept : fld v 4 17 = fld (s.queue q).ctrl 4 17) :
    s.queCtrl q v = if bitOf v 1 then (s.setEnable q (bitOf v 0) (bitOf v 1)).restart q
      else s.setEnable q (bitOf v 0) (bitOf v 1) := by
  rw [State.queCtrl, if_neg live]
  simp only [if_pos kept]

theorem State.setEnable_of_drained (running : (s.queue q).state = 1) (restart : Bool) :
    s.setEnable q false restart =
      ((s.setQueue q { s.queue q with ctrl := queFields false (s.queue q).ctrl }).queueTo q 2 0).queueSettle q := by
  simp [State.setEnable, running]

theorem State.setEnable_of_stopped (stopped : (s.queue q).state = 3) (restart : Bool) :
    s.setEnable q true restart =
      (s.setQueue q { s.queue q with ctrl := queFields true (s.queue q).ctrl }).modQueue q
        fun y => { y with disabling := false } := by
  simp [State.setEnable, stopped]

/-- RESTART of a queue that stays enabled runs it, and the entries that it holds are written. -/
theorem State.restart_of_mastered (stopped : 3 ≤ (s.queue q).state) (stays : (s.queue q).disabling = false)
    (masters : s.bme (s.queue q).allotment = true) (on : bitOf (s.queue q).ctrl 0 = true) :
    s.restart q = (State.heldDrain q 64 (s.queueTo q 1 0)).queueSettle q := by
  simp [State.restart, stopped, stays, masters, on]

/-- RESTART with ENABLE of a STOPPED queue whose ENABLE is set. -/
theorem State.queCtrl_of_restart {x : Queue} (wf : swf s.queues = true) (hx : x = s.queue q) (stopped : x.state = 3)
    (on : bitOf v 0 = true) (restart : bitOf v 1 = true) (kept : fld v 4 17 = fld x.ctrl 4 17)
    (masters : s.bme x.allotment = true) (was : bitOf x.ctrl 0 = true) (same : x.ctrl = queFields true x.ctrl) :
    s.queCtrl q v = State.queueSettle (State.heldDrain q 64
      (((s.setQueue q x).modQueue q fun y => { y with disabling := false }).queueTo q 1 0)) q := by
  subst hx
  have sameQueue : { s.queue q with ctrl := queFields true (s.queue q).ctrl } = s.queue q := by rw [← same]
  rw [State.queCtrl_of_kept (by omega) kept, if_pos restart, on, State.setEnable_of_stopped stopped, sameQueue]
  have now : ((s.setQueue q (s.queue q)).modQueue q fun y => { y with disabling := false }).queue q =
      { s.queue q with disabling := false } := by
    simp [State.modQueue_eq_setQueue, wf]
  exact State.restart_of_mastered (by rw [now]; exact stopped.ge) (by rw [now]) (by rw [now]; exact masters)
    (by rw [now]; exact was)

end Queues

/-- Settles O16: a write of a managed part by the state of the queue, its ENABLE and its RESTART. -/
theorem queueControlWrites : Obligations.QueueControlWrites := by
  rintro s _ t v q _ hs rfl rfl wf
  refine ⟨?_, fun off on owned least most least' most' w hw => ?_, fun off on unowned => ?_,
    fun running off kept go => ?_, fun stopped on kept masters was same _ => ?_⟩
  · rw [exec_of_managed hs rfl, State.queOwner_eq]
    rfl
  · rw [exec_queEnable_of_managed hs,
      State.queCtrl_of_legal off on owned (ringSizes_iff.2 ⟨⟨least, most⟩, least', most'⟩), State.enableQueue,
      State.setQueue_queue _ _ wf, hw]
    rfl
  · rw [exec_queEnable_of_managed hs, State.queCtrl_of_unassigned off on unowned]
    rfl
  · rw [exec_queEnable_of_managed hs, State.queCtrl_of_kept (by omega) kept, if_neg (by simp [go]), off,
      State.setEnable_of_drained running]
  · have sizes : fld (setBit v 1 true) 4 17 = fld v 4 17 := fld_setBit v true (by decide) (by decide)
    rw [exec_queRestart_of_managed hs, State.queCtrl_of_restart wf rfl stopped (by simpa [bitOf_setBit] using on)
      (by simp [bitOf_setBit]) (sizes.trans kept) masters was same]

/-! ### Doorbells (R241, R242) -/

section Doorbells

variable {s : State} {n off q : Nat} {v : Reg64}

theorem headOk_iff {size cur tail h : Nat} :
    headOk size cur tail h = true ↔ h < size ∧ (h + size - cur) % size ≤ (tail + size - cur) % size := by
  simp [headOk]

theorem State.doorbell_of_tail (on : s.barOn n = true) (page : off < 4096) (low : off % 8 = 0) :
    s.doorbell n off 4 v = s.ring n off (some (fld v 0 16)) none := by
  simp [State.doorbell, on, low, Nat.not_le.2 page]

theorem State.doorbell_of_head (on : s.barOn n = true) (page : off < 4096) (high : off % 8 = 4) :
    s.doorbell n off 4 v = s.ring n off none (some (fld v 0 16)) := by
  simp [State.doorbell, on, high, Nat.not_le.2 page]

theorem State.doorbell_of_no_page (on : s.barOn n = true) (beyond : 4096 ≤ off) (width : Nat) :
    s.doorbell n off width v = s.err n 0x0E 4 off 0 0xFFFF 0xFFFF := by
  simp [State.doorbell, on, beyond]

theorem State.ring_tail (found : s.queueOf n (off / 8) = some q) (live : (s.queue q).state ≠ 0) (x : Nat) :
    s.ring n off (some x) none =
      if x < (s.queue q).sqSize then s.modQueue q fun y => { y with sqTail := x }
      else s.err n 0x0E 4 off 0 q 0xFFFF := by
  by_cases fits : x < (s.queue q).sqSize <;> simp [State.ring, found, live, fits]

theorem State.ring_head (found : s.queueOf n (off / 8) = some q) (live : (s.queue q).state ≠ 0) (x : Nat) :
    s.ring n off none (some x) =
      if headOk (s.queue q).cqSize (s.queue q).cqHead (s.queue q).cqTail x then s.passHead q x
      else s.err n 0x0E 4 off 0 q 0xFFFF := by
  cases fits : headOk (s.queue q).cqSize (s.queue q).cqHead (s.queue q).cqTail x <;>
    simp [State.ring, found, live, fits]

end Doorbells

/-- Settles O17: a doorbell by its half, its tail by the ring and its head by the span to the tail. -/
theorem doorbellsSetIndices : Obligations.DoorbellsSetIndices := by
  rintro s u t v n off q _ hbar hu rfl page found live
  have on : u.barOn n = true := by simpa [hu] using hbar
  have rings (o w : Nat) : exec (.doorbell t n o w v) s = .next (u.doorbell n o w v) := by subst hu; rfl
  refine ⟨fun low fits => ?_, fun low beyond => ?_, fun high fits span => ?_, fun high beyond => ?_,
    fun o w beyond => ?_⟩
  · rw [rings, State.doorbell_of_tail on page low, State.ring_tail found live, if_pos fits]
    rfl
  · rw [rings, State.doorbell_of_tail on page low, State.ring_tail found live, if_neg (Nat.not_lt.2 beyond)]
  · rw [rings, State.doorbell_of_head on page high, State.ring_head found live, if_pos (headOk_iff.2 ⟨fits, span⟩)]
    rfl
  · rw [rings, State.doorbell_of_head on page high, State.ring_head found live, if_neg]
    rw [headOk_iff]
    omega
  · rw [rings, State.doorbell_of_no_page on beyond]

end Sys2Proof.Machine

/-! SUPPORT. Event rings: what writes of their registers do, and which entry is written next (R256, R257, R259), and
what follows: O18. -/

namespace Sys2Proof.Machine

open Sys2Proof

section EventRing

variable {s : State} {n : Nat}

/-! ### ALT_EVT_CTRL and HEAD (R257, R259) -/

/-- Through management BAR0 a managed part takes the write of any allotment's own register. -/
theorem State.ownVia_of_managed (hs : s.managed) (t n mgmt view : Nat) (f : State → State) :
    (s.start t).ownVia 0 n mgmt view f = f (s.start t) := by
  rw [State.ownVia, if_pos (.inl rfl), State.viaBar_of_managed hs]

theorem exec_evtEnable_of_managed (hs : s.managed) (t n : Nat) (v : Reg32) :
    exec (.evtEnable t 0 n v) s = .next ((s.start t).evtCtrl n v) :=
  congrArg _ (State.ownVia_of_managed hs ..)

theorem exec_evtHead_of_managed (hs : s.managed) (t n : Nat) (v : Reg32) :
    exec (.evtHead t 0 n v) s = .next ((s.start t).evtPos n (0x30030 + 0x40 * n) v) :=
  congrArg _ (State.ownVia_of_managed hs ..)

theorem State.evtCtrl_of_start {v : Reg32} (off : bitOf (s.allot n).evtCtrl 0 = false) (on : bitOf v 0 = true)
    (least : 4 ≤ fld v 1 5) (most : fld v 1 5 ≤ 16) :
    s.evtCtrl n v = s.setAllot n { s.allot n with
      evtCtrl := BitVec.ofNat 32 (fld v 0 13), evtSeq := 0, evtPhase := true, evtHold := false } := by
  simp [State.evtCtrl, off, on, least, most]

theorem State.evtCtrl_of_bad_size {v : Reg32} (off : bitOf (s.allot n).evtCtrl 0 = false) (on : bitOf v 0 = true)
    (bad : fld v 1 5 < 4 ∨ 16 < fld v 1 5) :
    s.evtCtrl n v = s.setAllot n { s.allot n with evtCfgErr := true } := by
  have refused : (decide (4 ≤ fld v 1 5) && decide (fld v 1 5 ≤ 16)) = false := by simp; omega
  simp [State.evtCtrl, off, on, refused]

/-- ENABLE written again ends the hold that a failed write began, and the fields of an enabled ring stay (R259). -/
theorem State.evtCtrl_of_on {v : Reg32} (was : bitOf (s.allot n).evtCtrl 0 = true) (on : bitOf v 0 = true) :
    s.evtCtrl n v = s.setAllot n { s.allot n with
      evtCfgErr := (s.allot n).evtCfgErr || fld v 1 12 != fld (s.allot n).evtCtrl 1 12, evtHold := false } := by
  simp [State.evtCtrl, was, on]

/-! ### The next entry (R256) -/

/-- The ring takes no entry now. -/
theorem State.evtStep_of_not_writable (full : s.evtWritable n = false) : s.evtStep n = s :=
  if_neg (by simp [full])

theorem State.evtStep_of_group {e : EventEntry} {r : List EventEntry} (room : s.evtWritable n = true)
    (group : (s.allot n).evtGroup = e :: r) :
    s.evtStep n = (s.setAllot n { s.allot n with evtGroup := r }).evtPut n e (!r.isEmpty) := by
  simp only [State.evtStep, if_pos room, group]

/-- A held event that was posted before the waiting group, or with none waiting, comes first. -/
theorem Allot.groupFirst_of_held {a : Allot} {e : EventEntry} {r : List EventEntry} (held : a.evtHeld = e :: r)
    (before : ∀ g ∈ a.evtNext.head?, fld e 64 64 ≤ fld g 64 64) : a.groupFirst = false := by
  cases waits : a.evtNext with
  | nil => simp [Allot.groupFirst, waits]
  | cons g l => simpa [Allot.groupFirst, held, waits] using before g (by simp [waits])

/-- A waiting group that was posted before the held events, or with none held, leaves none of them before it. -/
theorem Allot.held_of_groupFirst {a : Allot} {g : EventEntry} {l : List EventEntry} (waits : a.evtNext = g :: l)
    (before : ∀ e ∈ a.evtHeld.head?, fld g 64 64 < fld e 64 64) :
    (if a.groupFirst then [] else a.evtHeld) = [] := by
  cases held : a.evtHeld with
  | nil => exact ite_self _
  | cons e r => exact if_pos (by simpa [Allot.groupFirst, waits, held] using before e (by simp [held]))

theorem State.evtStep_of_next {g : EventEntry} {l : List EventEntry} (room : s.evtWritable n = true)
    (idle : (s.allot n).evtGroup = []) (waits : (s.allot n).evtNext = g :: l)
    (before : ∀ e ∈ (s.allot n).evtHeld.head?, fld g 64 64 < fld e 64 64) :
    s.evtStep n = (s.setAllot n { s.allot n with evtGroup := l, evtNext := [] }).evtPut n g (!l.isEmpty) := by
  simp only [State.evtStep, if_pos room, idle, Allot.held_of_groupFirst waits before, waits]

section Held

variable {e : EventEntry} {r : List EventEntry} (room : s.evtWritable n = true) (idle : (s.allot n).evtGroup = [])
  (held : (s.allot n).evtHeld = e :: r) (before : ∀ g ∈ (s.allot n).evtNext.head?, fld e 64 64 ≤ fld g 64 64)

include room idle held before

/-- A held event is written, and a LOST event follows the held ones when events were lost and none is held yet. -/
theorem State.evtStep_of_held (kind : fld e 0 8 ≠ 8) :
    s.evtStep n = (s.setAllot n { s.allot n with
      evtHeld := if 0 < (s.allot n).evtLost ∧ ∀ x ∈ r, fld x 0 8 ≠ 8 then r ++ [eventEntry 8 s.now []] else r }).evtPut
        n e false := by
  have lost : (decide (0 < (s.allot n).evtLost) && !(r.any fun x => fld x 0 8 == 8)) = true ↔
      0 < (s.allot n).evtLost ∧ ∀ x ∈ r, fld x 0 8 ≠ 8 := by simp
  simp only [State.evtStep, if_pos room, idle, Allot.groupFirst_of_held held before, Bool.false_eq_true, if_false, held,
    if_neg kind, lost]

/-- A held LOST event is written with the counts of what was lost. -/
theorem State.evtStep_of_lost (kind : fld e 0 8 = 8) :
    s.evtStep n = (s.setAllot n { s.allot n with evtHeld := r, evtLost := 0, evtLostFault := 0 }).evtPut n
      (eventEntry 8 (fld e 64 64) [(16, 4, (s.allot n).evtLost), (20, 4, (s.allot n).evtLostFault)]) false := by
  simp only [State.evtStep, if_pos room, idle, Allot.groupFirst_of_held held before, Bool.false_eq_true, if_false, held,
    if_pos kind]

end Held

end EventRing

/-! ### The obligation -/

/-- Settles O18: writes of a managed part by ENABLE and by the span of the head, and an event write by what comes first:
a begun group, then the held events and the waiting group in the order of their posting. Model choices among the
clauses (assumptions 11 and 41): where the LOST event stands, and that an entry whose write failed is not written
again. -/
theorem eventRingRows : Obligations.EventRingRows := by
  rintro s u t v n a hs hu rfl
  have enables : exec (.evtEnable t 0 n v) s = .next (u.evtCtrl n v) := hu ▸ exec_evtEnable_of_managed hs t n v
  have passes : exec (.evtHead t 0 n v) s = .next (u.evtPos n (0x30030 + 0x40 * n) v) :=
    hu ▸ exec_evtHead_of_managed hs t n v
  have writes : exec (.eventWrite t n) s = .next (u.evtStep n) := by subst hu; rfl
  have fails : exec (.eventWriteError t n) s = if bitOf (u.allot n).evtCtrl 0 then
      .next (u.modAllot n fun a => { a with evtPostErr := true, evtHold := true }) else .next u := by subst hu; rfl
  rw [enables, passes, writes, fails]
  refine ⟨fun off on least most => congrArg _ (State.evtCtrl_of_start off on least most),
    fun off on bad => congrArg _ (State.evtCtrl_of_bad_size off on bad),
    fun was on => congrArg _ (State.evtCtrl_of_on was on), ?_,
    fun full => congrArg _ (State.evtStep_of_not_writable full),
    fun e r room idle held before => ⟨fun kind => congrArg _ (State.evtStep_of_held room idle held before kind),
      fun kind => congrArg _ (State.evtStep_of_lost room idle held before kind)⟩,
    fun g l room idle waits before => congrArg _ (State.evtStep_of_next room idle waits before),
    fun e r room group => congrArg _ (State.evtStep_of_group room group), fun on => if_pos on,
    fun off => if_neg (by simp [off])⟩
  simp only [State.evtPos, headOk_iff]
  rfl

end Sys2Proof.Machine

/-! SUPPORT. What the shared operations of rings, events, faults and error logs change, and what they leave (R247, R248,
R254 to R257, R313 to R315, R335, R357, R364), and what follows: O20. -/

namespace Sys2Proof.Machine

open Sys2Proof

/-! ### Events (R254 to R257, R357) -/

/-- `t` is `s` but for outputs, logical devices and the event ring of allotment `n`. -/
def State.PostsTo (n : Nat) (s t : State) : Prop :=
  t = { s with allots := t.allots, ep := t.ep, out := t.out } ∧
    (swf s.allots = true → swf t.allots = true ∧ ∀ m, m ≠ n → t.allot m = s.allot m)

section Posts

variable {n : Nat}

theorem State.PostsTo.trans {s t u : State} (h : State.PostsTo n s t) (g : State.PostsTo n t u) :
    State.PostsTo n s u := by
  obtain ⟨ht, keep⟩ := h
  obtain ⟨hu, keep'⟩ := g
  refine ⟨by rw [hu, ht], fun wf => ?_⟩
  obtain ⟨wfT, same⟩ := keep wf
  obtain ⟨wfU, same'⟩ := keep' wfT
  exact ⟨wfU, fun m other => (same' m other).trans (same m other)⟩

theorem State.setAllot_postsTo (s : State) (n : Nat) (a : Allot) : State.PostsTo n s (s.setAllot n a) :=
  ⟨rfl, fun wf => ⟨swf_sput _ _ _ _ wf, fun _ other => sget_sput_other _ _ _ _ _ wf other⟩⟩

theorem State.emit_postsTo (s : State) (o : Out) : State.PostsTo n s (s.emit o) :=
  ⟨rfl, fun wf => ⟨wf, fun _ _ => rfl⟩⟩

/-- A vector that is raised changes its logical device and the outputs. -/
theorem State.interrupt_postsTo (s : State) (m vec : Nat) : State.PostsTo n s (s.interrupt m vec) := by
  simp only [State.interrupt, State.updIntx]
  repeat' split
  all_goals exact ⟨rfl, fun wf => ⟨wf, fun _ _ => rfl⟩⟩

theorem State.evtPut_postsTo (s : State) (n : Nat) (e : EventEntry) (more : Bool) :
    State.PostsTo n s (s.evtPut n e more) :=
  ((s.setAllot_postsTo n _).trans (State.emit_postsTo _ _)).trans (State.interrupt_postsTo _ _ _)

/-- An event is written, held or counted as lost. -/
theorem State.post_postsTo (s : State) (n type : Nat) (fields : List (Nat × Nat × Nat)) :
    State.PostsTo n s (s.post n type fields) := by
  simp only [State.post]
  split
  · exact s.evtPut_postsTo n _ _
  · split <;> exact s.setAllot_postsTo n _

end Posts

/-- The entry goes into the slot at the tail, and PHASE turns as the tail wraps. -/
theorem State.evtPut_eq (s : State) (n : Nat) (e : EventEntry) (more : Bool) {a : Allot} (ha : a = s.allot n) :
    s.evtPut n e more = State.interrupt { s with
      allots := sput .init s.allots n { a with
        evtTail := (a.evtTail + 1) % 2 ^ fld a.evtCtrl 1 5
        evtSeq := (a.evtSeq + 1) % 65536
        evtPhase := if (a.evtTail + 1) % 2 ^ fld a.evtCtrl 1 5 = 0 then !a.evtPhase else a.evtPhase }
      out := s.out ++ [.ringWrite n (a.evtBase.toNat / 64 * 64 + a.evtTail * 64) 64
        (BitVec.ofNat 512 (e.toNat + atB 8 more + atB 15 a.evtPhase + at_ 16 16 a.evtSeq))] }
      n (fld a.evtCtrl 6 7) := by
  subst ha
  simp only [State.evtPut, beq_iff_eq]
  rfl

/-! ### FAULT events (R313, R314, R364) -/

/-- `t` is `s` but for outputs, logical devices, event rings and WAKE#. -/
def State.Signals (s t : State) : Prop :=
  t = { s with allots := t.allots, ep := t.ep, out := t.out, gen := t.gen }

theorem State.Signals.trans {s t u : State} (h : s.Signals t) (g : t.Signals u) : s.Signals u := by
  unfold State.Signals at *
  rw [g, h]

theorem State.Signals.foldl {α : Type} {f : State → α → State} (h : ∀ (s : State) a, s.Signals (f s a)) (l : List α)
    (s : State) : s.Signals (l.foldl f s) := by
  induction l generalizing s with
  | nil => exact rfl
  | cons a l ih => exact (h s a).trans (ih _)

theorem State.PostsTo.signals {n : Nat} {s t : State} (h : State.PostsTo n s t) : s.Signals t := by
  rw [State.Signals, h.1]

theorem State.signalPme_signals (s : State) (k : Nat) : s.Signals (s.signalPme k) := by
  simp only [State.signalPme]
  repeat' split
  all_goals rfl

/-- Beyond its entry of the part fault log, a FAULT event posts to its receivers and signals their functions. -/
theorem State.faultTo_signals (s : State) (dests : List Nat) (unit reason num ext addr : Nat) :
    (s.plogPut ⟨reason, unit, 1, num, ext, s.now, 0, addr⟩).Signals (s.faultTo dests unit reason num ext addr) :=
  .foldl (fun s n => (s.post_postsTo n _ _).signals.trans (State.signalPme_signals _ _)) dests _

/-! ### The configuration's digest (R335, R336) -/

/-- A record leaves the digest, which DET_CONFIG_DIGEST holds. -/
@[simp] theorem State.record_digest (s : State) (type flags allot queue : Nat) (stamp : Count) (detail : Nat)
    (pkt : Packet) (units n : Nat) :
    (s.record type flags allot queue stamp detail pkt units n).det.digest = s.det.digest := by
  simp only [State.record]
  repeat' split
  all_goals rfl

theorem State.digestUpdate_digest (s : State) : s.digestUpdate.det.digest = s.configDigest := by
  rw [State.digestUpdate]
  split
  next same => exact same.symm
  next => rw [State.recordConfig, State.record_digest]

/-! ### Error logs (R315) -/

theorem State.err_eq (s : State) (n code source addr detail queue ext : Nat) :
    ∃ a, s.err n code source addr detail queue ext = s.setAllot n a := by
  simp only [State.err]
  repeat' split
  all_goals exact ⟨_, rfl⟩

theorem State.err_of_empty {s : State} {n : Nat} (empty : (s.allot n).log = [])
    (code source addr detail queue ext : Nat) :
    s.err n code source addr detail queue ext = s.setAllot n { s.allot n with
      log := [⟨code, source, 1, queue, ext, s.now, addr, detail⟩], logTotal := (s.allot n).logTotal + 1 } := by
  simp only [State.err, empty]

/-! ### The obligation -/

/-- Settles O20: a completion and an event by their equation, the others by what they leave. -/
theorem sharedOperationsKeepTheRest : Obligations.SharedOperationsKeepTheRest := by
  refine ⟨?_, fun s n e more a ha => s.evtPut_eq n e more ha, fun s => ⟨?_, fun same => if_pos same,
      s.digestUpdate_digest⟩, fun s n type l => ?_, fun s dests unit reason num ext addr =>
      s.faultTo_signals dests unit reason num ext addr, fun s n code source addr detail queue ext =>
      ⟨?_, fun empty => State.err_of_empty empty code source addr detail queue ext⟩⟩
  · rintro s q e p intr held c _ rfl
    rfl
  · obtain ⟨d, hd⟩ := s.digestUpdate_eq
    rw [hd]
  · obtain ⟨same, others⟩ := s.post_postsTo n type l
    exact ⟨same, fun wf => (others wf).2⟩
  · obtain ⟨a, ha⟩ := s.err_eq n code source addr detail queue ext
    rw [ha]
    rfl

end Sys2Proof.Machine

/-! SUPPORT. Configuration requests and the BAR0 registers of a logical device, its HDM decoders and its IDE streams
(R70, R252, R351, R357, R359 to R362, R365), and what follows: O32. -/

namespace Sys2Proof.Machine

open Sys2Proof

section Function

variable {s u : State} {t p l k n : Nat} {c : Instr} {f : State → State}

/-! ### The way to a function -/

/-- A function that serves takes its configuration requests (R360, R463). -/
theorem exec_of_served (way : exec c s = .next (u.config k f)) (served : u.served k = true)
    (ready : (u.ld k).crs = false) : exec c s = .next (f u) := by
  simp [way, State.config, served, ready]

theorem exec_of_not_served (way : exec c s = .next (u.config k f))
    (retried : u.served k = false ∨ (u.ld k).crs = true) :
    exec c s = .next u := by
  rw [way, State.config_of_not_served retried]

/-- The blocks in BAR0 of a logical device take writes while its allotment's BARs decode (R347). -/
theorem exec_of_ldBar (way : exec c s = .next (u.ldBar k f)) (bound : u.allotOf k = some n) (on : u.barOn n = true) :
    exec c s = .next (f u) := by
  simp [way, State.ldBar, bound, on]

/-! ### Bus mastering and D-states (R252, R359, R361, R362) -/

theorem State.leaveRest_of_awake (awake : s.ep.lowPower = false) : s.leaveRest = s :=
  if_neg (by simp [awake])

theorem State.leaveRest_of_lowPower (rests : s.ep.lowPower = true) :
    s.leaveRest = { s with ep := { s.ep with exiting := true } } :=
  if_pos rests

section Served

variable (served : (s.start t).served (ldKey p l) = true) (ready : ((s.start t).ld (ldKey p l)).crs = false) {x : State}

include served ready

/-- A function that stops mastering takes its allotment's mastering with it (R252). -/
theorem exec_busMasterClear_of_master
    (hx : x = (s.start t).setLd (ldKey p l) { (s.start t).ld (ldKey p l) with bme := false })
    (bound : x.allotOf (ldKey p l) = some n) (was : ((s.start t).ld (ldKey p l)).master = true) :
    exec (.busMasterClear t p l) s = .next (x.masterLost n) := by
  subst hx
  refine (exec_of_served rfl served ready).trans ?_
  simp only [State.modLd, bound, was, if_true]

theorem exec_busMasterClear_of_no_master (was : ((s.start t).ld (ldKey p l)).master = false) :
    exec (.busMasterClear t p l) s =
      .next ((s.start t).setLd (ldKey p l) { (s.start t).ld (ldKey p l) with bme := false }) := by
  refine (exec_of_served rfl served ready).trans ?_
  simp only [State.modLd, was, Bool.false_eq_true, if_false]
  split <;> rfl

theorem exec_d3hotEntry_of_bound
    (hx : x = (s.start t).setLd (ldKey p l) { (s.start t).ld (ldKey p l) with dstate := 3 })
    (bound : x.allotOf (ldKey p l) = some n) : exec (.d3hotEntry t p l) s = .next (x.masterLost n) := by
  subst hx
  refine (exec_of_served rfl served ready).trans ?_
  simp only [State.modLd, bound]

theorem exec_d0Entry_of_served :
    exec (.d0Entry t p l) s = .next (State.masterBack
      ((s.start t).setLd (ldKey p l) { (s.start t).ld (ldKey p l) with dstate := 0 }).leaveRest (ldKey p l)) :=
  (exec_of_served rfl served ready).trans rfl

end Served

/-! ### HDM decoders and IDE streams (R70, R365) -/

section Decoders

variable (bound : (s.start t).allotOf (ldKey p l) = some n) (on : (s.start t).barOn n = true) (i : Nat)
  {d : HdmDecoder}

include bound on

theorem exec_hdmDecoderCommit_of_legal (legal : decoderOk d = true) :
    exec (.hdmDecoderCommit t p l i d) s = .next ((s.start t).modLd (ldKey p l) fun x => { x with
      decoders := sins x.decoders i { d with dpaBase := x.nextDpa i d.skip }
      decErr := x.decErr.filter (· != i) }) := by
  refine (exec_of_ldBar rfl bound on).trans ?_
  simp only [legal, if_true]

theorem exec_hdmDecoderCommit_of_illegal (illegal : decoderOk d = false) :
    exec (.hdmDecoderCommit t p l i d) s = .next ((s.start t).modLd (ldKey p l) fun x => { x with
      decoders := sdel x.decoders i, decErr := i :: x.decErr.filter (· != i) }) := by
  refine (exec_of_ldBar rfl bound on).trans ?_
  simp only [illegal, Bool.false_eq_true, if_false]

end Decoders

/-- A stream is keyed over a secured session, and a link's stream through LD-ID 0. -/
theorem exec_ideKm_of_session {i : Nat} (secured : ((s.start t).ld (ldKey p l)).sessions ≠ []) (own : 2 ≤ i ∨ l = 0) :
    exec (.ideKm t p l i true) s = .next (State.modHport
      ((s.start t).modLd (ldKey p l) fun d => { d with lastSigned := none }) p fun h => { h with
        ide := if h.ide.contains i then h.ide else h.ide ++ [i] }) := by
  refine if_neg fun refused => ?_
  simp only [Bool.not_true, Bool.false_eq_true, List.isEmpty_iff, secured, bne_iff_ne, false_or] at refused
  omega

theorem exec_ideKm_of_refused {i : Nat} {b : Bool}
    (refused : b = false ∨ ((s.start t).ld (ldKey p l)).sessions = [] ∨ (i < 2 ∧ l ≠ 0)) :
    exec (.ideKm t p l i b) s = .next (s.start t) :=
  if_pos (by simpa using refused)

end Function

/-! ### The obligation -/

/-- Settles O32: a configuration request by whether its function serves, a write in BAR0 by what it names, and a stream
by its session. Model choice among the clauses (assumption 16): a decoder's device addresses follow those of the
decoders below it. -/
theorem functionRows : Obligations.FunctionRows := by
  rintro s _ t p l _ n rfl rfl
  refine ⟨fun served ready => ⟨(exec_of_served rfl served ready).trans rfl,
      fun x hx => exec_busMasterClear_of_master served ready hx, exec_busMasterClear_of_no_master served ready,
      fun x hx => exec_d3hotEntry_of_bound served ready hx,
      fun awake => ?_, fun rests x hx => ?_, fun b => (exec_of_served rfl served ready).trans rfl,
      (exec_of_served rfl served ready).trans rfl⟩,
    fun retried => ⟨exec_of_not_served rfl retried, exec_of_not_served rfl retried, exec_of_not_served rfl retried,
      exec_of_not_served rfl retried, fun b => exec_of_not_served rfl retried, exec_of_not_served rfl retried⟩,
    fun bound on => ⟨fun i d => exec_hdmDecoderCommit_of_legal bound on i,
      fun i d => exec_hdmDecoderCommit_of_illegal bound on i, fun v => (exec_of_ldBar rfl bound on).trans rfl⟩,
    fun i => exec_ideKm_of_session, fun i b => exec_ideKm_of_refused⟩
  · rw [exec_d0Entry_of_served served ready, State.leaveRest_of_awake (s := (s.start t).setLd _ _) awake]
  · rw [exec_d0Entry_of_served served ready, State.leaveRest_of_lowPower (s := (s.start t).setLd _ _) rests, hx]

end Sys2Proof.Machine

/-! SUPPORT. Wipes, the leaky buckets and the Gleaner's passes (R292, R299, R304 to R306), and what follows: O51. -/

namespace Sys2Proof.Machine

open Sys2Proof

/-! ### One change to every channel of a list -/

section EachChan

variable {s : State} {f : Chan → Chan}

theorem State.modChan_chan (wf : swf s.drm.chans = true) (c ch : Nat) :
    (s.modChan c f).chan ch = if ch = c then f (s.chan ch) else s.chan ch := by
  split
  next h => subst h; exact State.setChan_chan _ _ wf
  next h => exact sget_sput_other _ _ _ _ _ wf h

/-- A change to each channel of a list touches the channels alone, and each of those listed once. -/
theorem State.foldl_modChan {l : List Nat} (once : l.Nodup) (wf : swf s.drm.chans = true) :
    ∃ chs : Sparse Chan,
      l.foldl (fun s c => s.modChan c f) s = { s with drm := { s.drm with chans := chs } } ∧
      ∀ ch, sget .init chs ch = if ch ∈ l then f (s.chan ch) else s.chan ch := by
  induction l generalizing s with
  | nil => exact ⟨s.drm.chans, rfl, fun ch => rfl⟩
  | cons c l ih =>
    obtain ⟨fresh, once⟩ := List.nodup_cons.1 once
    obtain ⟨chs, folded, each⟩ := ih (s := s.modChan c f) once (State.setChan_swf _ _ wf)
    refine ⟨chs, folded, fun ch => ?_⟩
    rw [each, State.modChan_chan wf]
    by_cases h : ch = c
    · simp [h, fresh]
    · simp [h]

/-- A change to every channel of the part (0 to 71). -/
theorem State.foldl_range_modChan (f : Chan → Chan) (wf : swf s.drm.chans = true) :
    ∃ chs : Sparse Chan,
      (List.range 72).foldl (fun s c => s.modChan c f) s = { s with drm := { s.drm with chans := chs } } ∧
      ∀ ch, sget .init chs ch = if ch < 72 then f (s.chan ch) else s.chan ch := by
  simpa only [List.mem_range] using State.foldl_modChan (f := f) List.nodup_range wf

end EachChan

section Integrity

variable {s v : State} {t n : Nat} {env : ReadEnv}

/-! ### Wipes (R299) -/

theorem exec_pageWipe_of_none (none : (s.start t).nextWipe = none) : exec (.pageWipe t) s = .next (s.start t) := by
  change execPageWipe t s = _
  simp only [execPageWipe, none]

theorem exec_pageWipe_of_some {f : Frame} (next : (s.start t).nextWipe = some n) (hf : (s.start t).frame n = some f) :
    exec (.pageWipe t) s = .next (((s.start t).setFrame n { f with
      wipe := none, promoted := false, lines := [], errs := [], lens := [], lenDie := [] }).wake .wipe n noEnv) := by
  change execPageWipe t s = _
  simp only [execPageWipe, next, State.doWipe, State.modFrame_of_some _ hf]

/-! ### Buckets (R292) -/

/-- Each passed leak interval is one error less in every bucket. -/
theorem exec_bucketLeak_lowers {u : State} (hu : u = s.start t) (wf : swf u.drm.chans = true)
    (hn : n = u.now / u.leakEvery - u.int.lastLeak / u.leakEvery) :
    ∃ chs : Sparse Chan, exec (.bucketLeak t) s = .next { u with
        drm := { u.drm with chans := chs }, int := { u.int with lastLeak := u.now } } ∧
      ∀ ch, sget .init chs ch = if ch < 72 then { u.chan ch with bucket := (u.chan ch).bucket - n } else u.chan ch := by
  subst hu hn
  obtain ⟨chs, folded, each⟩ := State.foldl_range_modChan (s := s.start t) (fun ch => { ch with bucket := ch.bucket -
    ((s.start t).now / (s.start t).leakEvery - (s.start t).int.lastLeak / (s.start t).leakEvery) }) wf
  refine ⟨chs, ?_, each⟩
  change execBucketLeak t s = _
  simp only [execBucketLeak, folded]
  rfl

/-! ### Passes of the Gleaner (R304 to R306) -/

theorem exec_scrubPassStart (s : State) (t : Nat) : exec (.scrubPassStart t) s = .next (
    if (s.start t).gen.phase ≠ 6 ∨ (s.start t).int.inPass = true ∨ ((s.start t).int.passes ≠ 0 ∧
      (s.start t).now < (s.start t).int.passStart + hours (s.start t).int.passPeriod) then s.start t
    else (s.start t).startPass) := by
  change execScrubPassStart t s = _
  simp only [execScrubPassStart, bne_iff_ne]
  split <;> rfl

theorem State.passLate_of_late (runs : v.int.inPass = true) (unset : v.int.passLate = false)
    (late : v.int.passStart + hours v.int.passPeriod < v.now) :
    v.passLate = { v with int := { v.int with status := setBit v.int.status 8 true, passLate := true } } :=
  if_pos ⟨runs, by simp [unset], late⟩

theorem State.passLate_of_not_late
    (fine : v.int.inPass = false ∨ v.int.passLate = true ∨ v.now ≤ v.int.passStart + hours v.int.passPeriod) :
    v.passLate = v := by
  refine if_neg fun ⟨runs, unset, late⟩ => ?_
  rcases fine with idle | known | early
  · simp [idle] at runs
  · simp [known] at unset
  · exact absurd late (Nat.not_lt.2 early)

/-- The end of a pass counts it, and the hard lines that it met become those of the last pass. -/
theorem State.endPass_eq (wf : swf v.drm.chans = true) :
    ∃ chs : Sparse Chan, v.endPass = { v with
        drm := { v.drm with chans := chs }
        int := { v.int with inPass := false, passes := (v.int.passes + 1) % 2 ^ 32 } } ∧
      ∀ ch, sget .init chs ch =
        if ch < 72 then { v.chan ch with hard := (v.chan ch).hardNow, hardNow := 0 } else v.chan ch := by
  obtain ⟨chs, folded, each⟩ := State.foldl_range_modChan
    (s := { v with int := { v.int with inPass := false, passes := (v.int.passes + 1) % 2 ^ 32 } })
    (fun ch => { ch with hard := ch.hardNow, hardNow := 0 }) wf
  exact ⟨chs, by rw [State.endPass, folded], each⟩

theorem State.endPass_chan (wf : swf v.drm.chans = true) {ch : Nat} (served : ch < 72) :
    v.endPass.chan ch = { v.chan ch with hard := (v.chan ch).hardNow, hardNow := 0 } := by
  obtain ⟨chs, ended, each⟩ := State.endPass_eq wf
  rw [ended]
  exact (each ch).trans (if_pos served)

theorem State.endPass_int (wf : swf v.drm.chans = true) :
    v.endPass.int = { v.int with inPass := false, passes := (v.int.passes + 1) % 2 ^ 32 } := by
  obtain ⟨chs, ended, -⟩ := State.endPass_eq wf
  rw [ended]

section Visit

variable (hv : v = (s.startEnv t env).passLate)
include hv

theorem exec_scrubFrame_of_idle (idle : v.int.inPass = false ∨ v.ep.lowPower = true) :
    exec (.scrubFrame t env) s = .next v := by
  subst hv
  exact if_pos (by simpa using idle)

variable (runs : v.int.inPass = true) (awake : v.ep.lowPower = false)
include runs awake

theorem exec_scrubFrame_of_none (none : v.nextScrub = none) : exec (.scrubFrame t env) s = .next v.endPass := by
  subst hv
  change execScrubFrame t env s = _
  simp [execScrubFrame, runs, awake, none]

theorem exec_scrubFrame_of_some {x : State} (next : v.nextScrub = some n)
    (hx : x = { v.scrubFrame n env with int := { (v.scrubFrame n env).int with pos := n + 1 } }) :
    exec (.scrubFrame t env) s = .next (if x.nextScrub = none then x.endPass else x) := by
  subst hv hx
  change execScrubFrame t env s = _
  simp [execScrubFrame, runs, awake, next]

end Visit

end Integrity

/-! ### The obligation -/

/-- Settles O51: a wipe by what is pending, the buckets by the intervals that passed, and the Gleaner by its pass, its
next frame and the end of its period. -/
theorem wipeAndScrubRows : Obligations.WipeAndScrubRows := by
  rintro s _ t rfl
  refine ⟨exec_pageWipe_of_none, fun n f next hf w hw => ?_, fun wf n => exec_bucketLeak_lowers rfl wf,
    fun held => ?_, fun ready ended due => ?_,
    fun v => ⟨State.passLate_of_late, State.passLate_of_not_late⟩,
    fun env v hv => ⟨exec_scrubFrame_of_idle hv, exec_scrubFrame_of_none hv, ?_⟩,
    fun wf ch h => ?_⟩
  · subst hw
    have wiped := exec_pageWipe_of_some next hf
    exact ⟨wiped, fun others => wiped.trans (congrArg _ (State.wake_of_none noEnv others))⟩
  · exact (exec_scrubPassStart s t).trans (congrArg _ (if_pos held))
  · exact (exec_scrubPassStart s t).trans (congrArg _ (if_neg (by grind [hours])))
  · rintro n _ x runs awake next rfl hx
    exact exec_scrubFrame_of_some hv runs awake next hx
  · rw [State.endPass_chan wf h, State.endPass_int wf]
    exact ⟨rfl, rfl, rfl, rfl⟩

end Sys2Proof.Machine

/-! SUPPORT. PERST# and the links of host ports (R310, R345, R454), and what follows: O30. -/

namespace Sys2Proof.Machine

open Sys2Proof

section HostPorts

variable {s x : State} {t p r w : Nat}

/-! ### PERST# (R454) -/

theorem exec_perstAssert_of_merged (merged : (s.start t).portMode p = 2) :
    exec (.perstAssert t p) s = .next (s.start t) :=
  if_pos merged

theorem exec_perstDeassert_of_merged (merged : (s.start t).portMode p = 2) :
    exec (.perstDeassert t p) s = .next (s.start t) :=
  if_pos merged

/-- PERST# low stops the training of a port, and takes down the link that it has. -/
theorem exec_perstAssert_of_not_merged (own : (s.start t).portMode p ≠ 2)
    (hx : x = (s.start t).modHport p fun h => { h with perst := true, training := false, held := none }) :
    exec (.perstAssert t p) s = .next (if (x.hport p).rate = 0 then x else x.linkDown p) := by
  subst hx
  exact if_neg own

theorem exec_perstDeassert_of_not_merged (own : (s.start t).portMode p ≠ 2) :
    exec (.perstDeassert t p) s = .next ((s.start t).modHport p fun h => { h with
      perst := false
      training := h.training || ((s.start t).gen.pwrGood && (s.start t).portLive p && h.rate == 0) }) :=
  if_neg own

/-! ### Training (R345) -/

/-- A link that trains to an operating point is up at it, and degraded below the top one. -/
theorem State.linkUp_of_pointOk (ok : s.pointOk p r w = true)
    (hx : x = { s with ep := { s.ep with
      ports := sput .init s.ep.ports p { s.hport p with
        rate := r, width := w, training := false, held := none
        replays := ((s.hport p).replays + (s.hport p).corrupt) % 2 ^ 32, corrupt := 0 }
      linkChange := true } }) :
    s.linkUp p r w = (x.linkPoor p r w).digestUpdate := by
  subst hx
  exact if_pos ok

theorem State.linkUp_of_not_pointOk (bad : s.pointOk p r w = false) : s.linkUp p r w = s.holdDown p :=
  if_neg (by simp [bad])

theorem exec_linkUp (s : State) (t p r w : Nat) : exec (.linkUp t p r w) s = .next (
    if ((s.start t).hport p).training = true ∧ ((s.start t).hport p).held = none then (s.start t).linkUp p r w
    else s.start t) := by
  change execLinkUp t p r w s = _
  simp only [execLinkUp, Bool.and_eq_true, Option.isNone_iff_eq_none]

/-- The count from which the training of a link that is held down is tried again has come. -/
def HostPort.retryDue (h : HostPort) (now : Count) : Prop :=
  h.training = true ∧ ∃ c, h.held = some c ∧ c ≤ now

theorem HostPort.retryDue_iff (h : HostPort) (now : Count) :
    h.retryDue now ↔ (h.training && h.held.any fun c => decide (c ≤ now)) = true := by
  simp only [HostPort.retryDue, Bool.and_eq_true, Option.any_eq_true, decide_eq_true_eq]

theorem exec_linkTrainingRetry_of_due (due : ((s.start t).hport p).retryDue (s.start t).now) :
    exec (.linkTrainingRetry t p r w) s = .next (
      if (s.start t).pointOk p r w then (s.start t).linkUp p r w
      else (s.start t).modHport p fun h => { h with held := some ((s.start t).now + 1000000000) }) :=
  congrArg Host.Outcome.next (if_pos ((HostPort.retryDue_iff _ _).1 due))

theorem exec_linkTrainingRetry_of_not_due (early : ¬ ((s.start t).hport p).retryDue (s.start t).now) :
    exec (.linkTrainingRetry t p r w) s = .next (s.start t) :=
  congrArg Host.Outcome.next (if_neg fun due => early ((HostPort.retryDue_iff _ _).2 due))

/-! ### Links that go down or degrade (R310) -/

theorem exec_linkDown (s : State) (t p : Nat) : exec (.linkDown t p) s = .next (
    if ((s.start t).hport p).rate = 0 then s.start t else (s.start t).linkDown p) :=
  rfl

theorem exec_linkDegraded_of_down (down : ((s.start t).hport p).rate = 0) :
    exec (.linkDegraded t p r w) s = .next (s.start t) :=
  if_pos down

section Degraded

variable (up : ((s.start t).hport p).rate ≠ 0)
include up

theorem exec_linkDegraded_of_not_pointOk (bad : (s.start t).pointOk p r w = false) :
    exec (.linkDegraded t p r w) s = .next ((s.start t).holdDown p) :=
  (if_neg up).trans (if_pos (by simp [bad]))

/-- A link that degrades to an operating point keeps serving. -/
theorem exec_linkDegraded_of_pointOk (ok : (s.start t).pointOk p r w = true)
    (hx : x = { s.start t with ep := { (s.start t).ep with
      ports := sput .init (s.start t).ep.ports p { (s.start t).hport p with rate := r, width := w }
      linkChange := true } }) :
    exec (.linkDegraded t p r w) s = .next (x.faultTo (x.portAllots p) 5 0x50 p 0xFFFF 0).digestUpdate := by
  subst hx
  exact (if_neg up).trans (if_neg (by simp [ok]))

end Degraded

end HostPorts

/-! ### The obligation -/

/-- Settles O30: PERST# by whether its port is merged, training by whether it is due and by the point reached, and a
link that goes down or degrades by whether it is up. Model's choices among the clauses: the period of the retries
(assumption 115), and that a point outside R345 takes the link down with its event (assumption 42). -/
theorem portRows : Obligations.PortRows := by
  rintro s _ t p r w rfl
  refine ⟨fun merged => ⟨exec_perstAssert_of_merged merged, exec_perstDeassert_of_merged merged⟩,
    fun own x hx up => ?_, fun own x hx down => ?_, exec_perstDeassert_of_not_merged,
    fun trains ok x y hx hy => ?_, fun trains bad => ⟨fun free => ?_, fun c held passed => ?_⟩,
    fun idle => ?_, fun early => exec_linkTrainingRetry_of_not_due ?_, ?_,
    fun down => ⟨?_, exec_linkDegraded_of_down down⟩, fun up => ?_,
    exec_linkDegraded_of_not_pointOk, fun up ok x hx => exec_linkDegraded_of_pointOk up ok hx⟩
  · rw [exec_perstAssert_of_not_merged own hx, if_neg up]
  · rw [exec_perstAssert_of_not_merged own hx, if_pos down]
  · have trained : (s.start t).linkUp p r w = y := (State.linkUp_of_pointOk ok hx).trans hy.symm
    refine ⟨fun free => ?_, fun c held passed => ?_⟩
    · rw [exec_linkUp, if_pos ⟨trains, free⟩, trained]
    · rw [exec_linkTrainingRetry_of_due ⟨trains, c, held, passed⟩, if_pos ok, trained]
  · rw [exec_linkUp, if_pos ⟨trains, free⟩, State.linkUp_of_not_pointOk bad]
  · rw [exec_linkTrainingRetry_of_due ⟨trains, c, held, passed⟩, if_neg (by simp [bad])]
    rfl
  · rw [exec_linkUp, if_neg (by grind)]
  · rintro ⟨trains, c, held, passed⟩
    rcases early with idle | early
    · exact Bool.noConfusion (idle.symm.trans trains)
    · exact absurd passed (Nat.not_le.2 (early c held))
  · rintro x rfl
    rfl
  · rw [exec_linkDown, if_pos down]
  · rw [exec_linkDown, if_neg up]

end Sys2Proof.Machine

/-! SUPPORT. Resets of functions and what a link-down resets (R310, R320, R345, R351, R360, R406), and what follows:
O31. -/

namespace Sys2Proof.Machine

open Sys2Proof

section FunctionReset

variable {s : State} {k n kind : Nat}

/-! ### The exit from low power touches no table (R362) -/

theorem State.leaveRest_eq (s : State) : s.leaveRest =
    if s.ep.lowPower then { s with ep := { s.ep with exiting := true } } else s :=
  rfl

@[simp] theorem State.leaveRest_ld (s : State) (k : Nat) : s.leaveRest.ld k = s.ld k := by
  rw [State.leaveRest_eq]
  split <;> rfl

@[simp] theorem State.leaveRest_allotOf (s : State) (k : Nat) : s.leaveRest.allotOf k = s.allotOf k := by
  rw [State.leaveRest_eq]
  split <;> rfl

@[simp] theorem State.leaveRest_now (s : State) : s.leaveRest.now = s.now := by
  rw [State.leaveRest_eq]
  split <;> rfl

/-! ### A function and its allotment (R320, R360) -/

theorem State.resetFunction_of_unbound (kind : Nat) (unbound : s.allotOf k = none) :
    s.resetFunction k kind = s.leaveRest.setLd k ((s.ld k).reset (s.wantAperture k)) := by
  simp only [State.resetFunction, State.leaveRest_allotOf, unbound, State.modLd, State.leaveRest_ld]

/-- The allotment of a function is reset with it, at this count, and the function retries configuration requests. -/
theorem State.resetFunction_of_bound (kind : Nat) (bound : s.allotOf k = some n) :
    s.resetFunction k kind =
      (s.leaveRest.setLd k { (s.ld k).reset (s.wantAperture k) with crs := true }).resetAllot n kind s.now none := by
  simp only [State.resetFunction, State.leaveRest_allotOf, bound, State.modLd, State.leaveRest_ld,
    State.leaveRest_now]

theorem Ld.reset_masks_vector (d : Ld) (aperture : Nat) {v : Nat} (vector : v < 128) :
    (d.reset aperture).masked.contains v = true :=
  List.contains_iff_mem.2 (List.mem_range.2 vector)

end FunctionReset

/-! ### The obligation -/

/-- Settles O31: a function with and without an allotment, the fields of its device, and a link by the functions that
its port exposes. Model's choice among the clauses (assumption 44): decoders and accepted capacity are kept. -/
theorem functionResetsClearTheirDevice : Obligations.FunctionResetsClearTheirDevice := by
  refine ⟨?_, ?_⟩
  · rintro s k kind _ rfl
    exact ⟨State.resetFunction_of_unbound kind, fun n => State.resetFunction_of_bound kind, s.leaveRest_eq,
      rfl, rfl, rfl, rfl, rfl, rfl, rfl, rfl, fun v => Ld.reset_masks_vector _ _, rfl, rfl, rfl⟩
  · rintro s p _ rfl _ rfl
    rfl

end Sys2Proof.Machine

/-! SUPPORT. The quiesce count of an allotment reset (R320 to R322, R360), and what follows: O33. -/

namespace Sys2Proof.Machine

open Sys2Proof

section Quiesce

variable {s : State} {t n c m q : Nat}

theorem exec_quiesce_of_no_reset (idle : ((s.start t).allot n).resetAt = none) :
    exec (.quiesce t n) s = .next (s.start t) := by
  change execQuiesce t n s = _
  simp only [execQuiesce, idle]

section Running

variable (running : ((s.start t).allot n).resetAt = some (c, m, q))
include running

/-- A reset waits for its abandoned work, and no longer than 100 ms (R320). -/
theorem exec_quiesce_of_busy (busy : (s.start t).resetBusy n c = true) (early : (s.start t).now < c + 100000000) :
    exec (.quiesce t n) s = .next (s.start t) := by
  change execQuiesce t n s = _
  simp only [execQuiesce, running]
  exact if_pos ⟨busy, early⟩

/-- The end of a reset that no ALT_RESET waits for: the log entry, the allotment, and its function (R322, R360). -/
theorem exec_quiesce_of_ended (ended : (s.start t).resetBusy n c = false ∨ c + 100000000 ≤ (s.start t).now)
    (unasked : ((s.start t).allot n).resetCmd = none) {x : State}
    (hx : x = ((s.start t).liftLocks.err n 0x10 5 0 (at_ 0 16 m + at_ 16 16 q + at_ 32 8 9) 0xFFFF 0xFFFF).modAllot n
      fun a => { a with
        state := if a.state = 2 then (if a.enabled then 1 else 0) else a.state
        resetAt := none, resetCmd := none, cause := setFld a.cause 16 16 m }) :
    exec (.quiesce t n) s = .next (x.modLd (x.ldOf n) fun d => { d with crs := false }) := by
  have past : ¬ ((s.start t).resetBusy n c = true ∧ (s.start t).now < c + 100000000) := by
    rintro ⟨busy, early⟩
    rcases ended with done | late
    · simp [done] at busy
    · exact absurd early (Nat.not_lt.2 late)
  subst hx
  change execQuiesce t n s = _
  simp only [execQuiesce, running, unasked]
  exact if_neg past

end Running

end Quiesce

/-! ### The obligation -/

/-- Settles O33: a reset by whether one runs, by its work and by its bound of 100 ms. Model's choice among the clauses
(assumption 37): an allotment that was disabled meanwhile leaves RESETTING to 0. -/
theorem quiesceEndsTheReset : Obligations.QuiesceEndsTheReset := by
  rintro s _ t n rfl
  exact ⟨exec_quiesce_of_no_reset, fun c m q => exec_quiesce_of_busy,
    fun c m q running ended unasked x => exec_quiesce_of_ended running ended unasked⟩

end Sys2Proof.Machine

/-! SUPPORT. DET_CTRL, time windows, the drain of the buffer and the copy of the log (R327, R334 to R338, R341), and
what follows: O55. -/

namespace Sys2Proof.Machine

open Sys2Proof

/-! ### DET_CTRL (R327, R336, R337) -/

/-- The two fields of DET_CTRL side by side: the bits as written, and the window length that is in range. -/
theorem detWord_eq (old v : Reg32) : detWord old v = BitVec.ofNat 32 (2 ^ 8 * kept old v 8 6 16 40 + fld v 0 5) := by
  rw [Nat.add_comm, ← at_kept]
  rfl

theorem bitOf_detWord (old v : Reg32) {i : Nat} (h : i < 5) : bitOf (detWord old v) i = bitOf v i := by
  have low : fld v 0 5 < 2 ^ 8 := (fld_lt v 0 5).trans (by decide)
  rw [detWord_eq, bitOf, BitVec.getLsbD_ofNat, Nat.testBit_two_pow_mul_add _ low, if_pos (by omega), testBit_fld]
  simp [h, show i < 32 by omega]

theorem fld_detWord (old v : Reg32) : fld (detWord old v) 8 6 = kept old v 8 6 16 40 := by
  have low := fld_lt v 0 5
  have length := kept_lt old v 8 6 16 40
  rw [detWord_eq, fld, BitVec.toNat_ofNat, Nat.shiftRight_eq_div_pow]
  omega

section Control

variable {s x : State} {v w : Reg32}

/-- A write with recording off clears LOG_FULL, behind the windows that a change of their bounds closes (assumption
43). -/
theorem State.detCtrl_of_off (hw : w = detWord s.det.ctrl v) (off : bitOf w 2 = false)
    (hx : x = if bitOf w 3 = bitOf s.det.ctrl 3 ∧ fld w 8 6 = fld s.det.ctrl 8 6 then s else s.hashCloseAll s.now) :
    s.detCtrl v = State.digestUpdate { x with det := { x.det with ctrl := w, full := false } } := by
  subst hw hx
  simp [State.detCtrl, State.setDet, off]

/-- A write that starts recording records the configuration (R336, R341). -/
theorem State.detCtrl_of_start (hw : w = detWord s.det.ctrl v)
    (same : bitOf w 3 = bitOf s.det.ctrl 3 ∧ fld w 8 6 = fld s.det.ctrl 8 6) (on : bitOf w 2 = true)
    (was : bitOf s.det.ctrl 2 = false) :
    s.detCtrl v = State.recordConfig { s with det := { s.det with ctrl := w, full := s.det.full && bitOf w 4 } } := by
  subst hw
  simp [State.detCtrl, State.setDet, same, on, was]

end Control

/-! ### Time windows (R12, R337) -/

section Windows

variable {s w : State} {n : Nat} {c : Count}

theorem State.hashRecord_of_unrecorded {start end_ : Count} {sum : BitVec 128} {count : Nat}
    (h : count = 0 ∨ bitOf s.det.mask n = false) : s.hashRecord n start end_ sum count = s := by
  refine if_pos ?_
  simpa using h

theorem State.hashRecord_of_counted {start end_ : Count} {sum : BitVec 128} {count : Nat} (counted : count ≠ 0)
    (masked : bitOf s.det.mask n = true) : s.hashRecord n start end_ sum count = s.record 2 0 n 0xFFFF end_ start
      (BitVec.ofNat 512 (sum.toNat + at_ 128 64 count + at_ 192 64 end_)) 2 0 := by
  refine if_neg ?_
  simp [counted, masked]

/-- A window that closes is recorded at once, or kept with its sum until the requests stamped in it have ended. -/
theorem State.hashClose_of_open {a : Allot} (ha : a = s.allot n) (isOpen : a.hashOpen = true)
    (hw : w = s.setAllot n { a with
      hashOpen := false, hashStart := 0, hashSum := 0, hashCount := 0
      hashLate := if s.hashPending n a.hashStart c then a.hashLate ++ [(a.hashStart, c, a.hashSum, a.hashCount)]
        else a.hashLate }) :
    s.hashClose n c = if s.hashPending n a.hashStart c then w
      else w.hashRecord n a.hashStart c a.hashSum a.hashCount := by
  subst ha hw
  simp only [State.hashClose, isOpen, Bool.not_true, Bool.false_eq_true, if_false]

section Exec

variable {u : State} {t : Nat} {a : Allot} (hu : u = s.start t) (ha : a = u.allot n)
include hu ha

theorem exec_hashWindowClose_of_kept
    (h : a.hashOpen = false ∨ bitOf u.det.ctrl 3 = true ∨ u.now < a.hashStart + 2 ^ fld u.det.ctrl 8 6) :
    exec (.hashWindowClose t n) s = .next u := by
  change execHashWindowClose t n s = _
  rw [execHashWindowClose, ← hu, ← ha]
  exact if_pos (by simpa [or_assoc] using h)

theorem exec_hashWindowClose_of_past (isOpen : a.hashOpen = true) (timed : bitOf u.det.ctrl 3 = false)
    (past : a.hashStart + 2 ^ fld u.det.ctrl 8 6 ≤ u.now) :
    exec (.hashWindowClose t n) s = .next (u.hashClose n (a.hashStart + 2 ^ fld u.det.ctrl 8 6)) := by
  change execHashWindowClose t n s = _
  rw [execHashWindowClose, ← hu, ← ha]
  exact if_neg (by simp [isOpen, timed, past])

end Exec

end Windows

/-! ### The drain of the buffer (R139, R335) -/

section Drain

variable {s u w : State} {t n : Nat} (hu : u = s.start t) (hw : w = { u with
  fls := { u.fls with nandProg := u.fls.nandProg + min n u.det.buffered }
  det := { u.det with buffered := u.det.buffered - n } })
include hu hw

theorem exec_replayBufferDrain_eq : exec (.replayBufferDrain t n) s =
    .next (if u.det.gapOpen = 0 ∨ u.recording = false ∨ 67108864 < w.det.buffered + 65536 then w
      else State.record { w with det := { w.det with gapOpen := 0 } } 5 0 0 0xFFFF u.now u.det.gapOpen 0 1 0) := by
  subst hu hw
  have off : (!(s.start t).recording) = true ↔ (s.start t).recording = false := iff_of_eq (Bool.not_eq_true' _)
  exact (if_congr (or_congr .rfl (or_congr off .rfl)) rfl rfl).trans (apply_ite Host.Outcome.next ..).symm

theorem exec_replayBufferDrain_of_no_gap
    (h : u.det.gapOpen = 0 ∨ u.recording = false ∨ 67108864 < w.det.buffered + 65536) :
    exec (.replayBufferDrain t n) s = .next w := by
  rw [exec_replayBufferDrain_eq hu hw, if_pos h]

theorem exec_replayBufferDrain_of_gap (gap : u.det.gapOpen ≠ 0) (on : u.recording = true)
    (room : w.det.buffered + 65536 ≤ 67108864) :
    exec (.replayBufferDrain t n) s = .next (State.record { w with det := { w.det with gapOpen := 0 } }
      5 0 0 0xFFFF u.now u.det.gapOpen 0 1 0) := by
  rw [exec_replayBufferDrain_eq hu hw, if_neg (by simp [gap, on, Nat.not_lt.2 room])]

end Drain

/-! ### The copy of the log (R338) -/

section Copy

variable {s : State} {v : Reg32} {len src dst : Nat}

theorem State.logCopy_of_nothing (hlen : len = 65536 * fld s.det.copyLen 0 16) (h : bitOf v 0 = false ∨ len = 0) :
    s.logCopy v = s := by
  subst hlen
  refine if_pos ?_
  simpa using h

section Go

variable (hlen : len = 65536 * fld s.det.copyLen 0 16) (hsrc : src = fld s.det.copySrc 0 40)
  (hdst : dst = fld s.det.copyDst 0 48) (go : bitOf v 0 = true) (nonempty : len ≠ 0)
include hlen hsrc hdst go nonempty

theorem State.logCopy_of_bad (bad : src % 65536 ≠ 0 ∨ dst % 64 ≠ 0 ∨ s.logHas (s.logAt src) len = false ∨
      s.copyTarget dst len = false ∨ s.det.copying ≠ none) :
    s.logCopy v = { s with det := { s.det with copyErr := true } } := by
  subst hlen hsrc hdst
  rw [State.logCopy, if_neg (by simpa [go] using nonempty)]
  exact if_pos (by simpa [Option.isSome_iff_ne_none, or_assoc] using bad)

/-- A copy that starts is a stamped write of the extent that it fills. -/
theorem State.logCopy_of_checked {e : Nat} {x : Extent} {w : State} (unit : src % 65536 = 0) (line : dst % 64 = 0)
    (held : s.logHas (s.logAt src) len = true) (target : s.copyTarget dst len = true) (idle : s.det.copying = none)
    (found : s.extentAt dst = some (e, x)) (hw : w = s.stampWrite e s.now) :
    s.logCopy v = { w with det := { w.det with copying := some (s.logAt src, dst, len) } } := by
  subst hlen hsrc hdst hw
  rw [State.logCopy, if_neg (by simpa [go] using nonempty)]
  simp only [found]
  exact if_neg (by simp [unit, line, held, target, idle])

end Go

section Done

variable {u w : State} {t a : Nat} (hu : u = s.start t)
include hu

theorem exec_logCopyDone_of_idle (idle : u.det.copying = none) : exec (.logCopyDone t) s = .next u := by
  change execLogCopyDone t s = _
  simp only [execLogCopyDone, ← hu, idle]

theorem exec_logCopyDone_of_copying (running : u.det.copying = some (a, dst, len))
    (hw : w = (List.range (len / 64)).foldl (fun s i => s.copyLogLine (a + 64 * i) (dst + 64 * i)) u) :
    exec (.logCopyDone t) s = .next { w with det := { w.det with copying := none, copyDone := true } } := by
  subst hw
  change execLogCopyDone t s = _
  simp only [execLogCopyDone, ← hu, running]

end Done

end Copy

/-! ### The obligation -/

/-- Settles O55: a write of DET_CTRL by the bounds of the windows and by recording, a window by its end and by what is
stamped in it, a drain by the gap and the room, and a copy by its check. Model's choices among the clauses: assumption
43 (windows closed by a change of their bounds, records that wait for late requests) and assumption 41 (a copy that is
not aligned sets COPY_ERR). -/
theorem determinismRows : Obligations.DeterminismRows := by
  intro s u t v hu
  refine ⟨fun hs w hw => ?control, fun i => bitOf_detWord _ v, fld_detWord _ v, fun n a ha =>
    ⟨exec_hashWindowClose_of_kept hu ha, fun isOpen timed past w hw => ?window⟩,
    fun n w hw => ⟨exec_replayBufferDrain_of_no_gap hu hw, exec_replayBufferDrain_of_gap hu hw⟩,
    fun hs len src dst hlen hsrc hdst => ?copy, exec_logCopyDone_of_idle hu,
    fun a dst len w => exec_logCopyDone_of_copying hu⟩
  case control =>
    have way : exec (.detCtrl t v) s = .next (u.detCtrl v) :=
      hu ▸ exec_of_managed (f := (State.detCtrl · v)) hs rfl
    rw [way]
    refine ⟨fun bit length off => ?_, fun bit length on was => ?_, fun moved off x hx => ?_⟩
    · rw [State.detCtrl_of_off hw off (if_pos ⟨bit, length⟩).symm]
    · rw [State.detCtrl_of_start hw ⟨bit, length⟩ on was]
    · rw [State.detCtrl_of_off hw off (hx.trans (if_neg (not_and_or.2 moved)).symm)]
  case window =>
    rw [exec_hashWindowClose_of_past hu ha isOpen timed past, State.hashClose_of_open ha isOpen hw]
    have mask : w.det.mask = u.det.mask := by rw [hw]
    refine ⟨fun h => congrArg _ ?_, fun ended counted masked => ?_⟩
    · split
      next => rfl
      next ended => exact State.hashRecord_of_unrecorded (mask ▸ h.resolve_left ended)
    · rw [if_neg (by simp [ended]), State.hashRecord_of_counted counted (mask ▸ masked)]
  case copy =>
    have way : exec (.logCopy t v) s = .next (u.logCopy v) :=
      hu ▸ exec_of_managed (f := (State.logCopy · v)) hs rfl
    rw [way]
    refine ⟨fun nothing => ?_, fun go nonempty =>
      ⟨fun unit line held target idle e x w found hw => ?_, fun bad => ?_⟩⟩
    · rw [State.logCopy_of_nothing hlen nothing]
    · rw [State.logCopy_of_checked hlen hsrc hdst go nonempty unit line held target idle found hw]
    · rw [State.logCopy_of_bad hlen hsrc hdst go nonempty bad]

end Sys2Proof.Machine

/-! SUPPORT. Every command completes, but for the undefined pulse of MOD_RST# (R453): O3. -/

namespace Sys2Proof.Machine

open Sys2Proof

/-- The outcome is a next state. -/
def Completes (o : Host.Outcome State Fault Refusal) : Prop := ∃ u, o = .next u

theorem Completes.next (u : State) : Completes (.next u) := ⟨u, rfl⟩

theorem Completes.ite {c : Prop} [Decidable c] {a b : Host.Outcome State Fault Refusal} (ha : Completes a)
    (hb : Completes b) : Completes (if c then a else b) := by
  split <;> assumption

/-! ### The pulse that R453 leaves undefined -/

theorem execModRst_of_undefined {low : Nat} (t : Count) (f : Bool) (s : State) (least : 100 ≤ low) (most : low < 1000) :
    execModRst t low f s = .refused .undefinedPulse := by
  simp only [execModRst]
  rw [if_neg (by omega), if_pos most]

theorem execModRst_completes {low : Nat} (t : Count) (f : Bool) (s : State) (defined : low < 100 ∨ 1000 ≤ low) :
    Completes (execModRst t low f s) := by
  simp only [execModRst]
  by_cases short : low < 100
  · rw [if_pos short]
    exact .next _
  · rw [if_neg short, if_neg (by omega)]
    exact .ite (.next _) (.next _)

/-! ### Every command -/

/-- Every branch of every meaning is a next state: the lines below give the branches of each, but for MOD_RST#. -/
theorem exec_completes {c : Instr} (s : State)
    (defined : ∀ t low f, c = .modRst t low f → low < 100 ∨ 1000 ≤ low) : Completes (exec c s) := by
  cases c with
  | modRst t low f => exact execModRst_completes t f s (defined t low f rfl)
  | rebuildImage | scrubPassStart | pullInRefresh | retrainingPause | holdupMeasure | inputLow | inputHigh
  | powerGovernorSample | paceSample | replanMeasureDone | countRefLoss | countRefReturn | tickLoopLock
  | countSyncEdge | powerUp | mainConversionStart | pwrGood | dramTrainingDone | restoreDone | ready
  | mapLoading | perstAssert | perstDeassert | partLowPowerEntry | lowPowerExitDone | ideKm
  | tamianTrainingRetry | rttMeasure | sync | pageRead | pageData | pageWrite | openRemote | openReply
  | publishRemote | publishReply | closeRemote | revoked | partnerLoss | hashWindowClose | replayBufferDrain
  | altBind | altCtrl | winCommit | colBudget | colClass | prtGateDelay | prtStage | eventWriteError =>
    exact .ite (.next _) (.next _)
  | bootRom | linkDegraded | cfgRecord | pldmSensorRead | fetchError | registerWrite =>
    exact .ite (.next _) (.ite (.next _) (.next _))
  | powerLevel | tamianLinkDown | mirror =>
    exact .ite (.next _) (.ite (.next _) (.ite (.next _) (.next _)))
  | hello | heartbeat =>
    exact .ite (.next _) (.ite (.next _) (.ite (.next _) (.ite (.next _) (.next _))))
  | refreshDue =>
    exact .ite (.next _) (.ite (.next _) (.ite (.next _) (.ite (.next _) (.ite (.next _) (.ite (.next _) (.next _))))))
  | sweepSlice =>
    exact .ite (.next _) (.ite (.ite (.next _) (.next _)) (.ite (.next _) (.ite (.next _) (.next _))))
  | store | peerRead | peerWrite | urgencyRaise | mergeBufferFill | mergeFlushAge | fillComplete | writeBack
  | flashReadDone | flashProgramDone | shadowCopy | synthJobDone | sprigBatchAck | stationReport | pacedRelease
  | completionWriteError | scrubFrame | evacuationChunkCopy | chunkSwitch | shutdownSequence | planEffective
  | launchCountReached | waitCountReached | startupLate | quiesce | pairOp | resilverPage
  | tamianRequestTimeout | closeRemoteResend | publishCommit | revokeComplete | resizeMoveComplete
  | snapshotRelease | replayInject | logCopyDone | winCommitCountReached =>
    dsimp only [exec, execStore, execPeerRead, execPeerWrite, execUrgencyRaise, execMergeBufferFill, execMergeFlushAge,
      execFillComplete, execWriteBack, execFlashReadDone, execFlashProgramDone, execShadowCopy, execSynthJobDone,
      execSprigBatchAck, execStationReport, execPacedRelease, execCompletionWriteError, execScrubFrame,
      execEvacuationChunkCopy, execChunkSwitch, execShutdownSequence, execPlanEffective, execLaunchCountReached,
      execWaitCountReached, execStartupLate, execQuiesce, execPairOp, execResilverPage, execTamianRequestTimeout,
      execCloseRemoteResend, execPublishCommit, execRevokeComplete, execResizeMoveComplete, execSnapshotRelease,
      execReplayInject, execLogCopyDone, execWinCommitCountReached]
    repeat' split
    all_goals exact .next _
  | _ => exact .next _

/-- Settles O3: a pulse of 100 to 999 CC is refused, and every other command completes. -/
theorem everyCommandCompletes : Obligations.EveryCommandCompletes := by
  intro c s
  by_cases defined : ∀ t low f, c = .modRst t low f → low < 100 ∨ 1000 ≤ low
  · exact .inr ⟨defined, exec_completes s defined⟩
  · push Not at defined
    obtain ⟨t, low, f, rfl, least, most⟩ := defined
    exact .inl ⟨t, low, f, rfl, least, most, execModRst_of_undefined t f s least most⟩

end Sys2Proof.Machine

/-! SUPPORT. The queue under commands: O4. The machine after reset (R461, R468): O8, O60. -/

namespace Sys2Proof.Machine

open Sys2Proof

/-- Settles O4: what a command keeps of the settings includes the queue. -/
theorem commandsKeepTheQueue : Obligations.CommandsKeepTheQueue :=
  fun _ _ _ h => (exec_keepsLegal h).pending

/-- Settles O8: every condition on a setting is evaluated on the machine after reset. -/
theorem settingsLegalAtReset : Obligations.SettingsLegalAtReset := by
  constructor <;> decide

/-! ### Arrays of registers after reset (R468) -/

theorem reset_readReg_hint (e : Nat) : State.reset.readReg (0x400000 + 4 * e) = 1 :=
  if_pos (Nat.le_add_right ..)

theorem reset_readQue (o : Nat) : State.reset.readQue o = 0 := by
  have idle : State.reset.queue (o / 0x20) = .init := rfl
  unfold State.readQue
  rw [idle]
  split
  · rfl
  · rfl
  · rfl
  · rfl
  · rfl
  · rfl

theorem reset_readReg_queue {q r : Nat} (hq : q < 4096) (hr : r < 0x20) :
    State.reset.readReg (0xA0000 + 0x20 * q + r) = 0 := by
  have notHint : ¬ 0x400000 ≤ 0xA0000 + 0x20 * q + r := by omega
  have atQue : 0xA0000 ≤ 0xA0000 + 0x20 * q + r ∧ 0xA0000 + 0x20 * q + r < 0xC0000 := by omega
  rw [State.readReg, if_neg notHint, if_pos atQue, reset_readQue]

/-- Settles O60: each register is evaluated on the machine after reset, and the long arrays read their default. -/
theorem resetValues : Obligations.ResetValues := by
  refine ⟨?values, ?classes, ?targets, fun e _ => reset_readReg_hint e, ?queues, ?zeros, by decide⟩
  case queues =>
    intro q hq r hr
    have short : ∀ r ∈ [0x0, 0x8, 0x10, 0x14, 0x18, 0x1C], r < 0x20 := by decide
    exact reset_readReg_queue hq (short r hr)
  case values => decide +kernel
  case classes => decide
  case targets => decide
  case zeros => decide +kernel

end Sys2Proof.Machine

/-! SUPPORT. Mailbox commands that change the device (R348, R349): O36. -/

namespace Sys2Proof.Machine

open Sys2Proof

/-! ### What a command names -/

/-- A handle that no record has (R348). -/
theorem any_unknown_handle_iff (h : List Nat) (l : List (Nat × Nat × Nat)) :
    (h.any fun x => !l.any fun r => r.1 == x) = true ↔ ∃ x ∈ h, ∀ r ∈ l, r.1 ≠ x := by
  simp

theorem not_any_unknown_handle {h : List Nat} {l : List (Nat × Nat × Nat)} (known : ∀ x ∈ h, ∃ r ∈ l, r.1 = x) :
    ¬ (h.any fun x => !l.any fun r => r.1 == x) = true := by
  rw [any_unknown_handle_iff]
  push Not
  exact known

/-- The log of an event policy exists (R348). -/
theorem Ld.eventLog_isNone_iff (d : Ld) (log : Nat) : (d.eventLog log).isNone = true ↔ log ≠ 0 ∧ log ≠ 4 := by
  simp only [Ld.eventLog]
  split <;> [skip; split] <;> simp_all

/-- Every listed range has been offered (R349). -/
theorem all_offered_iff (xs : List DcdExtent) (l : List (Nat × Nat)) :
    (xs.all fun x => l.any fun r => r.1 == x.dpa && r.2 == x.len) = true ↔ ∀ x ∈ xs, (x.dpa, x.len) ∈ l := by
  simp

/-! ### The obligation -/

theorem exec_clearEventRecords_of_unnamed {s : State} {t p l n log : Nat} {h : List Nat} {d : Ld}
    (bound : (s.start t).allotOf (ldKey p l) = some n) (on : (s.start t).barOn n = true)
    (hd : d = (s.start t).ld (ldKey p l))
    (bad : (log ≠ 0 ∧ log ≠ 4) ∨ (log = 0 ∧ ∃ x ∈ h, ∀ r ∈ d.infoLog, r.1 ≠ x) ∨
      (log = 4 ∧ ∃ x ∈ h, ∀ r ∈ d.dcdLog, r.1 ≠ x)) :
    exec (.clearEventRecords t p l log h) s = .next { s.start t with out := [.reply 2 [] []] } := by
  subst hd
  refine (exec_of_mailbox bound on rfl).trans (congrArg _ ?_)
  rcases bad with ⟨h0, h4⟩ | ⟨rfl, unknown⟩ | ⟨rfl, unknown⟩
  · rw [Ld.eventLog_of_other _ h0 h4]
    rfl
  · exact if_pos ((any_unknown_handle_iff ..).2 unknown)
  · exact if_pos ((any_unknown_handle_iff ..).2 unknown)

/-- Settles O36: behind the open mailbox each command is one choice, of whether what it names is there. -/
theorem mailboxChanges : Obligations.MailboxChanges := by
  rintro s _ t p l _ n _ rfl rfl bound on rfl
  refine ⟨fun h all => ?info, fun h all => ?dcd, fun log h bad => exec_clearEventRecords_of_unnamed bound on rfl bad,
    fun log v known low => ?vector, fun log v bad => ?badVector, fun ready => ?reject, fun xs ready some all => ?accept,
    fun xs ready bad => ?unoffered, fun xs ready all => ?release, fun xs early => ⟨?busyAdd, ?busyRelease⟩⟩
  all_goals refine (exec_of_mailbox bound on rfl).trans (congrArg _ ?_)
  case info => exact if_neg (not_any_unknown_handle all)
  case dcd => exact if_neg (not_any_unknown_handle all)
  case vector =>
    refine if_neg ?_
    rw [Ld.eventLog_isNone_iff]
    omega
  case badVector =>
    refine if_pos ?_
    rwa [Ld.eventLog_isNone_iff]
  case reject => exact if_pos ready
  case accept =>
    refine (if_pos ready).trans ((if_neg ?_).trans ((if_neg ?_).trans rfl))
    · rwa [List.isEmpty_iff]
    · rwa [Bool.not_eq_true', Bool.not_eq_false, all_offered_iff]
  case unoffered =>
    refine (if_pos ready).trans ((if_neg ?_).trans (if_pos ?_))
    · rw [List.isEmpty_iff]
      rintro rfl
      obtain ⟨x, hx, -⟩ := bad
      cases hx
    · rw [Bool.not_eq_true', ← Bool.not_eq_true, all_offered_iff]
      push Not
      exact bad
  case release =>
    refine (if_pos ready).trans (if_neg ?_)
    simpa using all
  case busyAdd => exact if_neg early
  case busyRelease => exact if_neg early

end Sys2Proof.Machine

/-! SUPPORT. Configuration records (R403), the management bus (R364, R417, R426, R459, R460) and key slots (R405, R407,
R409): O38, O39. -/

namespace Sys2Proof.Machine

open Sys2Proof

/-! ### Configuration records (R403) -/

theorem State.commitRecord_of_refused {s : State} {b : Bytes} (bad : s.judgeRecord b ≠ 0) :
    s.commitRecord b = { s with sec := { s.sec with cfgAccepted := false, cfgReason := s.judgeRecord b } } := by
  simp [State.commitRecord, bad]

/-- An accepted record hands the part to the next owner that it names (R403). -/
theorem State.commitRecord_of_transfer {s : State} {b : Bytes} (good : s.judgeRecord b = 0)
    (next : leAt b 40 48 ≠ 0 ∧ leAt b 88 48 ≠ 0) :
    s.commitRecord b = { s with sec := { s.sec with
      cfgAccepted := true, cfgReason := 0, nextRecord := b, owned := true
      ownerRsa := BitVec.ofNat 384 (leAt b 40 48), ownerSlh := BitVec.ofNat 384 (leAt b 88 48) } } := by
  simp [State.commitRecord, good, next]

/-- An accepted record that names no next owner leaves the owner, or enrols its signer as the first (R403). -/
theorem State.commitRecord_of_owner {s : State} {b : Bytes} (good : s.judgeRecord b = 0)
    (none : ¬ (leAt b 40 48 ≠ 0 ∧ leAt b 88 48 ≠ 0)) :
    s.commitRecord b = { s with sec := { s.sec with
      cfgAccepted := true, cfgReason := 0, nextRecord := b, owned := true
      ownerRsa := if s.sec.owned then s.sec.ownerRsa else Config.sha384 ((b.drop 136).take 384)
      ownerSlh := if s.sec.owned then s.sec.ownerSlh else Config.sha384 ((b.drop 520).take 48) } } := by
  cases own : s.sec.owned <;> simp [State.commitRecord, good, none, own]

/-- A record is judged within the security block. -/
theorem State.commitRecord_eq (s : State) (b : Bytes) :
    s.commitRecord b = { s with sec := (s.commitRecord b).sec } := by
  by_cases good : s.judgeRecord b = 0
  · by_cases next : leAt b 40 48 ≠ 0 ∧ leAt b 88 48 ≠ 0
    · rw [State.commitRecord_of_transfer good next]
    · rw [State.commitRecord_of_owner good next]
  · rw [State.commitRecord_of_refused good]

@[simp] theorem State.commitRecord_out (s : State) (b : Bytes) : (s.commitRecord b).out = s.out := by
  rw [State.commitRecord_eq]

/-! ### The management bus -/

/-- A record as far as it has been gathered (R460). -/
def State.gathered (s : State) (buf : Sparse Byte) : State := { s with sec := { s.sec with busBuf := buf } }

/-- The answer to a whole record, of which nothing is kept in pieces (R460). -/
def State.answerRecord (w : State) : State :=
  State.reply { w with sec := { w.sec with busBuf := [] } } 0 [w.cfgStatus]

theorem State.answerRecord_of_quiet {w : State} (quiet : w.out = []) : w.answerRecord =
    { w with sec := { w.sec with busBuf := [] }, out := [.reply 0 [w.cfgStatus] []] } := by
  simp [State.answerRecord, State.reply, State.emit, quiet]

section CfgRecord

variable {s : State} {t off : Nat} {b : Bytes} {buf : Sparse Byte}
  (later : ¬ ((s.start t).gen.phase = 0 ∨ (s.start t).gen.phase = 1 ∨ (s.start t).gen.phase = 7))
  (fits : ¬ (256 < b.length ∨ recordLen < off + b.length))
  (hbuf : buf = b.zipIdx.foldl (fun m e => sput 0 m (off + e.2) e.1) (s.start t).sec.busBuf)
include later fits hbuf

theorem exec_cfgRecord_of_piece : exec (.cfgRecord t off b false) s =
    .next (((s.start t).gathered buf).reply 0 [((s.start t).gathered buf).cfgStatus]) := by
  subst hbuf
  exact (if_neg later).trans (if_neg fits)

theorem exec_cfgRecord_of_last : exec (.cfgRecord t off b true) s =
    .next (((s.start t).gathered buf).commitRecord (sbytes buf recordLen)).answerRecord := by
  change execCfgRecord t off b true s = _
  simp only [execCfgRecord]
  rw [if_neg later, if_neg fits, ← hbuf, if_true]
  generalize sbytes buf recordLen = record
  rfl

end CfgRecord

/-- Settles O38: each answer is one branch of its command, and a whole record is judged as it is committed. -/
theorem managementBusRows : Obligations.ManagementBusRows := by
  rintro s _ t rfl
  refine ⟨rfl, fun l off => ?off, fun l aux main above => ?above, fun l aux main early level => ?held,
    fun l ready level => ?set, fun p l => rfl, fun on => ?sensors, ?level, fun i low off => ?unread,
    fun i high => ?unknown, fun off b last early => ?early, fun off b aux rom main short fits buf hbuf => ?record⟩
  case off => exact if_pos off
  case above => exact (if_neg (not_or.2 ⟨aux, main⟩)).trans (if_pos above)
  case held => exact (if_neg (not_or.2 ⟨aux, main⟩)).trans ((if_neg (Nat.not_lt.2 level)).trans (if_neg early))
  case set =>
    exact (if_neg (by omega)).trans ((if_neg (Nat.not_lt.2 level)).trans (if_pos ready))
  case sensors =>
    have read : ¬ (!(s.start t).gen.conv) = true := by rw [on]; decide
    refine ⟨?_, ?_, ?_, ?_, ?_, ?_⟩
    all_goals exact if_neg fun h => read h.2
  case level => rfl
  case unread =>
    have unread : (!(s.start t).gen.conv) = true := by rw [off]; rfl
    exact (if_neg (by omega)).trans (if_pos ⟨low, unread⟩)
  case unknown => exact if_pos high
  case early => exact if_pos early
  case record =>
    have later : ¬ ((s.start t).gen.phase = 0 ∨ (s.start t).gen.phase = 1 ∨ (s.start t).gen.phase = 7) := by omega
    have fit : ¬ (256 < b.length ∨ recordLen < off + b.length) := by rw [recordLen]; omega
    refine ⟨exec_cfgRecord_of_piece later fit hbuf, fun w hw => ?_⟩
    have judged : w = ((s.start t).gathered buf).commitRecord (sbytes buf recordLen) := hw
    have quiet : w.out = [] := by rw [judged, State.commitRecord_out]; rfl
    rw [exec_cfgRecord_of_last later fit hbuf, ← judged]
    exact congrArg _ (State.answerRecord_of_quiet quiet)

/-! ### Key slots (R405, R407, R409) -/

/-- A security register decodes in recovery state too (R394). -/
theorem exec_of_securityOffset {s : State} {c : Instr} {t off : Nat} {f : State → State} (on : s.barOn 0 = true)
    (decoded : recoveryOffset off = true) (way : exec c s = .next ((s.start t).viaBar 0 off f)) :
    exec c s = .next (f (s.start t)) := by
  rw [way, State.viaBar_of_recoveryOffset (by simpa using on) decoded]

theorem State.cfgCtrl_of_commit (s : State) (v : Reg32) :
    s.cfgCtrl (setBit v 0 true) = s.commitRecord (sbytes s.sec.cfgBuf recordLen) :=
  if_pos (by simp [bitOf_setBit])

theorem State.slotCtrl_of_erase (s : State) (v : Reg32) {k : Nat} (hk : k = fld s.sec.slotSel 0 8) :
    s.slotCtrl (setBit v 0 true) = if s.slotBound k = 0 then s.eraseSlot k else s.slotError := by
  subst hk
  exact if_neg (by simp [bitOf_setBit])

/-! ### The obligation -/

/-- Settles O39: a record is refused, transfers the part or keeps its owner; a slot is written or SLOT_ERR is set. -/
theorem configurationAndSlotWrites : Obligations.ConfigurationAndSlotWrites := by
  refine ⟨fun s b => ⟨State.commitRecord_of_refused, fun good => ?accepted⟩, ?writes⟩
  case accepted =>
    rintro w rfl
    refine ⟨State.commitRecord_eq s b, ?_⟩
    by_cases next : leAt b 40 48 ≠ 0 ∧ leAt b 88 48 ≠ 0
    · rw [State.commitRecord_of_transfer good next]
      exact ⟨rfl, fun _ _ => ⟨rfl, rfl⟩, fun none => absurd next (by tauto)⟩
    · rw [State.commitRecord_of_owner good next]
      exact ⟨rfl, fun rsa slh => absurd ⟨rsa, slh⟩ next, fun _ owned => ⟨if_pos owned, if_pos owned⟩⟩
  case writes =>
    rintro s _ t v x _ on rfl rfl
    refine ⟨?commit, fun loaded => ?loaded, fun empty => ?empty, fun bound => ?bound, fun free => ?free, rfl⟩
    all_goals refine (exec_of_securityOffset on (by decide) rfl).trans (congrArg _ ?_)
    case commit => exact State.cfgCtrl_of_commit ..
    case loaded => exact if_pos loaded
    case empty => exact if_neg (Bool.eq_false_iff.1 empty)
    case bound => exact (State.slotCtrl_of_erase _ v rfl).trans (if_neg bound)
    case free => exact (State.slotCtrl_of_erase _ v rfl).trans (if_pos free)

end Sys2Proof.Machine

/-! SUPPORT. Low power (R117, R362, R445): O34. -/

namespace Sys2Proof.Machine

open Sys2Proof

/-! ### Entries set twice -/

/-- The later of two values of one entry is the one that stands. -/
theorem sput_sput_self {α : Type} [DecidableEq α] (d v w : α) (m : Sparse α) (k : Nat) (h : swf m = true) :
    sput d (sput d m k v) k w = sput d m k w := by
  rw [swf_iff] at h
  induction m with
  | nil => grind [sput]
  | cons a m ih =>
    cases m <;> grind [sput, List.pairwise_cons]

theorem State.setChan_setChan {s : State} (wf : swf s.drm.chans = true) (ch : Nat) (c d : Chan) :
    (s.setChan ch c).setChan ch d = s.setChan ch d := by
  simp only [State.setChan, sput_sput_self _ _ _ _ _ wf]

/-! ### Entry and exit (R123, R362, R445) -/

theorem State.mayRest_iff (s : State) : s.mayRest = true ↔
    bitOf s.ep.ctrl 0 = true ∧ s.ep.lowPower = false ∧ s.cmds = [] ∧ (∀ x ∈ s.tam.ports, x.2.up = false) ∧
      ∀ n ∈ s.enabledAllots, (s.ld (s.ldOf n)).dstate = 3 := by
  simp only [State.mayRest, Bool.and_eq_true, Bool.not_eq_true', List.any_eq_false, List.all_eq_true, beq_iff_eq,
    List.isEmpty_iff, Bool.not_eq_true, and_assoc]

theorem exitPasses_iff (pauses : List (Nat × Nat × Bool)) : exitPasses pauses = true ↔ ∀ x ∈ pauses, 8 ≤ x.2.1 := by
  simp only [exitPasses, List.all_eq_true, marginOk_iff]

theorem exec_lowPowerExitDone_of_exiting {s w : State} {t : Count} {env : ReadEnv} {pauses : List (Nat × Nat × Bool)}
    (exiting : (s.startEnv t env).ep.exiting = true)
    (hw : w = (List.range 72).foldl (fun s ch => s.exitPause pauses ch) (s.startEnv t env)) :
    exec (.lowPowerExitDone t ⟨pauses, env⟩) s = .next (if exitPasses pauses then
      State.wake { w with ep := { w.ep with lowPower := false, exiting := false } } .exit 0 env else w) := by
  change execLowPowerExitDone t ⟨pauses, env⟩ s = _
  simp only [execLowPowerExitDone]
  rw [if_pos exiting, ← hw]

section ExitPause

variable {w : State} {pauses : List (Nat × Nat × Bool)} {c m : Nat} {hot : Bool}

/-- What a channel's pause at the exit reads (R123). -/
def Chan.paused (x : Chan) (now : Count) (m : Nat) (hot : Bool) : Chan :=
  { x with hot := hot, margin := m % 256, lastMaint := now, due := 0, rows := [] }

variable (serves : (w.chan c).out = false) (listed : pauses.find? (·.1 == c) = some (c, m, hot))
include serves listed

theorem State.exitPause_of_listed : w.exitPause pauses c =
    if marginOk m then (w.setChan c ((w.chan c).paused w.now m hot)).modChan c fun x =>
      { x with retrains := (x.retrains + 1) % 2 ^ 32 }
    else (w.setChan c ((w.chan c).paused w.now m hot)).escalate c := by
  simp only [State.exitPause, serves, listed]
  rfl

end ExitPause

/-- Settles O34: entry and exit are one choice each, and a listed pause sets its channel and passes or escalates. -/
theorem lowPowerRows : Obligations.LowPowerRows := by
  rintro s _ t env rfl
  refine ⟨State.mayRest_iff _, fun may x hx => ?enters, fun may => ?stays, fun exiting pauses w hw => ⟨?served, ?waits⟩,
    fun w pauses c m hot wf serves listed x hx => ?pause, fun idle pauses => ?idle⟩
  case enters =>
    subst hx
    exact if_pos may
  case stays => exact if_neg (Bool.eq_false_iff.1 may)
  case served =>
    intro pass
    rw [exec_lowPowerExitDone_of_exiting exiting hw, if_pos ((exitPasses_iff pauses).2 pass)]
  case waits =>
    rintro ⟨x, mem, short⟩
    rw [exec_lowPowerExitDone_of_exiting exiting hw, if_neg fun pass => ?_]
    exact absurd ((exitPasses_iff pauses).1 pass x mem) (Nat.not_le.2 short)
  case pause =>
    subst hx
    rw [State.exitPause_of_listed serves listed]
    by_cases pass : 8 ≤ m
    · rw [if_pos pass, if_pos ((marginOk_iff m).2 pass), State.modChan_eq_setChan, State.setChan_chan _ _ wf]
      rw [State.setChan_setChan wf]
      rfl
    · rw [if_neg pass, if_neg (by rwa [marginOk_iff])]
      rfl
  case idle => exact if_neg (Bool.eq_false_iff.1 idle)

end Sys2Proof.Machine

/-! SUPPORT. Tamian links and where messages are sent (R368 to R373, R381): O40, O41. -/

namespace Sys2Proof.Machine

open Sys2Proof

/-! ### One message on a port (R372) -/

section PortSend

variable (s : State) (p : Nat) (m : TamMsg)

theorem State.portSend_of_down {s : State} {p : Nat} (down : (s.tport p).up = false) : s.portSend p m = s :=
  if_neg (Bool.eq_false_iff.1 down)

theorem State.portSend_of_up {s : State} {p : Nat} (up : (s.tport p).up = true) : s.portSend p m = { s with
    tam := { s.tam with ports := sput .init s.tam.ports p { s.tport p with
      sent := ((s.tport p).sent + tamFlits m) % 4096 } }
    out := s.out ++ [.tam p m] } := if_pos up

@[simp] theorem State.portSend_now : (s.portSend p m).now = s.now := by
  unfold State.portSend
  split <;> rfl

@[simp] theorem State.portSend_message (type cls dst tag addr : Nat) (nums : List Nat) :
    (s.portSend p m).message type cls dst tag addr nums = s.message type cls dst tag addr nums := by
  unfold State.portSend
  split <;> rfl

end PortSend

/-! ### By the route table (R372, R373) -/

section Route

variable {s : State} {m : TamMsg}

theorem State.tamSend_of_route {p h : Nat} (way : s.route m.dst = some (p, h)) : s.tamSend m = s.portSend p m := by
  simp only [State.tamSend, way]

theorem State.tamSend_of_noRoute (none : s.route m.dst = none) : s.tamSend m = s.tamBit 3 := by
  simp only [State.tamSend, none]

theorem State.forward_of_route {r : Nat × Nat} (way : s.route m.dst = some r) (hops : m.hops ≠ 0)
    (on : bitOf s.tam.ctrl 8 = true) : s.forward m = s.tamSend { m with hops := m.hops - 1 } := by
  simp [State.forward, way, hops, on]

theorem State.forward_of_noHop (hops : m.hops = 0) (request : bitOf (BitVec.ofNat 8 m.flags) 1 = false) :
    s.forward m = (s.tamBit 4).tamReply m m.type 4 [] := by
  simp [State.forward, hops, request]

theorem State.forward_of_noRoute (hops : m.hops ≠ 0) (request : bitOf (BitVec.ofNat 8 m.flags) 1 = false)
    (none : bitOf s.tam.ctrl 8 = false ∨ s.route m.dst = none) :
    s.forward m = (s.tamBit 3).tamReply m m.type 2 [] := by
  have blocked : !bitOf s.tam.ctrl 8 ∨ (s.route m.dst).isNone := by simpa using none
  simp only [State.forward, if_neg hops, if_pos blocked, request]
  rfl

end Route

/-! ### SYNC_SEND (R381) -/

theorem setBit_zero_and_tamMask (v : Reg32) : setBit v 0 true &&& 0x000F0106 = v &&& 0x000F0106 := by
  apply BitVec.eq_of_getLsbD_eq
  intro i hi
  rcases Nat.eq_zero_or_pos i with rfl | pos
  · simp
  · have same : (setBit v 0 true).getLsbD i = v.getLsbD i := by
      have := bitOf_setBit v (i := 0) true hi
      rwa [if_neg (by omega)] at this
    simp only [BitVec.getLsbD_and, same]

theorem foldl_fixed_of_mem {α β : Type} (f : β → α → β) (b : β) (l : List α) (h : ∀ a ∈ l, f b a = b) :
    l.foldl f b = b := by
  induction l with
  | nil => rfl
  | cons a l ih =>
    rw [List.foldl_cons, h a List.mem_cons_self]
    exact ih fun a mem => h a (List.mem_cons_of_mem _ mem)

theorem State.tamCtrl_of_send {s w : State} {v : Reg32}
    (hw : w = { s with tam := { s.tam with ctrl := v &&& 0x000F0106 } })
    (enabled : ∀ p, p < 4 → (w.tport p).up = true → w.portEnabled p = true) :
    s.tamCtrl (setBit v 0 true) = w.portSend (fld v 1 2)
      (w.message 0x04 0 (w.tport (fld v 1 2)).peer 0 0 [w.now]) := by
  have send : bitOf (setBit v 0 true) 0 = true := by simp [bitOf_setBit]
  have port : fld (setBit v 0 true) 1 2 = fld v 1 2 := fld_setBit v true Nat.zero_lt_one (by decide)
  have kept (p : Nat) (mem : p ∈ List.range 4) : ((w.tport p).up && !w.portEnabled p) = false := by
    cases up : (w.tport p).up with
    | false => rfl
    | true => rw [enabled p (List.mem_range.1 mem) up]; rfl
  simp only [State.tamCtrl, setBit_zero_and_tamMask, ← hw, send, if_true, port]
  rw [foldl_fixed_of_mem _ w _ fun p mem => if_neg (Bool.eq_false_iff.1 (kept p mem))]

/-- Settles O41: a message leaves by its port, a port is found by the route table, and ECHO and SYNC are sent so. -/
theorem tamianMessagesAreSent : Obligations.TamianMessagesAreSent := by
  refine ⟨fun s p m => ⟨State.portSend_of_down m, State.portSend_of_up m⟩,
    fun s m => ⟨fun p h => State.tamSend_of_route, State.tamSend_of_noRoute, fun r => State.forward_of_route,
      State.forward_of_noHop, State.forward_of_noRoute⟩, ?_⟩
  rintro s _ t rfl
  refine ⟨fun due => if_neg (Nat.not_lt.2 due), fun early => if_pos early, fun v w managed hw enabled => ?_⟩
  exact (exec_of_managed managed rfl).trans (congrArg _ (State.tamCtrl_of_send hw enabled))

/-! ### Training and loss (R368 to R371) -/

/-- A Tamian port as it is set. -/
def State.setTport (s : State) (p : Nat) (x : TamPort) : State :=
  { s with tam := { s.tam with ports := sput .init s.tam.ports p x } }

section Hello

variable {s u : State} {t p id w : Nat} {lead : Bool} (fw : Reg32)

theorem exec_hello_of_closed (auth : Bool) (hu : u = s.start t)
    (closed : u.portEnabled p = false ∨ (u.tport p).retired = true ∨ (w ≠ 1 ∧ w ≠ 2)) :
    exec (.hello t p id lead auth fw w) s = .next u := by
  subst hu
  exact if_pos (by simpa using closed)

/-- A port that trains for its HELLO is enabled, is not retired and has a width (R368 to R370). -/
theorem hello_open (enabled : u.portEnabled p = true) (kept : (u.tport p).retired = false) (width : w = 1 ∨ w = 2) :
    ¬ (!u.portEnabled p ∨ (u.tport p).retired ∨ (w != 1 ∧ w != 2)) := by
  rw [enabled, kept]
  simpa using fun one => width.resolve_left one

variable (hu : u = s.start t) (ready : ¬ (!u.portEnabled p ∨ (u.tport p).retired ∨ (w != 1 ∧ w != 2)))
include hu ready

theorem exec_hello_of_self (auth : Bool) (self : id = u.myId) :
    exec (.hello t p id lead auth fw w) s = .next (u.helloFails p 0) := by
  subst hu
  exact (if_neg ready).trans (if_pos self)

theorem exec_hello_of_refused {auth : Bool} (other : id ≠ u.myId) (refused : auth = false ∨
    (p = 3 ∧ (bitOf u.tam.id 8 = false ∨ id ≠ u.partnerId ∨ lead = u.isLead))) :
    exec (.hello t p id lead auth fw w) s = .next (u.helloFails p 1) := by
  subst hu
  refine (if_neg ready).trans ((if_neg other).trans ?_)
  cases auth with
  | false => rfl
  | true => exact (if_neg (by decide)).trans (if_pos (by simpa using refused))

theorem exec_hello_of_up {x : State} (full : w = 2 ∨ (w = 1 ∧ (u.tport p).width = 1)) (other : id ≠ u.myId)
    (single : p ≠ 3)
    (hx : x = u.setTport p { u.tport p with
      up := true, width := w, peer := id, sent := 0
      replays := satAdd 16 (u.tport p).replays (u.tport p).corrupt, corrupt := 0 }) :
    exec (.hello t p id lead true fw w) s = .next (State.digestUpdate (State.portPlan (State.portSend (x.portSend p
      (x.message 0x01 0 id 0 0 [u.myId, if u.isLead then 1 else 0, u.sec.fwVersion.toNat, fw.toNat])) p
      (x.message 0x02 0 id 0 0 [u.now])))) := by
  have steady : ¬ (w = 1 ∧ ((u.tport p).width != 1) = true) := by
    rintro ⟨rfl, narrower⟩
    simp_all
  subst hu hx
  refine (if_neg ready).trans ((if_neg other).trans ?_)
  refine (if_neg (by decide)).trans ((if_neg fun h => single h.1).trans ?_)
  refine congrArg (fun x : State => Host.Outcome.next x.portPlan.digestUpdate) ?_
  refine (if_neg single).trans ((if_neg steady).trans ?_)
  simp only [State.portSend_message, State.portSend_now]
  rfl

end Hello

/-- Settles O40: each row is one choice of what its message or its training meets, and sets its port. -/
theorem tamianLinkRows : Obligations.TamianLinkRows := by
  rintro s _ t p rfl
  refine ⟨fun id lead auth fw w => exec_hello_of_closed fw auth rfl,
    fun id lead auth fw w b enabled kept width cause => ?fails,
    fun id lead fw w enabled kept width other single x hx =>
      exec_hello_of_up fw rfl (hello_open enabled kept (by omega)) width other single hx,
    fun down w => ?down,
    fun up w l hl x hx => ⟨fun many => ?retired, fun few not1 not2 => ?lost, fun few full => ?full⟩,
    fun down kept enabled due w width => ?retry, fun rests w => ?rests, fun m => rfl, fun m l hl => ?echo,
    fun n up sent short q ql qh => ?replay, fun m => rfl⟩
  case fails =>
    have ready := hello_open enabled kept width
    rcases cause with ⟨self, rfl⟩ | ⟨other, rfl, refused⟩
    · exact exec_hello_of_self fw rfl ready auth self
    · exact exec_hello_of_refused fw rfl ready other refused
  case down => exact if_pos (by simpa using down)
  case retired =>
    subst hl hx
    exact (if_neg (by simpa using up)).trans (if_pos many)
  case lost =>
    subst hl hx
    exact (if_neg (by simpa using up)).trans ((if_neg (Nat.not_le.2 few)).trans (if_neg (by omega)))
  case full =>
    subst hl hx full
    exact (if_neg (by simpa using up)).trans (if_neg (Nat.not_le.2 few))
  case retry =>
    refine if_neg ?_
    simp only [down, kept, enabled, Nat.not_lt.2 due, or_false, false_or, bne_iff_ne, Bool.not_true, Bool.false_eq_true]
    omega
  case rests =>
    refine if_pos ?_
    rcases rests with up | retired | closed | early
    · exact .inl up
    · exact .inr (.inl retired)
    · exact .inr (.inr (.inl (by rw [closed]; rfl)))
    · exact .inr (.inr (.inr (.inr early)))
  case echo => subst hl; rfl
  case replay =>
    have owed : (((s.start t).tport p).sent + 4096 - q % 4096) % 4096 = n - q := by omega
    have served : ¬ (!((s.start t).tport p).up ∨ 512 < n - q) := by
      rintro (down | far)
      · exact absurd up (by simpa using down)
      · omega
    refine congrArg (fun x => Host.Outcome.next ((s.start t).setTport p x)) ?_
    simp only [owed]
    exact if_neg served

end Sys2Proof.Machine

/-! SUPPORT. Messages of federation and the clocks of the home (R95, R372 to R380, R443, R444): O42, O43. -/

namespace Sys2Proof.Machine

open Sys2Proof

/-! ### A message that comes (R372, R373) -/

theorem State.receive_of_forMe {s : State} {m : TamMsg} (mine : s.forMe m = true) (f : State → State) :
    s.receive m f = f s := if_pos mine

theorem State.receive_of_other {s : State} {m : TamMsg} (other : s.forMe m = false) (f : State → State) :
    s.receive m f = s.forward m := if_neg (Bool.eq_false_iff.1 other)

section Federation

variable {s u : State} {c : Instr} {p : Nat} {m : TamMsg} {f : State → State}

/-- A row of federation: what comes on a port that is up is received. -/
def Receives (c : Instr) (s u : State) (p : Nat) (m : TamMsg) (f : State → State) : Prop :=
  exec c s = if !(u.tport p).up then .next u else .next (u.receive m f)

theorem Receives.of_down (way : Receives c s u p m f) (down : (u.tport p).up = false) : exec c s = .next u :=
  way.trans (if_pos (by rw [down]; rfl))

theorem Receives.of_other (way : Receives c s u p m f) (up : (u.tport p).up = true) (other : u.forMe m = false) :
    exec c s = .next (u.forward m) := by
  rw [way, State.receive_of_other other, if_neg (by rw [up]; decide)]

theorem Receives.of_forMe {x : State} (way : Receives c s u p m f) (up : (u.tport p).up = true)
    (mine : u.forMe m = true) (served : f u = x) : exec c s = .next x := by
  rw [way, State.receive_of_forMe mine, if_neg (by rw [up]; decide), served]

/-- A row that meets no error, while no request is held back, begins as any other. -/
theorem Receives.of_quiet {t : Nat} {env : ReadEnv} (quiet : quietEnv env) (free : s.unheld)
    (way : Receives c s (s.startEnv t env) p m f) : Receives c s (s.start t) p m f :=
  State.startEnv_quiet s t env quiet free ▸ way

end Federation

/-! ### What a reply finds (R373, R378, R443) -/

theorem State.type_of_waitOf {s : State} {m : TamMsg} {types : List Nat} {w : TamWait}
    (found : s.waitOf m types = some w) : w.type ∈ types := by
  have kind := List.find?_some found
  simp only [Bool.and_eq_true, List.contains_iff_mem] at kind
  exact kind.2

theorem State.dropWait_of_other {s : State} {w : TamWait} (other : w.type ≠ 0x10) :
    s.dropWait w = { s with tam := { s.tam with waits := s.tam.waits.filter (· != w) } } := if_neg other

theorem State.passAnswer_of_single {s : State} (single : s.tam.pair ≠ 1 ∨ s.isLead = false) (w : TamWait) (m : TamMsg) :
    s.passAnswer w m = s := by
  refine if_neg ?_
  rintro ⟨paired, lead⟩
  rcases single with other | follower
  · exact other paired
  · exact absurd lead (by simp [follower])

theorem State.modExtent_of_some {s : State} {e : Nat} {x : Extent} (found : s.extent e = some x) (f : Extent → Extent) :
    s.modExtent e f = s.setExtent e (f x) := by
  simp only [State.modExtent, found]

/-! ### Rows of federation -/

theorem State.modExtent_of_none {s : State} {e : Nat} (none : s.extent e = none) (f : Extent → Extent) :
    s.modExtent e f = s := by
  simp only [State.modExtent, none]

/-- Settles O42: a row is dropped, passed on or served, and served it acts by what its address or its tag finds. -/
theorem federationRows : Obligations.FederationRows := by
  rintro s _ t p m rfl
  refine ⟨fun down => ⟨?_, ?_, ?_, ?_, ?_, ?_, ?_, ?_, ?_⟩,
    fun up other => ⟨?_, ?_, ?_, ?_, ?_, ?_, ?_, ?_, ?_⟩, fun up mine => ?_⟩
  · exact fun env quiet free => Receives.of_down (.of_quiet quiet free rfl) down
  iterate 8 exact Receives.of_down rfl down
  · exact fun env quiet free => Receives.of_other (.of_quiet quiet free rfl) up other
  iterate 8 exact Receives.of_other rfl up other
  refine ⟨fun env e x w quiet free home => ⟨fun none => ?range, fun v one => ?page, fun v a two => ?line⟩,
    fun env st quiet free refused => ?refused, fun w found => ?data, fun none => ?noData, fun w found => ?opened,
    fun none => ?noOpen, fun w found => ?published, fun single w => State.passAnswer_of_single single w m,
    fun none => ?noPublish, fun e x y home found single => ?write, fun e x w home first => ?viewed,
    fun st refused => ?unviewed,
    fun single => ⟨fun e x home => ?publish, fun e x home => ?readOnly, fun st refused => ?publishRefused⟩,
    fun e x y request at_ found => ?close, fun w reply found => ?closed, fun l hl => ?revoked⟩
  case range =>
    refine Receives.of_forMe (.of_quiet quiet free rfl) up mine ?_
    simp only [home, none]
  case page =>
    refine Receives.of_forMe (.of_quiet quiet free rfl) up mine ?_
    simp only [home, one]
  case line =>
    refine Receives.of_forMe (.of_quiet quiet free rfl) up mine ?_
    simp only [home, two]
  case refused =>
    refine Receives.of_forMe (.of_quiet quiet free rfl) up mine ?_
    simp only [refused]
  all_goals refine Receives.of_forMe rfl up mine ?_
  case data => simp only [found]
  case noData => simp only [none]
  case opened => simp only [found]
  case noOpen => simp only [none]
  case published => simp only [found]
  case noPublish => simp only [none]
  case write =>
    simp only [home, State.modExtent_of_some found]
    exact if_neg fun h => single h.1
  case viewed =>
    simp only [home, first]
    rfl
  case unviewed => simp only [refused]
  case publish =>
    rw [if_neg fun h => single h.1]
    simp only [home]
    rfl
  case readOnly =>
    rw [if_neg fun h => single h.1]
    simp only [home]
    rfl
  case publishRefused =>
    rw [if_neg fun h => single h.1]
    simp only [refused]
  case close =>
    rw [if_neg (by omega)]
    simp only [at_, State.modExtent_of_some found]
  case closed =>
    have other : w.type ≠ 0x10 := by
      have kind := State.type_of_waitOf found
      simp only [List.mem_singleton] at kind
      omega
    rw [if_pos reply]
    simp only [found, State.dropWait_of_other other]
  case revoked =>
    subst hl
    rfl

/-! ### Clocks of the home (R373, R378, R380) -/

section Clocks

variable {s u : State} {t e n : Nat}

theorem exec_closeRemoteResend_of_due {x : Extent} (hu : u = s.start t) (found : u.extent e = some x)
    (closing : u.tam.closing.contains e = true) (due : (u.tam.waits.any fun w =>
      w.type == 0x17 && w.ext == e && decide (u.now < w.at_ + 1000000000)) = false) :
    exec (.closeRemoteResend t e) s = .next (State.closeRemote { u with tam := { u.tam with
      waits := u.tam.waits.filter fun w => !(w.type == 0x17 && w.ext == e) } } e x) := by
  subst hu
  change execCloseRemoteResend t e s = _
  simp only [execCloseRemoteResend, found]
  exact if_pos ⟨closing, by rw [due]; rfl⟩

theorem exec_closeRemoteResend_of_rest (hu : u = s.start t)
    (rests : u.tam.closing.contains e = false ∨ u.extent e = none ∨
      (u.tam.waits.any fun w => w.type == 0x17 && w.ext == e && decide (u.now < w.at_ + 1000000000)) = true) :
    exec (.closeRemoteResend t e) s = .next u := by
  subst hu
  change execCloseRemoteResend t e s = _
  simp only [execCloseRemoteResend]
  split
  next x found =>
    refine if_neg fun ⟨closing, due⟩ => ?_
    rcases rests with still | none | early
    · exact absurd closing (Bool.eq_false_iff.1 still)
    · exact absurd none (by simp [found])
    · rw [early] at due
      exact absurd due (by decide)
  next => rfl

/-- The request whose bound ends without an answer (R380). -/
abbrev State.unanswered (s : State) (n : Nat) : Option TamWait :=
  s.tam.waits.find? fun w => w.tag == n && [0x10, 0x13, 0x15].contains w.type

theorem exec_tamianRequestTimeout_of_none (hu : u = s.start t) (none : u.unanswered n = none) :
    exec (.tamianRequestTimeout t n) s = .next u := by
  subst hu
  change execTamianRequestTimeout t n s = _
  simp only [execTamianRequestTimeout, none]

theorem exec_tamianRequestTimeout_of_early {w : TamWait} (hu : u = s.start t) (found : u.unanswered n = some w)
    (early : u.now < w.at_ + u.bound380 w.dst) : exec (.tamianRequestTimeout t n) s = .next u := by
  subst hu
  change execTamianRequestTimeout t n s = _
  simp only [execTamianRequestTimeout, found]
  exact if_pos early

theorem exec_tamianRequestTimeout_of_due {w : TamWait} {m : TamMsg} (hu : u = s.start t)
    (found : u.unanswered n = some w) (due : w.at_ + u.bound380 w.dst ≤ u.now)
    (hm : m = { u.message w.type 0 u.myId n 0 [] with flags := 2, status := 2 }) :
    (w.type = 0x10 → exec (.tamianRequestTimeout t n) s = .next ((State.tamBit (u.dropWait w) 3).pageAnswer w m)) ∧
    (w.type = 0x13 → exec (.tamianRequestTimeout t n) s = .next ((State.tamBit (u.dropWait w) 3).openAnswer w m)) ∧
    (w.type = 0x15 → ∀ x, x = (State.passAnswer (State.tamBit (u.dropWait w) 3) w m).publishAnswer w m →
      exec (.tamianRequestTimeout t n) s = .next { x with tam := { x.tam with waits := x.tam.waits ++
        [{ w with type := 0x115, cmd := none, page := ((w.cmd.bind (State.tamBit (u.dropWait w) 3).cmd).map
          (·.allot)).getD 0 }] } }) := by
  obtain ⟨tag, type, dst, e, page, cmd, at_⟩ := w
  subst hu hm
  refine ⟨?_, ?_, ?_⟩
  · rintro rfl
    change execTamianRequestTimeout t n s = _
    simp only [execTamianRequestTimeout, found]
    exact if_neg (Nat.not_lt.2 due)
  · rintro rfl
    change execTamianRequestTimeout t n s = _
    simp only [execTamianRequestTimeout, found]
    exact if_neg (Nat.not_lt.2 due)
  · rintro rfl x rfl
    change execTamianRequestTimeout t n s = _
    simp only [execTamianRequestTimeout, found, State.routeBit, if_true]
    refine (if_neg (Nat.not_lt.2 due)).trans ?_
    split
    next c known => rw [known]; rfl
    next unknown => rw [unknown]; rfl

end Clocks

/-- Settles O43: a clock that is due acts, and one that is early, or has nothing to act on, changes nothing. -/
theorem federationTimeouts : Obligations.FederationTimeouts := by
  rintro s _ t e n rfl
  refine ⟨fun x => exec_closeRemoteResend_of_due rfl, exec_closeRemoteResend_of_rest rfl,
    fun x found last hlast => ?discards, fun none => ?unknown, exec_tamianRequestTimeout_of_none rfl,
    fun w found => ⟨exec_tamianRequestTimeout_of_early rfl found,
      fun due m => exec_tamianRequestTimeout_of_due rfl found due⟩⟩
  case discards =>
    subst hlast
    exact congrArg _ (State.modExtent_of_some found _)
  case unknown =>
    exact congrArg _ (State.modExtent_of_none none _)

end Sys2Proof.Machine

/-! SUPPORT. Paired expanders: heartbeats, the loss of a partner, work for it and its return (R382 to R387, R441 to
R443): O44, O45. -/

namespace Sys2Proof.Machine

open Sys2Proof

/-! ### Heartbeats (R384 to R387) -/

/-- Settles O44: a heartbeat moves the pair by the states of both parts, and its absence by the part's own. -/
theorem heartbeatRows : Obligations.HeartbeatRows := by
  rintro s _ t m rfl
  refine ⟨fun paired due x hx => ?beats, fun rests => ?rests, fun closed => ?closed, fun up paired w hw => ?heard,
    fun lives => ?lives, fun plan lost w hw => ?lost⟩
  case beats =>
    subst hx
    exact congrArg _ (if_pos ⟨paired, due⟩)
  case rests =>
    refine congrArg _ (if_neg fun ⟨paired, due⟩ => ?_)
    rcases rests with single | early
    · exact absurd paired (Bool.eq_false_iff.1 single)
    · exact absurd due (Nat.not_le.2 early)
  case closed => exact if_pos (by simpa using closed)
  case heard =>
    have served : ¬ (!((s.start t).tport 3).up ∨ !bitOf (s.start t).tam.id 8) := by
      rw [up, paired]
      decide
    subst hw
    refine ⟨fun own his => ?first, fun own his none => ?returns, fun own his => ?ends, fun own his => ?goesOn⟩
    all_goals refine (if_neg served).trans ?_
    case first => exact if_pos ⟨own, his⟩
    case returns =>
      refine (if_neg fun ⟨_, low⟩ => by omega).trans ((if_pos ⟨own, his⟩).trans ?_)
      simp only [none, List.filter_nil, List.foldl_nil]
      rfl
    case ends =>
      refine (if_neg fun ⟨zero, _⟩ => absurd (own.symm.trans zero) (by decide)).trans ?_
      exact (if_neg fun ⟨_, five⟩ => by omega).trans (if_pos ⟨own, his⟩)
    case goesOn =>
      refine (if_neg fun ⟨zero, _⟩ => absurd (own.symm.trans zero) (by decide)).trans ?_
      refine (if_neg fun ⟨_, five⟩ => by omega).trans ?_
      exact if_neg fun ⟨four, _⟩ => absurd (own.symm.trans four) (by decide)
  case lives =>
    refine if_pos ?_
    simpa using lives
  case lost =>
    subst hw
    refine if_neg ?_
    rw [plan]
    rintro (none | ⟨up, early⟩)
    · exact absurd none (by decide)
    · rcases lost with down | late
      · exact absurd up (Bool.eq_false_iff.1 down)
      · exact absurd early (Nat.not_lt.2 late)

/-! ### Takeover and return (R385, R387) -/

section TamPair

variable {s : State} {v : Reg32}

theorem State.tamPair_of_takeover (alone : bitOf v 9 = false) :
    s.tamPair (setBit v 8 true) = if s.tam.pair = 3 then s.solo else s := by
  have take : bitOf (setBit v 8 true) 8 = true := by simp [bitOf_setBit]
  have stay : bitOf (setBit v 8 true) 9 = false := by simp [bitOf_setBit, alone]
  simp [State.tamPair, take, stay]

theorem State.tamPair_of_rejoin {w : State} (solo : s.tam.pair = 2) (up : (s.tport 3).up = true)
    (hw : w = (s.toPair 5).beat.sendTables) :
    s.tamPair (setBit v 9 true) = { w with tam := { w.tam with resSent := 0, resLeft := w.resilverList } } := by
  have take : bitOf (setBit v 9 true) 9 = true := by simp [bitOf_setBit]
  have served : ¬ (bitOf (setBit v 9 true) 8 = true ∧ s.tam.pair = 3) :=
    fun ⟨_, fenced⟩ => absurd (solo.symm.trans fenced) (by decide)
  simp only [State.tamPair, if_neg served, if_pos (And.intro take (And.intro solo up)), ← hw]

theorem State.tamPair_of_no_return (other : s.tam.pair ≠ 2) (alone : bitOf v 8 = false) :
    s.tamPair (setBit v 9 true) = s := by
  have stay : bitOf (setBit v 9 true) 8 = false := by simp [bitOf_setBit, alone]
  simp [State.tamPair, stay, other]

end TamPair

/-! ### Work for a partner -/

/-- Settles O45: what comes on T3 is one choice of the message's kind and of the pair's state. -/
theorem pairRows : Obligations.PairRows := by
  rintro s _ t m v rfl
  refine ⟨fun down => ?closed, fun up => congrArg _ (if_pos up), fun up plan request => ?mirror,
    fun up plan reply => ?returned, fun up plan reply => ⟨fun w found => ?answer, fun none => ?noAnswer⟩,
    fun up plan request => ⟨fun a b p l lines notTable => ?command, fun r rates none => ?rates,
      fun e a f r lead none => ?lead, fun k r table k0 k15 k16 whole => ?table⟩,
    fun up => ⟨fun four => ?store, fun five done => ?done, fun k r w five left more hw => ?page,
      fun not4 not5 => ?neither⟩,
    fun managed => ⟨fun fenced alone => ?takeover, fun other alone => ?noTakeover, fun solo up w hw => ?rejoin,
      fun other alone => ?noRejoin⟩⟩
  case takeover =>
    refine (exec_of_managed managed rfl).trans (congrArg _ ?_)
    exact (State.tamPair_of_takeover alone).trans (if_pos fenced)
  case noTakeover =>
    refine (exec_of_managed managed rfl).trans (congrArg _ ?_)
    exact (State.tamPair_of_takeover alone).trans (if_neg other)
  case rejoin => exact (exec_of_managed managed rfl).trans (congrArg _ (State.tamPair_of_rejoin solo up hw))
  case noRejoin => exact (exec_of_managed managed rfl).trans (congrArg _ (State.tamPair_of_no_return other alone))
  case closed =>
    have shut : (!((s.start t).tport 3).up) = true := by rw [down]; rfl
    exact ⟨if_pos (.inl shut), congrArg _ (if_neg (Bool.eq_false_iff.1 down)), if_pos (.inl shut), if_pos shut⟩
  case store => exact (if_neg (by simpa using up)).trans (if_pos four)
  case neither =>
    exact (if_neg (by simpa using up)).trans ((if_neg not4).trans (if_pos (by simpa using not5)))
  case done =>
    have served : ¬ (!((s.start t).tport 3).up) = true := by rw [up]; decide
    change execResilverPage t m s = _
    simp only [execResilverPage, done]
    exact (if_neg served).trans ((if_neg (by omega)).trans (if_neg (by simpa using five)))
  case page =>
    have served : ¬ (!((s.start t).tport 3).up) = true := by rw [up]; decide
    subst hw
    change execResilverPage t m s = _
    simp only [execResilverPage, left]
    refine (if_neg served).trans ((if_neg (by omega)).trans ((if_neg (by simpa using five)).trans ?_))
    exact congrArg _ (if_neg (by simpa using more))
  all_goals have open_ : ¬ (!((s.start t).tport 3).up ∨ !(s.start t).onePlan) := by rw [up, plan]; decide
  case mirror =>
    refine (if_neg open_).trans ((if_neg (by omega)).trans ?_)
    by_cases here : (s.start t).isArbiter m.addr = true
    · rw [if_pos here]
      exact if_pos here
    · rw [if_neg here]
      exact if_neg here
  case returned =>
    refine (if_neg open_).trans ((if_pos reply).trans ?_)
    by_cases good : m.status = 0
    · rw [if_pos good]
      simp only [if_pos good]
    · rw [if_neg good]
      simp only [if_neg good]
  case answer =>
    refine (if_neg open_).trans ((if_pos reply).trans ?_)
    simp only [found]
  case noAnswer =>
    refine (if_neg open_).trans ((if_pos reply).trans ?_)
    simp only [none]
  case command =>
    refine (if_neg open_).trans ((if_neg (by omega)).trans ?_)
    simp only [lines]
  case rates =>
    refine (if_neg open_).trans ((if_neg (by omega)).trans ?_)
    simp only [rates, none]
  case lead =>
    refine (if_neg open_).trans ((if_neg (by omega)).trans ?_)
    simp only [lead, none]
  case table =>
    refine (if_neg open_).trans ((if_neg (by omega)).trans ?_)
    by_cases entry : k = 0xE0
    · subst entry
      simp only [table]
    · simp only [table, whole.resolve_left entry]
      split
      next same => exact absurd (List.cons.inj same).1 entry
      next same _ => cases same
      next same _ => exact absurd (List.cons.inj same).1 k0
      next same _ => exact absurd (List.cons.inj same).1 k16
      next same _ => exact absurd (List.cons.inj same).1 k15
      next same _ =>
        obtain ⟨rfl, rfl⟩ := List.cons.inj same
        rfl
      next same _ => cases same

end Sys2Proof.Machine

/-! SUPPORT. The boot ROM (R392 to R394, R402, R403, R461, R463): O23. -/

namespace Sys2Proof.Machine

open Sys2Proof

/-! ### What start-up leaves -/

theorem State.Tells.gen_eq {s t : State} (h : s.Tells t) : t.gen = s.gen := by
  rw [State.Tells] at h
  rw [h]

theorem State.Tells.sec_eq {s t : State} (h : s.Tells t) : t.sec = s.sec := by
  rw [State.Tells] at h
  rw [h]

theorem State.Tells.pwr_eq {s t : State} (h : s.Tells t) : t.pwr = s.pwr := by
  rw [State.Tells] at h
  rw [h]

theorem State.trainPorts_tells (s : State) : s.Tells s.trainPorts := by
  unfold State.trainPorts
  refine .foldl (fun s p => ?_) _ s
  rfl

/-- `t` stands in the phase of `s` with its power block, and WAKE# may have been signalled. -/
def State.Wakes (s t : State) : Prop := t.gen = { s.gen with wake := t.gen.wake } ∧ t.pwr = s.pwr

theorem State.Wakes.trans {s t u : State} (h : s.Wakes t) (g : t.Wakes u) : s.Wakes u := by
  obtain ⟨hgen, hpwr⟩ := h
  obtain ⟨ggen, gpwr⟩ := g
  exact ⟨by rw [ggen, hgen], gpwr.trans hpwr⟩

theorem State.Tells.wakes {s t : State} (h : s.Tells t) : s.Wakes t := by
  refine ⟨?_, h.pwr_eq⟩
  rw [h.gen_eq]

theorem State.fault0_wakes (s : State) (unit reason num : Nat) : s.Wakes (s.fault0 unit reason num) := by
  constructor
  · exact congrArg State.gen (s.fault0_saves unit reason num)
  · have h := s.faultTo_signals [0] unit reason num 0xFFFF 0
    rw [State.Signals] at h
    have hpwr := congrArg State.pwr h
    exact hpwr

theorem State.Wakes.ite_fault0 {s t : State} (h : s.Wakes t) (c : Prop) [Decidable c] (unit reason num : Nat) :
    s.Wakes (if c then t.fault0 unit reason num else t) := by
  split
  · exact h.trans (t.fault0_wakes unit reason num)
  · exact h

theorem State.startFirmware_wakes (s : State) :
    State.Wakes { s with gen := { s.gen with phase := 3 }, pwr := { s.pwr with startups := s.pwr.startups + 1 } }
      s.startFirmware := by
  have informed (s : State) : s.Wakes ((List.range 8).foldl (fun s p => (s.portLds p).foldl (fun s l =>
      s.modLd (ldKey p l) fun d => { d with memInfo := true }) s) s) :=
    State.Tells.wakes <| by
      refine .foldl (fun s p => .foldl (fun s l => ?_) _ s) _ s
      rfl
  unfold State.startFirmware
  refine State.Wakes.ite_fault0 (.ite_fault0 (.trans ?_ (informed _)) ..) ..
  exact (State.trainPorts_tells _).wakes.trans ⟨rfl, rfl⟩

/-! ### A candidate (R402) -/

theorem State.takeCandidate_of_none {s : State} (empty : s.sec.candidate = []) : s.takeCandidate = s :=
  if_pos (by rw [empty]; rfl)

theorem State.takeCandidate_of_good {s : State} (staged : s.sec.candidate ≠ [])
    (good : verifyImage s.sec.svn.toNat s.sec.candidate = 0) : s.takeCandidate = { s with sec := { s.sec with
      image := s.sec.candidate, candidate := [], svn := BitVec.ofNat 32 (imageSvn s.sec.candidate) } } :=
  (if_neg (by simpa using staged)).trans (if_pos good)

theorem State.takeCandidate_of_bad {s : State} (staged : s.sec.candidate ≠ [])
    (bad : verifyImage s.sec.svn.toNat s.sec.candidate ≠ 0) :
    s.takeCandidate = { s with sec := { s.sec with candidate := [], fwRejected := true } } :=
  (if_neg (by simpa using staged)).trans (if_neg bad)

/-- Settles O23: start-up's own steps tell the outside or signal WAKE#, and leave phase and power block alone. -/
theorem bootRomRow : Obligations.BootRomRow := by
  rintro s _ _ t rfl rfl
  have boots (phase : (s.start t).gen.phase = 1) (power : (s.start t).gen.pwrGood = true) :
      ¬((s.start t).gen.phase != 1 ∨ !(s.start t).gen.pwrGood) := by
    rw [phase, power]
    decide
  refine ⟨fun rests b => ?rests, fun phase power => ⟨?noPuf, ?puf⟩, ?candidate, fun why => ?recovery, ?firmware⟩
  case rests => exact if_pos (by simpa using rests)
  case noPuf => exact if_neg (boots phase power)
  case puf =>
    rintro x y hx rfl
    refine (if_neg (boots phase power)).trans ?_
    change Host.Outcome.next (if verifyImage (State.takeCandidate _).sec.svn.toNat _ != 0 then _ else _) = _
    rw [← hx]
    by_cases good : verifyImage x.sec.svn.toNat x.sec.image = 0 <;> simp [good]
  case candidate =>
    rintro x rfl
    generalize s.start t = u
    by_cases empty : u.sec.candidate = []
    · simp [State.takeCandidate_of_none empty, empty]
    · by_cases good : verifyImage u.sec.svn.toNat u.sec.candidate = 0
      · rw [State.takeCandidate_of_good empty good]
        exact ⟨rfl, fun h => absurd h empty, fun _ => ⟨rfl, fun _ => ⟨rfl, rfl⟩, fun bad => absurd good bad⟩⟩
      · rw [State.takeCandidate_of_bad empty good]
        exact ⟨rfl, fun h => absurd h empty, fun _ => ⟨rfl, fun h => absurd h good, fun _ => ⟨rfl, rfl, rfl⟩⟩⟩
  case recovery =>
    have told := State.trainPorts_tells { s.start t with
      sec := { (s.start t).sec with recovery := true, rcvStatus := why }
      gen := { (s.start t).gen with phase := 2 }
      ep := { (s.start t).ep with ports := (s.start t).ep.ports.map fun (p, h) =>
        (p, if p = 0 then h else { h with rate := 0, width := 0, training := false }) } }
    exact ⟨told.gen_eq, told.sec_eq⟩
  case firmware => exact (s.start t).startFirmware_wakes

end Sys2Proof.Machine

/-! SUPPORT. SPDM sessions, measurements and keys (R397 to R401, R406): O37. -/

namespace Sys2Proof.Machine

open Sys2Proof

/-! ### A logical device after a write of it -/

theorem State.ld_setLd_self {s : State} (sorted : swf s.ep.lds = true) (k : Nat) (d : Ld) : (s.setLd k d).ld k = d :=
  sget_sput_self _ _ _ _ sorted

theorem State.swf_setLd {s : State} (sorted : swf s.ep.lds = true) (k : Nat) (d : Ld) :
    swf (s.setLd k d).ep.lds = true :=
  swf_sput _ _ _ _ sorted

theorem State.reply_of_quiet {s : State} (quiet : s.out = []) (code : Nat) (nums : List Nat) (b : Bytes) :
    s.reply code nums b = { s with out := [.reply code nums b] } := by
  rw [State.reply, State.emit, quiet]
  rfl

/-! ### SPDM requests -/

theorem State.config_of_serving {s : State} {k : Nat} (serves : s.served k = true) (ready : (s.ld k).crs = false)
    (f : State → State) : s.config k f = f s :=
  if_pos (by rw [serves, ready]; rfl)

/-- A request of a serving device forgets the bytes that an earlier response signed (R400). -/
theorem State.spdm_of_serving {s : State} {p l : Nat} (serves : s.served (ldKey p l) = true)
    (ready : (s.ld (ldKey p l)).crs = false) (f : Nat → State → State) :
    s.spdm p l f = f (ldKey p l) (s.setLd (ldKey p l) { s.ld (ldKey p l) with lastSigned := none }) := by
  rw [State.spdm, State.config_of_serving serves ready]
  rfl

/-- A signed response leaves its bytes with the device, for the SLH-DSA signature (R400). -/
theorem State.signed_of_quiet {s : State} {k : Nat} {d : Ld} (quiet : s.out = []) (holds : s.ld k = d) (b : Bytes)
    (nums : List Nat) (body : Bytes) :
    s.signed k b nums body = { s.setLd k { d with lastSigned := some b } with
      out := [.reply 0 nums (body ++ identitySign 0 b)] } := by
  rw [State.signed, State.modLd, State.reply_of_quiet (by exact quiet), holds]

theorem State.measurement_setLd (s : State) (k : Nat) (d : Ld) : (s.setLd k d).measurement = s.measurement := by
  funext i
  unfold State.measurement
  rfl

theorem sessionOf_none {o : Option Nat} {l : List Nat} (closed : ∀ n, o = some n → n ∉ l) :
    (o.filter fun n => l.contains n) = none := by
  simpa [Option.filter_eq_none_iff] using closed

theorem sessionOf_some {n : Nat} {l : List Nat} (opened : n ∈ l) :
    ((some n).filter fun n => l.contains n) = some n := by
  simpa [Option.filter_eq_some_iff] using opened

/-- Settles O37: each request acts on the device that has just forgotten what it signed. -/
theorem spdmRows : Obligations.SpdmRows := by
  rintro s u t p l k d hu rfl hd sorted
  refine ⟨fun serves ready w hw => ?requests, fun h => ?expiry⟩
  case expiry =>
    subst hu hd
    rfl
  case requests =>
    have kept (f : State → State) : (s.start t).config (ldKey p l) f = f u := by
      rw [← hu]
      exact State.config_of_serving serves (hd ▸ ready) f
    have asked (f : Nat → State → State) : (s.start t).spdm p l f = f (ldKey p l) w := by
      rw [← hu, State.spdm_of_serving serves (hd ▸ ready), ← hd, ← hw]
    have held : w.ld (ldKey p l) = { d with lastSigned := none } := by
      rw [hw]
      exact State.ld_setLd_self sorted _ _
    have quietU : u.out = [] := by
      rw [hu]
      rfl
    have quiet : w.out = [] := by
      rw [hw]
      exact quietU
    have sorted' : swf w.ep.lds = true := by
      rw [hw]
      exact State.swf_setLd sorted _ _
    have live : w.liveHandles (ldKey p l) = u.liveHandles (ldKey p l) := by
      rw [State.liveHandles, held, hw, State.liveHandles, hd]
      rfl
    refine ⟨?chain, ?pqChain, ?challenge, ?measure, ?exchange, ?sig, ?noSig, ?deliver, ?full, ?closed, ?forget, ?ended⟩
    case chain =>
      rintro off n b rfl
      exact congrArg Host.Outcome.next ((asked _).trans (State.reply_of_quiet quiet _ _ _))
    case pqChain =>
      intro off n
      exact congrArg Host.Outcome.next ((asked _).trans (State.reply_of_quiet quiet _ _ _))
    case challenge =>
      intro b
      exact congrArg Host.Outcome.next ((asked _).trans (State.signed_of_quiet quiet held _ _ _))
    case measure =>
      intro b
      refine congrArg Host.Outcome.next ((asked _).trans ?_)
      rw [State.signed_of_quiet quiet held, hw, State.measurement_setLd]
    case exchange =>
      rintro b x rfl
      refine congrArg Host.Outcome.next ((asked _).trans ?_)
      simp only [State.modLd, held]
      rw [State.signed_of_quiet (by exact quiet) (State.ld_setLd_self sorted' _ _)]
      rfl
    case sig =>
      intro off b signed
      refine congrArg Host.Outcome.next ((kept _).trans ?_)
      simp only [← hd, signed]
      exact State.reply_of_quiet quietU _ _ _
    case noSig =>
      intro off none
      refine congrArg Host.Outcome.next ((kept _).trans ?_)
      simp only [← hd, none]
      exact State.reply_of_quiet quietU _ _ _
    case deliver =>
      intro n key opened room
      refine congrArg Host.Outcome.next ((asked _).trans ?_)
      simp only [held, sessionOf_some opened, live, if_neg (Nat.not_le.mpr room), State.modLd]
      rw [State.reply_of_quiet (by exact quiet), hw]
      rfl
    case full =>
      intro n key opened full
      refine congrArg Host.Outcome.next ((asked _).trans ?_)
      simp only [held, sessionOf_some opened, live, if_pos full]
      exact State.reply_of_quiet quiet _ _ _
    case closed =>
      intro o key h closed
      constructor <;>
      · refine congrArg Host.Outcome.next ((asked _).trans ?_)
        simp only [held, sessionOf_none closed]
        exact State.reply_of_quiet quiet _ _ _
    case forget =>
      intro n h opened
      refine congrArg Host.Outcome.next ((asked _).trans ?_)
      simp only [held, sessionOf_some opened, State.modLd]
      exact State.reply_of_quiet (by exact quiet) _ _ _
    case ended =>
      intro n
      refine congrArg Host.Outcome.next ((asked _).trans ?_)
      simp only [held, State.modLd]
      exact State.reply_of_quiet (by exact quiet) _ _ _

end Sys2Proof.Machine

/-! SUPPORT. Test mode: settings, forced pauses, injections (R429 to R437): O56. -/

namespace Sys2Proof.Machine

open Sys2Proof

/-! ### A bit that is set -/

theorem setBit_true {w : Nat} (v : BitVec w) (i : Nat) : setBit v i true = v ||| BitVec.ofNat w (1 <<< i) := by
  refine BitVec.eq_of_getLsbD_eq fun j hj => ?_
  have set := bitOf_setBit v (i := i) true hj
  rw [bitOf] at set
  rw [set, BitVec.getLsbD_or, BitVec.getLsbD_ofNat, Nat.one_shiftLeft, Nat.testBit_two_pow]
  rcases eq_or_ne j i with rfl | other
  · simp [hj]
  · rw [if_neg other, decide_eq_false other.symm, Bool.and_false, Bool.or_false, bitOf]

theorem fld_setBit_above {w : Nat} (v : BitVec w) {i lo n : Nat} (b : Bool) (above : lo + n ≤ i) (fits : lo + n ≤ w) :
    fld (setBit v i b) lo n = fld v lo n := by
  refine Nat.eq_of_testBit_eq fun j => ?_
  rw [testBit_fld, testBit_fld]
  by_cases hj : j < n
  · rw [bitOf_setBit v b (by omega), if_neg (by omega)]
  · simp [hj]

/-! ### Settings of test mode (R429, R431) -/

section Setting

variable {s : State} {off v : Nat} {ok : Bool} {f : State → State}

theorem State.setting_of_closed (closed : s.prt.isOpen = false) : s.setting off v ok f = s.prtErr :=
  if_neg (by simp [closed])

theorem State.setting_of_unfit (unfit : ok = false) : s.setting off v ok f = s.prtErr :=
  if_neg (by simp [unfit])

theorem State.setting_of_fit (opened : s.prt.isOpen = true) (fit : ok = true) :
    s.setting off v ok f = f (s.trace off v) :=
  if_pos (by rw [opened, fit]; rfl)

end Setting

section Writes

variable {s : State} {t n : Nat} {v : Reg32}

theorem exec_prtGateDelay_of_managed (hs : s.managed) (lane : n < 12) :
    exec (.prtGateDelay t n v) s = .next ((s.start t).gateDelay n v) :=
  exec_of_managed hs (f := fun s => s.gateDelay n v) (off := 0x160040 + 4 * n) (if_neg (Nat.not_le.mpr lane))

theorem exec_prtStage_of_managed (hs : s.managed) (entry : n < 32) :
    exec (.prtStage t n v) s = .next ((s.start t).stageEntry n v) :=
  exec_of_managed hs (f := fun s => s.stageEntry n v) (off := 0x160080 + 4 * n) (if_neg (Nat.not_le.mpr entry))

end Writes

/-! ### PRT_STAGE (R433) -/

/-- Another entry of PRT_STAGE names the point `p`, which may be named once. -/
def State.namedTwice (s : State) (i p : Nat) : Bool :=
  p != 0 && s.prt.stage.any fun (j, w) => j != i && fld w 0 8 == p

section Stage

variable {s : State} {i : Nat} {v : Reg32}

theorem State.namedTwice_eq_false (once : ∀ e ∈ s.prt.stage, e.1 ≠ i → fld e.2 0 8 ≠ fld v 0 8) :
    s.namedTwice i (fld v 0 8) = false := by
  simp only [State.namedTwice, Bool.and_eq_false_iff, List.any_eq_false]
  exact .inr fun e he => by simpa using once e he

theorem State.stageEntry_of_unfit (unfit : s.onePlan = true ∨ stagePoint (fld v 0 8) = false) :
    s.stageEntry i v = s.prtErr := by
  unfold State.stageEntry
  refine State.setting_of_unfit ?_
  rcases unfit with h | h <;> simp [h]

theorem State.stageEntry_of_fit (opened : s.prt.isOpen = true) (single : s.onePlan = false)
    (point : stagePoint (fld v 0 8) = true) (once : ∀ e ∈ s.prt.stage, e.1 ≠ i → fld e.2 0 8 ≠ fld v 0 8) :
    s.stageEntry i v = if v &&& 0xFFFFF = sget 0 s.prt.stage i then s.trace (0x80 + 4 * i) v.toNat
      else State.stagePlan { s.trace (0x80 + 4 * i) v.toNat with prt := { (s.trace (0x80 + 4 * i) v.toNat).prt with
        stage := sput 0 s.prt.stage i (v &&& 0xFFFFF) } } := by
  have fit : (stagePoint (fld v 0 8) && !s.namedTwice i (fld v 0 8) && !s.onePlan) = true := by
    rw [point, State.namedTwice_eq_false once, single]
    rfl
  unfold State.stageEntry
  exact State.setting_of_fit opened fit

end Stage

/-! ### PRT_RETRAIN (R435) -/

section Retrain

variable {s : State} {v : Reg32}

theorem State.retrain_of_unfit (beyond : 72 ≤ fld v 0 7) : s.retrain v = s.prtErr := by
  unfold State.retrain
  exact State.setting_of_unfit (decide_eq_false (Nat.not_lt.mpr beyond))

theorem State.retrain_of_fit (opened : s.prt.isOpen = true) (channel : fld v 0 7 < 72) :
    s.retrain v = if fld v 8 2 = 0 then { s.trace 0x100 v.toNat with prt := { (s.trace 0x100 v.toNat).prt with
        pauses := s.prt.pauses ++ [fld v 0 7] } }
      else (s.trace 0x100 v.toNat).forceSweep (fld v 0 7) (fld v 8 2) := by
  unfold State.retrain
  exact State.setting_of_fit opened (decide_eq_true channel)

end Retrain

/-! ### PRT_SYM_CTRL (R434) -/

section Symbols

variable {s : State} {v : Reg32}

/-- Setting ARM leaves what an injection reads of the word. -/
theorem State.inject_setBit_arm (s : State) (line : Nat) (v : Reg32) :
    s.inject line (setBit v 6 true) = s.inject line v := by
  simp [State.inject, fld_setBit_above, fld_setBit, bitOf_setBit]

/-- A written PRT_SYM_CTRL with ARM is a setting; the other defined bits are kept (R429, R434). -/
theorem State.symCtrl_setBit_arm (s : State) (v : Reg32) : s.symCtrl (setBit v 6 true) =
    s.setting 0x10C (v ||| 0x40).toNat
      (decide (fld v 0 4 ≤ 8) && decide (fld v 8 7 ≤ 71) && !(bitOf v 4 && bitOf v 5)) fun s =>
        State.inject { s with prt := { s.prt with symCtrl := v &&& 0x7F3F } } s.prt.symLine.toNat v := by
  have word : setBit v 6 true = v ||| 0x40 := setBit_true v 6
  have kept : setBit v 6 true &&& 0x7F3F = v &&& 0x7F3F := by
    rw [word, BitVec.and_comm, BitVec.and_or_distrib_left, BitVec.and_comm]
    simp
  rw [State.symCtrl, if_pos (by simp [bitOf_setBit]), ← word]
  simp only [kept, State.inject_setBit_arm]
  simp [fld_setBit_above, fld_setBit, bitOf_setBit]

theorem State.symCtrl_of_unfit (unfit : 8 < fld v 0 4 ∨ 71 < fld v 8 7 ∨ (bitOf v 4 = true ∧ bitOf v 5 = true)) :
    s.symCtrl (setBit v 6 true) = s.prtErr := by
  rw [State.symCtrl_setBit_arm]
  refine State.setting_of_unfit ?_
  rcases unfit with h | h | ⟨h, g⟩
  · simp [Nat.not_le.mpr h]
  · simp [Nat.not_le.mpr h]
  · simp [h, g]

theorem State.symCtrl_of_fit (opened : s.prt.isOpen = true) (count : fld v 0 4 ≤ 8) (first : fld v 8 7 ≤ 71)
    (form : bitOf v 4 = false ∨ bitOf v 5 = false) : s.symCtrl (setBit v 6 true) =
      State.inject { s.trace 0x10C (v ||| 0x40).toNat with prt := { (s.trace 0x10C (v ||| 0x40).toNat).prt with
        symCtrl := v &&& 0x7F3F } } s.prt.symLine.toNat v := by
  rw [State.symCtrl_setBit_arm]
  exact State.setting_of_fit opened (by rcases form with h | h <;> simp [count, first, h])

variable {line : Nat}

theorem State.inject_of_free (free : s.frame (line / 1024) = none) : s.inject line v = s := by
  simp only [State.inject, free]

theorem State.inject_of_waiting {f : Frame} (held : s.frame (line / 1024) = some f) (wait : bitOf v 5 = false) :
    s.inject line v = { s with prt := { s.prt with
      armed := s.prt.armed ++ [⟨0, line, fld v 8 7, fld v 0 4, bitOf v 4⟩] } } := by
  simp only [State.inject, held, wait]
  rfl

theorem State.inject_of_immediate {f : Frame} (held : s.frame (line / 1024) = some f) (now_ : bitOf v 5 = true) :
    s.inject line v = State.injected (s.setFrame (line / 1024) { f with
        errs := sput [] f.errs (line % 1024) (addErrs (sget [] f.errs (line % 1024))
          (Armed.mk 0 line (fld v 8 7) (fld v 0 4) (bitOf v 4)).errs) })
      [⟨0, line, fld v 8 7, fld v 0 4, bitOf v 4⟩] := by
  simp only [State.inject, held, now_]
  rfl

end Symbols

/-! ### PRT_LINK (R436) -/

section Links

variable {s : State} {v : Reg32}

theorem State.corruptLink_of_unfit (unfit : 12 ≤ fld v 0 4 ∨ fld v 8 8 = 0) : s.corruptLink v = s.prtErr := by
  unfold State.corruptLink
  refine State.setting_of_unfit ?_
  rcases unfit with h | h
  · simp [Nat.not_lt.mpr h]
  · simp [h]

theorem State.corruptLink_of_host (opened : s.prt.isOpen = true) (port : fld v 0 4 < 8) (some : fld v 8 8 ≠ 0) :
    s.corruptLink v = (s.trace 0x110 v.toNat).modHport (fld v 0 4) fun h =>
      if h.rate = 0 then { h with corrupt := h.corrupt + fld v 8 8 }
      else { h with replays := (h.replays + fld v 8 8) % 2 ^ 32 } := by
  unfold State.corruptLink
  refine (State.setting_of_fit opened ?_).trans (if_pos port)
  simp [Nat.pos_of_ne_zero some, port.trans]

theorem State.corruptLink_of_tamian {p : Nat} (opened : s.prt.isOpen = true) (port : fld v 0 4 = p + 8) (below : p < 4)
    (some : fld v 8 8 ≠ 0) :
    s.corruptLink v = (s.trace 0x110 v.toNat).modTport p fun h =>
      if h.up then { h with replays := satAdd 16 h.replays (fld v 8 8) }
      else { h with corrupt := h.corrupt + fld v 8 8 } := by
  unfold State.corruptLink
  refine (State.setting_of_fit opened ?_).trans ((if_neg (by omega)).trans ?_)
  · simp [Nat.pos_of_ne_zero some, port, Nat.add_lt_add_right below 8]
  · rw [port, Nat.add_sub_cancel]

end Links

/-! ### PRT_CODEC (R437) -/

section Lengths

variable {s : State} {v : Reg64}

theorem State.corruptLength_of_unfit (unfit : fld v 32 4 = 0) : s.corruptLength v = s.prtErr := by
  unfold State.corruptLength
  exact State.setting_of_unfit (by simp [unfit])

theorem State.corruptLength_of_free (opened : s.prt.isOpen = true) (some : fld v 32 4 ≠ 0)
    (free : s.frame (fld v 0 21) = none) : s.corruptLength v = s.trace 0x118 v.toNat := by
  unfold State.corruptLength
  refine (State.setting_of_fit opened (by simp [some])).trans ?_
  have free : (s.trace 0x118 v.toNat).frame (fld v 0 21) = none := free
  simp only [free]

theorem State.corruptLength_of_waiting {f : Frame} (opened : s.prt.isOpen = true) (some : fld v 32 4 ≠ 0)
    (held : s.frame (fld v 0 21) = .some f) (wait : bitOf v 40 = false) :
    s.corruptLength v = { s.trace 0x118 v.toNat with prt := { (s.trace 0x118 v.toNat).prt with
      armed := s.prt.armed ++ [⟨1, fld v 0 21, fld v 24 6, fld v 32 4, false⟩] } } := by
  unfold State.corruptLength
  refine (State.setting_of_fit opened (by simp [some])).trans ?_
  have held : (s.trace 0x118 v.toNat).frame (fld v 0 21) = .some f := held
  simp only [held, wait]
  rfl

theorem State.corruptLength_of_immediate {f : Frame} (opened : s.prt.isOpen = true) (some : fld v 32 4 ≠ 0)
    (held : s.frame (fld v 0 21) = .some f) (now_ : bitOf v 40 = true) :
    s.corruptLength v = State.injected ((s.trace 0x118 v.toNat).setFrame (fld v 0 21)
        { f with lens := sput 0 f.lens (fld v 24 6) (sget 0 f.lens (fld v 24 6) ^^^ fld v 32 4) })
      [⟨1, fld v 0 21, fld v 24 6, fld v 32 4, false⟩] := by
  unfold State.corruptLength
  refine (State.setting_of_fit opened (by simp [some])).trans ?_
  have held : (s.trace 0x118 v.toNat).frame (fld v 0 21) = .some f := held
  simp only [held, now_]
  rfl

end Lengths

/-! ### Closing (R430) -/

theorem State.prtCtrl_of_closed {s : State} (closed : s.prt.isOpen = false) (v : Reg32) : s.prtCtrl v = s :=
  if_neg (by simp [closed])

theorem State.closeTest_of_unstaged {s : State} (unstaged : s.prt.stage = []) : s.closeTest = { s with
    prt := { s.prt with isOpen := false, digest := 0, gate := [], symLine := 0, symCtrl := 0, armed := [] }
    ep := { s.ep with ports := s.ep.ports.map fun e => (e.1, { e.2 with corrupt := 0 }) }
    tam := { s.tam with ports := s.tam.ports.map fun e => (e.1, { e.2 with corrupt := 0 }) } } := by
  refine (if_neg (by simp [unstaged])).trans ?_
  simp only [unstaged]

/-- A closing write finds test mode open, and closes it. -/
theorem State.prtCtrl_of_unstaged {s : State} (opened : s.prt.isOpen = true) (unstaged : s.prt.stage = [])
    (v : Reg32) : s.prtCtrl (setBit v 1 true) = { s with
      prt := { s.prt with isOpen := false, digest := 0, gate := [], symLine := 0, symCtrl := 0, armed := [] }
      ep := { s.ep with ports := s.ep.ports.map fun e => (e.1, { e.2 with corrupt := 0 }) }
      tam := { s.tam with ports := s.tam.ports.map fun e => (e.1, { e.2 with corrupt := 0 }) } } :=
  (if_pos (by rw [opened, bitOf_setBit v true (by decide)]; rfl)).trans (State.closeTest_of_unstaged unstaged)

/-- Settles O56: each write is a setting, which is taken while test mode is open and the word fits. -/
theorem testModeRows : Obligations.TestModeRows := by
  rintro s u t n v managed rfl err traced rfl rfl
  have gate (h : n < 12) := exec_prtGateDelay_of_managed (t := t) (v := v) managed h
  have entry (h : n < 32) := exec_prtStage_of_managed (t := t) (v := v) managed h
  have pause : exec (.prtRetrain t v) s = .next ((s.start t).retrain v) :=
    exec_of_managed managed (f := fun s => s.retrain v) rfl
  have symbol : exec (.symbolInject t v) s = .next ((s.start t).symCtrl (setBit v 6 true)) :=
    exec_of_managed managed (f := fun s => s.symCtrl (setBit v 6 true)) rfl
  have link : exec (.prtLink t v) s = .next ((s.start t).corruptLink v) :=
    exec_of_managed managed (f := fun s => s.corruptLink v) rfl
  have codec (x : Reg64) : exec (.prtCodec t x) s =
      .next (((s.start t).wrote64 0x160118 true x).corruptLength x) :=
    exec_of_managed managed (f := fun s => (s.wrote64 0x160118 true x).corruptLength x) rfl
  have close : exec (.testClose t v) s = .next ((s.start t).prtCtrl (setBit v 1 true)) :=
    exec_of_managed managed (f := fun s => s.prtCtrl (setBit v 1 true)) rfl
  refine ⟨fun x closed => ⟨fun h => ?gateClosed, fun h => ?stageClosed, ?pauseClosed, ?symbolClosed, ?linkClosed,
      ?codecClosed, ?closeClosed⟩, fun h => if_pos h, fun h => if_pos h,
    fun opened w => ⟨?gateFit, fun h unfit => ?stageUnfit, ?stageFit, fun unfit => ?pauseUnfit, ?pauseFit,
      fun unfit => ?symbolUnfit, ?symbolFit, fun unfit => ?linkUnfit, ?hostFit, ?tamianFit⟩,
    fun opened => ?codecOpen, fun opened unstaged => ?close⟩
  case gateClosed => exact (gate h).trans (congrArg _ (State.setting_of_closed closed))
  case stageClosed =>
    rw [entry h, State.stageEntry, State.setting_of_closed closed]
    rfl
  case pauseClosed =>
    rw [pause, State.retrain, State.setting_of_closed closed]
    rfl
  case symbolClosed =>
    rw [symbol, State.symCtrl_setBit_arm, State.setting_of_closed closed]
    rfl
  case linkClosed =>
    rw [link, State.corruptLink, State.setting_of_closed closed]
    rfl
  case codecClosed =>
    rw [codec, State.corruptLength, State.setting_of_closed (by exact closed)]
    rfl
  case closeClosed => exact close.trans (congrArg _ (State.prtCtrl_of_closed closed _))
  case gateFit =>
    rintro h rfl
    exact (gate h).trans (congrArg _ (State.setting_of_fit opened rfl))
  case stageUnfit => exact (entry h).trans (congrArg _ (State.stageEntry_of_unfit unfit))
  case stageFit =>
    rintro h single point rfl once
    have fit := (entry h).trans (congrArg _ (State.stageEntry_of_fit opened single point once))
    exact ⟨fun same => fit.trans (congrArg _ (if_pos same)), fun new => fit.trans (congrArg _ (if_neg new))⟩
  case pauseUnfit => exact pause.trans (congrArg _ (State.retrain_of_unfit unfit))
  case pauseFit =>
    rintro channel rfl c rfl
    have fit := pause.trans (congrArg _ (State.retrain_of_fit opened channel))
    exact ⟨fun none => fit.trans (congrArg _ (if_pos none)),
      fun some busy => fit.trans (congrArg _ ((if_neg some).trans (if_pos (bne_iff_ne.mpr busy)))),
      fun some normal => fit.trans (congrArg _ ((if_neg some).trans (if_neg fun busy => bne_iff_ne.mp busy normal)))⟩
  case symbolUnfit => exact symbol.trans (congrArg _ (State.symCtrl_of_unfit unfit))
  case symbolFit =>
    rintro count first form x l a rfl rfl rfl rfl
    have fit := symbol.trans (congrArg _ (State.symCtrl_of_fit opened count first form))
    exact ⟨fun free => fit.trans (congrArg _ (State.inject_of_free free)),
      fun f held wait => fit.trans (congrArg _ (State.inject_of_waiting held wait)),
      fun f es held now_ hes => fit.trans (congrArg _ (hes ▸ State.inject_of_immediate held now_))⟩
  case linkUnfit => exact link.trans (congrArg _ (State.corruptLink_of_unfit unfit))
  case hostFit =>
    rintro port some rfl h k rfl rfl
    exact link.trans (congrArg _ (State.corruptLink_of_host opened port some))
  case tamianFit =>
    rintro p port below some rfl h k rfl rfl
    exact link.trans (congrArg _ (State.corruptLink_of_tamian opened port below some))
  case codecOpen =>
    rintro x y w a f b d rfl rfl rfl rfl rfl rfl
    exact ⟨fun unfit => (codec x).trans (congrArg _ (State.corruptLength_of_unfit unfit)),
      fun some free => (codec x).trans (congrArg _ (State.corruptLength_of_free opened some free)),
      fun fr some held wait => (codec x).trans (congrArg _ (State.corruptLength_of_waiting opened some held wait)),
      fun fr some held now_ => (codec x).trans (congrArg _ (State.corruptLength_of_immediate opened some held now_))⟩
  case close => exact close.trans (congrArg _ (State.prtCtrl_of_unstaged opened unstaged v))

end Sys2Proof.Machine
